-- ==== Sys2Proof/Word.lean ====
section
/-! DEFINITION. The word types of the Tiluk module: bytes, 32-bit register words (R17), 64-bit quantities (R42), and the
sparse tables in which the model keeps every indexed store. -/

namespace Sys2Proof

/-- One byte. -/
abbrev Byte := BitVec 8

/-- One register word: every register is 32 bits wide (R17). -/
abbrev W32 := BitVec 32

/-- A 64-bit quantity, such as a doorbell value (R265) or a vector instruction (R165). -/
abbrev W64 := BitVec 64

/-- A sparse table: keys strictly rising, and no entry equal to what an unlisted key reads as. -/
abbrev Tab (α : Type) := List (Nat × α)

end Sys2Proof
end

