-- ==== Sys2Proof/Syntax.lean ====
section
/-! DEFINITION. The commands and events of the Tiluk module: one constructor for each row of spec/opcode_table.json.
A host access carries what the link carries (an address, data words and byte enables); an event of the surroundings
carries what was measured or received; an event inside the device names the unit it happens to. -/

namespace Sys2Proof

/-- One double word of a host write with its byte enables (R35). -/
structure Dw where
  data : W32
  be   : BitVec 4
  deriving DecidableEq, Repr

/-- A measured code with its saturation or over-range mark (R66, R355). -/
structure Meas where
  code : Int
  sat  : Bool
  deriving DecidableEq, Repr

/-- What one converter group measured in an engine calibration: how far each of the nine conversions of the 16 offset reads,
and of the 16 gain reads, departed from its ideal code, in LSB, read by read with the reference pair first (R68, R100). -/
structure CalMeas where
  offs  : List Int
  gains : List Int
  deriving DecidableEq, Repr

/-- The fields of a vector instruction, less its operation (R165). -/
structure VF where
  dt  : BitVec 4
  vd  : BitVec 5
  va  : BitVec 5
  vb  : BitVec 5
  msk : BitVec 3
  mz  : Bool
  sat : Bool
  imm : W32
  deriving DecidableEq, Repr

/-- A line start or line end packet: its stream, and whether its header needed correction (R243). -/
structure LinePacket where
  stream   : Nat
  hdrFixed : Bool
  deriving DecidableEq, Repr

/-- A CSI-2 long packet as a port receives it: its stream, data type, payload, whether the payload CRC was right, and
whether its header needed a correction (R242, R243). -/
structure Packet where
  stream   : Nat
  dt       : BitVec 6
  payload  : List Byte
  crcOk    : Bool
  hdrFixed : Bool
  deriving DecidableEq, Repr

/-- Whose read of host memory ended in an error (R258). -/
inductive ReadOwner where
  | ring (n : Nat)
  | req (id : Nat)
  | sillage (unit : Nat)
  deriving DecidableEq, Repr

/-- A supervised request: one in flight, or the descriptor at a place in a ring's posted list (R236). -/
inductive ReqRef where
  | req (id : Nat)
  | posted (ring k : Nat)
  deriving DecidableEq, Repr

/-- A monitored supply (R374). -/
inductive Supply where
  | vaux | vio | vcoreP | vddq | visu
  | vcoreO (die : Nat)
  | varr (die : Nat)
  deriving DecidableEq, Repr

/-- What makes the module leave a power state (R369, R370). -/
inductive ExitTrigger where
  | dispatch | window | queuedWork | bar0Access | bar2Access | perstDeassert | linkActivity
  deriving DecidableEq, Repr

/-- How a start-up step ended: the dies whose part of steps 0x05, 0x06 or 0x07 failed, and whether the step as a whole
succeeded (R410, R412). -/
structure BootResult where
  ok      : Bool
  badDies : List Nat
  deriving DecidableEq, Repr

/-- An error the patrol scrub found: the block's address and whether it was corrected (R325). -/
structure EccFind where
  addr      : Nat
  corrected : Bool
  deriving DecidableEq, Repr

/-- The commands, one constructor for each row of the table of operations and events. -/
inductive Instr where
  /-- REGISTER_WRITE (R34). -/
  | registerWrite (addr : Nat) (dws : List Dw)
  /-- PAGE_LOCK_WRITE (R29). -/
  | pageLockWrite (page : Nat) (dw : Dw)
  /-- PAGE_CLR_WRITE (R39). -/
  | pageClrWrite (page : Nat) (dw : Dw)
  /-- PAGE_COMMIT_WRITE (R46). -/
  | pageCommitWrite (page : Nat) (dw : Dw)
  /-- PAGE_STICKY_READ (R38). -/
  | pageStickyRead (page : Nat) (be : BitVec 4)
  /-- PAGE_FIRST_READ (R38). -/
  | pageFirstRead (page : Nat) (be : BitVec 4)
  /-- LO_READ_LATCH (R42): a memory read of the host, of one or more DWs with their byte enables. -/
  | loReadLatch (bar addr : Nat) (bes : List (BitVec 4))
  /-- HI_WRITE_COMMIT (R43). -/
  | hiWriteCommit (addr : Nat) (dw : Dw)
  /-- DOORBELL_WRITE (R266). -/
  | doorbellWrite (addr : Nat) (dws : List Dw)
  /-- HSK_SELECT_WRITE (R58). -/
  | hskSelectWrite (dw : Dw)
  /-- HSK_FEAT_SELECT_WRITE (R58). -/
  | hskFeatSelectWrite (dw : Dw)
  /-- TB_SET_WRITE (R216). -/
  | tbSetWrite (dw : Dw)
  /-- LT_EN_WRITE (R440). -/
  | ltEnWrite (dw : Dw)
  /-- LT_INDEX_WRITE (R226). -/
  | ltIndexWrite (dw : Dw)
  /-- LT_CMD_WRITE (R226). -/
  | ltCmdWrite (dw : Dw)
  /-- LT_CMD_CLEAR_PEND (R226). -/
  | ltCmdClearPend (dw : Dw)
  /-- BLV_POS_READ (R221). -/
  | blvPosRead (stream : Nat) (be : BitVec 4)
  /-- CAL_ENG_INDEX_WRITE (R119). -/
  | calEngIndexWrite (die : Nat) (dw : Dw)
  /-- SWEEP_CTRL_START (R140). -/
  | sweepCtrlStart (die : Nat) (dw : Dw)
  /-- WEAR_INDEX_WRITE (R155). -/
  | wearIndexWrite (die : Nat) (dw : Dw)
  /-- DRIFT_INDEX_WRITE (R155). -/
  | driftIndexWrite (die : Nat) (dw : Dw)
  /-- PLM_INDEX_WRITE (R156). -/
  | plmIndexWrite (die : Nat) (dw : Dw)
  /-- HIST_CLR (R179). -/
  | histClr (die core : Nat) (dw : Dw)
  /-- VEC_SLOT_INDEX_WRITE (R183). -/
  | vecSlotIndexWrite (die core : Nat) (dw : Dw)
  /-- CAM_STREAM_ENABLE (R246). -/
  | camStreamEnable (stream : Nat) (dw : Dw)
  /-- RING_ENABLE (R263). -/
  | ringEnable (ring : Nat) (dw : Dw)
  /-- RING_DISABLE (R264). -/
  | ringDisable (ring : Nat) (dw : Dw)
  /-- RING_DRAINED (R264). -/
  | ringDrained (ring : Nat)
  /-- HDMA_SUM_BASE_WRITE (R283). -/
  | hdmaSumBaseWrite (dw : Dw)
  /-- HDMA_SUM_CLR (R281). -/
  | hdmaSumClr (dw : Dw)
  /-- FLC_SLOT_INDEX_WRITE (R313). -/
  | flcSlotIndexWrite (dw : Dw)
  /-- TRL_LINK_INDEX_WRITE (R331). -/
  | trlLinkIndexWrite (dw : Dw)
  /-- MEM_SLOW_SIZE_WRITE (R326). -/
  | memSlowSizeWrite (dw : Dw)
  /-- CHK_SUBMIT (R334). -/
  | chkSubmit (dw : Dw)
  /-- CHK_TPL_INDEX_WRITE (R344). -/
  | chkTplIndexWrite (dw : Dw)
  /-- CHK_TPL_WRITE (R338). -/
  | chkTplWrite (dw : Dw)
  /-- RELEASE (R350). -/
  | ilkRelease (dw : Dw)
  /-- DAC_CFG_WRITE (R353). -/
  | dacCfgWrite (out : Nat) (dw : Dw)
  /-- ISU_DAC_LOAD (R352). -/
  | isuDacLoad (dw : Dw)
  /-- ADC_DATA_READ (R358). -/
  | adcDataRead (conv : Nat) (be : BitVec 4)
  /-- CAL_ZERO (R361). -/
  | calZero (conv ch : Nat)
  /-- CAL_FS (R361). -/
  | calFs (conv ch : Nat)
  /-- CAL_CLR (R361). -/
  | calClr (conv ch : Nat)
  /-- ISU_CAL_DONE (R362). -/
  | isuCalDone (codes : List Meas)
  /-- ISU_CAL_INDEX_WRITE (R365). -/
  | isuCalIndexWrite (dw : Dw)
  /-- PWR_REQ_WRITE (R369). -/
  | pwrReqWrite (dw : Dw)
  /-- PWR_DIE_RESTART (R380). -/
  | pwrDieRestart (dw : Dw)
  /-- PWR_LOG_INDEX_WRITE (R384). -/
  | pwrLogIndexWrite (dw : Dw)
  /-- FW_STAGE (R400). -/
  | fwStage (arg : BitVec 8)
  /-- ROLLBACK_COMMIT (R400). -/
  | rollbackCommit (arg : BitVec 8)
  /-- OWNER_ENROL (R400). -/
  | ownerEnrol (arg : BitVec 8)
  /-- OWNER_REVOKE (R400). -/
  | ownerRevoke (arg : BitVec 8)
  /-- ODFEN_REVOKE (R400). -/
  | odfenRevoke (arg : BitVec 8)
  /-- DBG_UNLOCK (R404). -/
  | dbgUnlock (arg : BitVec 8)
  /-- NEW_CHAL (R402). -/
  | newChal (dw : Dw)
  /-- RELOCK (R403). -/
  | relock (dw : Dw)
  /-- SEC_ID_DATA_READ (R407). -/
  | secIdDataRead (be : BitVec 4)
  /-- CDBG_HALT (R408). -/
  | cdbgHalt (die core : Nat) (dw : Dw)
  /-- CDBG_STEP (R408). -/
  | cdbgStep (die core : Nat) (dw : Dw)
  /-- CDBG_DATA_READ (R408). -/
  | cdbgDataRead (die core : Nat) (be : BitVec 4)
  /-- RETRY (R416). -/
  | bootRetry (dw : Dw)
  /-- BOOT_DIE_RESET (R409). -/
  | bootDieReset (dw : Dw)
  /-- CONFIG_REQUEST (R411). -/
  | configRequest (write : Bool) (reg : Nat) (data : W32)
  /-- UNSUPPORTED_REQUEST (R258). -/
  | unsupportedRequest (write : Bool) (bar : Option Nat)
  /-- POISONED_WRITE (R258). -/
  | poisonedWrite (bar : Nat) (addr : Nat)
  /-- HOST_READ_ERROR (R258). -/
  | hostReadError (owner : ReadOwner)
  /-- PTM_REQUEST (R215). -/
  | ptmRequest
  /-- PTM_RESPONSE (R215). -/
  | ptmResponse (master : Nat)
  /-- PPS_EDGE (R215). -/
  | ppsEdge
  /-- HOLDOVER (R215). -/
  | holdover
  /-- TB_SYNC_MESSAGE (R217). -/
  | tbSyncMessage (skews : List Int)
  /-- TB_OUT_RISE (R219). -/
  | tbOutRise
  /-- TB_OUT_FALL (R219). -/
  | tbOutFall
  /-- DESCRIPTOR_READ (R267). -/
  | descriptorRead (ring : Nat)
  /-- DESCRIPTOR_READY (R268). -/
  | descriptorReady (ring : Nat)
  /-- DISPATCH (R269). -/
  | dispatch
  /-- RUN_TASK (R271). -/
  | runTask (req : Nat)
  /-- ISSUE_VERDICT (R195). -/
  | issueVerdict (req : Nat)
  /-- READ_TENSOR (R271). -/
  | readTensor (req : Nat)
  /-- WRITE_TENSOR (R271). -/
  | writeTensor (req : Nat)
  /-- FLACON_BEGIN (R293). -/
  | flaconBegin (req : Nat)
  /-- SHARD (R296). -/
  | shard (req : Nat)
  /-- SHARD_SEND (R297). -/
  | shardSend (req : Nat)
  /-- SHARD_DIE_RECEIVE (R298). -/
  | shardDieReceive (req die : Nat) (payload : List Byte)
  /-- FLACON_ACTIVATE (R300). -/
  | flaconActivate (req : Nat)
  /-- ACTIVATE_TIMEOUT (R300). -/
  | activateTimeout (slot : Nat)
  /-- ACTIVATION_PREPARED (R301). -/
  | activationPrepared (slot : Nat)
  /-- ACTIVATION_JUDGED (R302). -/
  | activationJudged (slot : Nat)
  /-- ACTIVATION_APPLY (R302). -/
  | activationApply (slot : Nat)
  /-- NV_RECORD_WRITE (R303). -/
  | nvRecordWrite
  /-- FLACON_RETIRE (R306). -/
  | flaconRetire (req : Nat)
  /-- FLACON_ABORT (R309). -/
  | flaconAbort (req : Nat)
  /-- SLOT_DRAINED (R307). -/
  | slotDrained (slot : Nat)
  /-- IN_PLACE_DRAINED (R308). -/
  | inPlaceDrained (slot : Nat)
  /-- CALIBRATE (R114). -/
  | calibrate (req : Nat)
  /-- VERIFY_SWEEP (R140). -/
  | verifySweep (req : Nat)
  /-- ATTEST (R396). -/
  | attest (req : Nat)
  /-- FENCE (R271). -/
  | fence (req : Nat)
  /-- NOP (R271). -/
  | nopReq (req : Nat)
  /-- COMPLETION_WRITE (R273). -/
  | completionWrite (req : Nat)
  /-- HEAD_WORD_WRITE (R280). -/
  | headWordWrite (ring : Nat)
  /-- AT_TRIGGER (R223). -/
  | atTrigger (entry : Nat)
  /-- EVERY_TRIGGER (R223). -/
  | everyTrigger (entry : Nat)
  /-- ACTION_ISSUE (R229). -/
  | actionIssue (entry : Nat)
  /-- LATE_JUDGEMENT (R230). -/
  | lateJudgement (entry : Nat)
  /-- COMMIT_APPLY (R47). -/
  | commitApply (group : Nat)
  /-- CAL_WINDOW_OPEN (R232). -/
  | calWindowOpen (win : Nat)
  /-- CAL_WINDOW_CLOSE (R232). -/
  | calWindowClose (win : Nat)
  /-- ENGINE_CAL_END (R102). -/
  | engineCalEnd (eng : Nat) (groups : List CalMeas)
  /-- DEADLINE_MISS (R236). -/
  | deadlineMiss (req : ReqRef)
  /-- ENTRY_UE (R227). -/
  | entryUe (entry : Nat)
  /-- FRAME_START (R247). -/
  | frameStart (stream : Nat) (hdrFixed : Bool)
  /-- FRAME_END (R247). -/
  | frameEnd (stream : Nat) (hdrFixed : Bool)
  /-- LONG_PACKET (R247). -/
  | longPacket (pkt : Packet)
  /-- HDR_UE (R243). -/
  | hdrUe (port : Nat) (lost : Option Nat)
  /-- LINE_START_PACKET (R247). -/
  | lineStartPacket (pkt : LinePacket)
  /-- LINE_END_PACKET (R247). -/
  | lineEndPacket (pkt : LinePacket)
  /-- STRIPE_PUSH (R250). -/
  | stripePush (stream stripe : Nat)
  /-- STREAM_LOST (R251). -/
  | streamLost (stream : Nat)
  /-- READ_INTEGRATE (R70). -/
  | readIntegrate (eng : Nat)
  /-- CONFIDENCE_DECISION (R75). -/
  | confidenceDecision (eng : Nat) (errs : List Int)
  /-- SATURATION_DECISION (R86). -/
  | saturationDecision (eng : Nat) (errs : List Int)
  /-- FETCH_GROUP (R187). -/
  | fetchGroup (run : Nat)
  /-- COUNTER_CLAIM (R202). -/
  | counterClaim (run : Nat)
  /-- PAVILION_CLAIM (R323). -/
  | pavilionClaim (run : Nat)
  /-- ROW_BROADCAST (R188). -/
  | rowBroadcast (run row : Nat) (ks : Nat)
  /-- ACC_ALLOCATE (R189). -/
  | accAllocate (run : Nat)
  /-- TILE_QUEUE (R190). -/
  | tileQueue (core tile : Nat)
  /-- DRAIN_ROW (R191). -/
  | drainRow (core : Nat)
  /-- END_PROG (R192). -/
  | endProg (run core : Nat)
  /-- TILE_DELIVERY (R193). -/
  | tileDelivery (core : Nat)
  /-- SRAM_ECC_ERROR (R207). -/
  | sramEccError (core addr : Nat) (corrected : Bool) (req : Option Nat)
  /-- QUANT_POST_ARRIVAL (R178). -/
  | quantPostArrival (core slot fromCore : Nat) (amaxes : List W32) (pass : Nat) (reset : Bool)
  /-- VEC_NOP (R167). -/
  | vecNop (core : Nat) (f : VF)
  /-- VLD (R167). -/
  | vld (core : Nat) (f : VF)
  /-- VST (R167). -/
  | vst (core : Nat) (f : VF)
  /-- VLDB (R167). -/
  | vldb (core : Nat) (f : VF)
  /-- VLUT (R167). -/
  | vlut (core : Nat) (f : VF)
  /-- VADD (R167). -/
  | vadd (core : Nat) (f : VF)
  /-- VSUB (R167). -/
  | vsub (core : Nat) (f : VF)
  /-- VMUL (R167). -/
  | vmul (core : Nat) (f : VF)
  /-- VMAC (R167). -/
  | vmac (core : Nat) (f : VF)
  /-- VMIN (R167). -/
  | vmin (core : Nat) (f : VF)
  /-- VMAX (R167). -/
  | vmax (core : Nat) (f : VF)
  /-- VABS (R167). -/
  | vabs (core : Nat) (f : VF)
  /-- VNEG (R167). -/
  | vneg (core : Nat) (f : VF)
  /-- VDOT (R167). -/
  | vdot (core : Nat) (f : VF)
  /-- VDIV (R167). -/
  | vdiv (core : Nat) (f : VF)
  /-- VAND (R167). -/
  | vand (core : Nat) (f : VF)
  /-- VOR (R167). -/
  | vor (core : Nat) (f : VF)
  /-- VXOR (R167). -/
  | vxor (core : Nat) (f : VF)
  /-- VSHL (R167). -/
  | vshl (core : Nat) (f : VF)
  /-- VSHRA (R167). -/
  | vshra (core : Nat) (f : VF)
  /-- VSHRR (R167). -/
  | vshrr (core : Nat) (f : VF)
  /-- VCMP (R167). -/
  | vcmp (core : Nat) (f : VF)
  /-- VSEL (R167). -/
  | vsel (core : Nat) (f : VF)
  /-- VEXP (R167). -/
  | vexp (core : Nat) (f : VF)
  /-- VLOG (R167). -/
  | vlog (core : Nat) (f : VF)
  /-- VRCP (R167). -/
  | vrcp (core : Nat) (f : VF)
  /-- VRSQRT (R167). -/
  | vrsqrt (core : Nat) (f : VF)
  /-- VTANH (R167). -/
  | vtanh (core : Nat) (f : VF)
  /-- VERF (R167). -/
  | verf (core : Nat) (f : VF)
  /-- VSQRT (R167). -/
  | vsqrt (core : Nat) (f : VF)
  /-- VRSUM (R168). -/
  | vrsum (core : Nat) (f : VF)
  /-- VRMAX (R168). -/
  | vrmax (core : Nat) (f : VF)
  /-- VRAMAX (R168). -/
  | vramax (core : Nat) (f : VF)
  /-- VSLIDE (R167). -/
  | vslide (core : Nat) (f : VF)
  /-- VBCAST (R167). -/
  | vbcast (core : Nat) (f : VF)
  /-- VCVT (R161). -/
  | vcvt (core : Nat) (f : VF)
  /-- VQNT (R175). -/
  | vqnt (core : Nat) (f : VF)
  /-- VQEND (R176). -/
  | vqend (core : Nat) (f : VF)
  /-- VQSCALE (R167). -/
  | vqscale (core : Nat) (f : VF)
  /-- SMOV (R167). -/
  | smov (core : Nat) (f : VF)
  /-- SADD (R167). -/
  | sadd (core : Nat) (f : VF)
  /-- LOOP (R167). -/
  | vloop (core : Nat) (f : VF)
  /-- END (R167). -/
  | vend (core : Nat) (f : VF)
  /-- HOUSEKEEPING_ROUND (R377). -/
  | housekeepingRound (die : Nat) (temp : Int) (vcoreMv varrMv : Nat) (biasOk : Bool)
  /-- PAVILION_TEMP_READ (R379). -/
  | pavilionTempRead (temp : Int)
  /-- CAL_COEF_SAVE (R112). -/
  | calCoefSave (die : Nat)
  /-- GOVERNOR_TICK (R372). -/
  | governorTick (die : Nat)
  /-- SWEEP_INTERVAL (R140). -/
  | sweepInterval (die : Nat)
  /-- SWEEP_READ (R141). -/
  | sweepRead (eng : Nat) (refErrs errs : List Int)
  /-- PLATE_PROGRAM_BEGIN (R124). -/
  | plateProgramBegin (eng : Nat)
  /-- ERASE_SEGMENT (R124). -/
  | eraseSegment (eng : Nat) (codes : List Int)
  /-- PULSE_VERIFY_PAIR (R125). -/
  | pulseVerifyPair (eng : Nat) (codes : List Int)
  /-- TOUCH_UP (R148). -/
  | touchUp (eng : Nat) (before after : List Int)
  /-- FLIT_CRC_ERROR (R319): the bad flit is a flit's first sending, or a replay of it. -/
  | flitCrcError (link : Nat) (replayed : Bool)
  /-- LINK_RETRAIN (R319). -/
  | linkRetrain (link : Nat) (ok : Bool)
  /-- TRANSFER_ACK (R321). -/
  | transferAck (xfer dest : Nat)
  /-- MEM_ECC_ERROR (R325). -/
  | memEccError (addr : Nat) (corrected : Bool) (req : Option Nat)
  /-- PATROL_SCRUB (R325). -/
  | patrolScrub (found : List EccFind)
  /-- SLOW_TIER_BLOCK (R329). -/
  | slowTierBlock (run : Nat)
  /-- SILLAGE_JOB_START (R333). -/
  | sillageJobStart (unit : Nat)
  /-- SILLAGE_JOB_END (R340). -/
  | sillageJobEnd (unit : Nat) (readError : Bool)
  /-- STROBE_END (R346). -/
  | strobeEnd (out : Nat)
  /-- WIDTH_CLIP (R347). -/
  | widthClip (out : Nat)
  /-- DUTY (R347). -/
  | dutyEnd (out : Nat)
  /-- CONVERSION_START (R357). -/
  | conversionStart (conv : Nat)
  /-- CONVERSION_DONE (R358). -/
  | conversionDone (conv : Nat) (meas : Meas)
  /-- DAC_RAMP_END (R353). -/
  | dacRampEnd (out : Nat)
  /-- SC (R354). -/
  | dacSc (out : Nat) (live : Bool)
  /-- OPEN (R354). -/
  | dacOpen (out : Nat) (live : Bool)
  /-- SUPPLY_WARNING (R375). -/
  | supplyWarning (mon : Supply)
  /-- SUPPLY_WARNING_CLEAR (R374). -/
  | supplyWarningClear (mon : Supply)
  /-- SUPPLY_RESET (R376). -/
  | supplyReset (mon : Supply)
  /-- DIE_REJOIN (R376). -/
  | dieRejoin (die : Nat)
  /-- PSTATE_ENTRY (R369). -/
  | pstateEntry
  /-- PSTATE_EXIT (R370). -/
  | pstateExit (trigger : ExitTrigger)
  /-- PSTATE_EXIT_DONE (R367). -/
  | pstateExitDone
  /-- SYSCLK_LOSS (R433). -/
  | sysclkLoss
  /-- SYSCLK_RETURN (R433). -/
  | sysclkReturn
  /-- POWER_ON_RESET (R409). -/
  | powerOnReset
  /-- SYS_RST (R409). -/
  | sysRst
  /-- PERST_ASSERT (R409). -/
  | perstAssert
  /-- PERST_DEASSERT (R411). -/
  | perstDeassert
  /-- HOT_RESET (R409). -/
  | hotReset
  /-- FLR (R258). -/
  | flr
  /-- BOOT_STEP_END (R410). -/
  | bootStepEnd (res : BootResult)
  /-- BOOT_WATCHDOG (R412). -/
  | bootWatchdog
  /-- TAP_RESET (R436). -/
  | tapReset
  /-- EXTEST (R437). -/
  | tapExtest
  /-- SAMPLE_PRELOAD (R436). -/
  | tapSamplePreload
  /-- IDCODE (R436). -/
  | tapIdcode
  /-- CLAMP (R437). -/
  | tapClamp
  /-- HIGHZ (R437). -/
  | tapHighz
  /-- DBG (R436). -/
  | tapDbg
  /-- BYPASS (R436). -/
  | tapBypass
  /-- SUP_HOLD_END (R132). -/
  | supHoldEnd (die : Nat)
  /-- DATA_LANES_LEAVE_LP11 (R254). -/
  | dataLanesLeaveLp11 (port : Nat)
  /-- FLR_COMPLETE (R258). -/
  | flrComplete
  deriving DecidableEq, Repr

end Sys2Proof
end

