-- ==== Sys2Proof/Decode.lean ====
section
/-! DEFINITION. The command that a word spells by the bits of the table of operations and events. The table gives its
rows no bits: every row is an access, a message, a measurement or an instant, none a word. So no word spells a command. -/

namespace Sys2Proof

/-- The command spelled by a word of the table's numbering: none, since no row of the table has bits (log 16). -/
def decodeTableWord (_nbits _w : Nat) : Option Instr := none

end Sys2Proof
end

