-- ==== Sys2Proof/Config.lean ====
section
/-! DEFINITION. What the manual leaves to the part: primitives of published standards it only names, key material, and
the values it leaves open. None has a body, so no proof can rest on a value of one (logs 9 and 11). -/

namespace Sys2Proof

/-- A free word: what the manual leaves open, drawn once for each count of `State.free` (log 11). -/
opaque Config.freeWord : Nat → W32

/-- A free count, drawn in the same way (log 11). -/
opaque Config.freeNat : Nat → Nat

/-- SHA-384 (R144, R291, R390, R394). -/
opaque Config.sha384 : List Byte → List Byte

/-- Whether an ECDSA signature over P-384 verifies: public key, signed bytes, signature (R389, R390). -/
opaque Config.ecdsaOk : List Byte → List Byte → List Byte → Bool

/-- A byte of the device secret, 48 bytes that production writes into the fuses (R387, log 9). -/
opaque Config.secretByte : Nat → Byte

/-- The P-384 public key of a private key, X then Y, each 48 bytes big-endian (R387, R394, log 9). -/
opaque Config.p384Public : Nat → List Byte

/-- The root of the LMS tree that a seed and an identifier give (R394, R395, log 9). -/
opaque Config.lmsRoot : List Byte → List Byte → List Byte

/-- Whether an HSS signature verifies: public key, signed bytes, signature (R389, R390). -/
opaque Config.hssOk : List Byte → List Byte → List Byte → Bool

/-- An ECDSA signature with a private key over some bytes; the count makes its nonce fresh (R396, log 9). -/
opaque Config.ecdsaSign : Nat → Nat → List Byte → List Byte

/-- The randomiser and the chains of an LM-OTS signature with a leaf of the key that a seed and an identifier give, over some bytes
(R395, R396, log 9). -/
opaque Config.lmotsSign : Nat → List Byte → List Byte → List Byte → List Byte

/-- The authentication path of a leaf of that key (R395, log 9). -/
opaque Config.lmsPath : Nat → List Byte → List Byte → List Byte

/-- The challenge drawn by NEW_CHAL, 32 bytes by the count of free values (R402, log 9). -/
opaque Config.random32 : Nat → List Byte

/-- How many 4-byte words past the header the Power Management and the PCI Express capability stand in configuration space, which the
manual does not give, by their order in the list of capabilities (R256, log 26). -/
opaque Config.capDw : Nat → Nat

/-- The places of the two capabilities: anywhere past the 64-byte header (R256, log 26). -/
def Config.capAt (i : Nat) : Nat := 0x40 + 4 * Config.capDw i

/-- The places of the extended capabilities but the first, by their order in the list (R256, log 26). -/
opaque Config.ecapAt : Nat → Nat

/-- Where the manual leaves each enabled stream's buffers in the ingest SRAM: given the enabled streams with their pitches and a byte
offset, the place of that byte in `State.ingest` (R246, R337, log 11). -/
opaque Config.ingestAt : List (Nat × Nat) → Nat → Nat

end Sys2Proof
end

