-- ==== Sys2Proof/Machine/State.lean ====
section
/-! DEFINITION. The state of the Tiluk module as plain data, and its state right after a power-on reset. Every register
bit that is stored has one home, `State.regs`; the structures below hold what the spec gives the machine beside its
registers. INVENTORY.md lists each piece with its rule. -/

namespace Sys2Proof.Machine

open Sys2Proof

/-- Why the machine stops for good. -/
inductive Fault where
  /-- Kept for the interface: no command of this block stops it, since the spec gives every refused or broken access an
  outcome after which the module goes on. Raised by no meaning. Safe: a stop proves nothing about a next state. -/
  | halted
  deriving DecidableEq, Repr

/-- Why a command has no meaning. -/
inductive Refusal where
  /-- Raised by an arm of `exec` whose command has no meaning yet. Safe: nothing can be proved of a next state. -/
  | notModelled (mnemonic : String)
  deriving DecidableEq, Repr

/-! ### Part facts -/

/-- The family members (R1, R2). -/
inductive Member where
  | tlq16 | tlq08 | tlq04
  deriving DecidableEq, Repr

/-- What production fixed in this part (R2, R26, R118, R256, R436). -/
structure Part where
  member   : Member
  pavStep  : BitVec 8
  dieStep  : Tab (BitVec 8)
  revision : BitVec 8
  kt       : Tab (BitVec 16)
  vendorId : BitVec 16
  jep106   : BitVec 11
  deriving DecidableEq, Repr

/-! ### The link and the last answer to the host -/

/-- How a request of the host was answered (R35, R257, R258, R411). `posted` marks a write, which has no answer. -/
inductive Cpl where
  | none | posted | ok | ur | ca | crs
  deriving DecidableEq, Repr

/-- What was reported through AER (R258). -/
inductive Aer where
  | poisonedWrite (bar addr : Nat)
  | hostRead (owner : ReadOwner)
  deriving DecidableEq, Repr

/-- A memory request of the host (R35, R36): a write to BAR0 or BAR2, or a read. -/
inductive Access where
  | write (bar addr : Nat) (dws : List Dw)
  | read (bar addr : Nat) (bes : List (BitVec 4))
  deriving DecidableEq, Repr

/-- The endpoint: the answer last given, the link, PERST# with the instant of its last de-assertion (R410), the reports made, the base
address and the other writable registers of configuration space by their place (R256, R257, log 26), and the memory requests that wait
for an exit from SLEEP (R370). -/
structure Bus where
  status : Cpl
  data   : List W32
  aer    : List Aer
  linkUp : Bool
  perst  : Bool
  perstAt : Int
  flr    : Bool
  d3hot  : Bool
  bars   : Tab W32
  waiting : List Access
  deriving DecidableEq, Repr

/-! ### Belvedere -/

/-- The timebase, its disciplining, the TB_OUT pin with the multiple of 10^9 at which it last rose, and the issue count of
the present microsecond (R214 to R219, R229). -/
structure Belv where
  tb       : Nat
  frac     : Int
  lock     : Bool
  holdover : Bool
  good     : Nat
  missed   : Nat
  ptmOpen  : Bool
  ptmAt    : Nat
  ppsAt    : Option Nat
  jump     : Bool
  offset   : Int
  rate     : Int
  skew     : Tab Int
  syncAt   : Nat
  tbOut    : Bool
  outAt    : Option Nat
  fallAt   : Nat
  judging  : Bool
  us       : Nat
  issued   : Nat
  deriving DecidableEq, Repr

/-- A pending firing: its instant, and whether it has been judged late and waits to be issued (R228 to R230). -/
structure Firing where
  t    : Nat
  late : Bool
  deriving DecidableEq, Repr

/-- A launch entry (R222) with its pending firing and its report bits (R240). `armed` says that an AT or EVERY entry
still has a trigger value to come, and `next` is that value (R440). -/
structure Entry where
  d0       : W32
  d1       : W32
  d2       : W32
  d3       : W32
  pend     : Option Firing
  lastLate : Bool
  lastSkip : Bool
  fires    : BitVec 16
  armed    : Bool
  next     : Nat
  deriving DecidableEq, Repr

/-- What was decided at J for a commit group (R234). -/
inductive Verdict where
  | applied | refused | empty
  deriving DecidableEq, Repr

/-- A commit group (R233, R234): its members, those that join for the next outcome, the decided outcome with its instant,
and the instants of further COMMITs judged after it. -/
structure Group where
  members : List Nat
  joining : List Nat
  held    : Option (Nat × Verdict)
  after   : List Nat
  last    : BitVec 2
  deriving DecidableEq, Repr

/-- A dispatched or open calibration window (R232), with the due engines that have yet to begin in it (R104, R110). -/
structure Window where
  openAt  : Nat
  closeAt : Nat
  dies    : BitVec 16
  cores   : BitVec 16
  isOpen  : Bool
  defer   : List Nat
  deriving DecidableEq, Repr

/-! ### Cameras -/

/-- A stripe that awaits its push (R250): its frame, the TB of that frame's start, its index, the BAD, CLIPPED and RATE
outcomes of its lines, the session slots and layer records that the frame is bound to, and its buffer in the ingest SRAM with its
lines, and the bytes and the pitch of a line. -/
structure StripeDue where
  frame  : BitVec 16
  key    : Nat
  stripe : Nat
  bad    : Bool
  clip   : Bool
  rate   : Bool
  bound  : List (Nat × Nat)
  buf    : Nat
  rows   : Nat
  width  : Nat
  pitch  : Nat
  deriving DecidableEq, Repr

/-- A stream: its line position and stamps (R220), the open frame (R245, R247, R248) with the slots and layer records bound
to it (R289), stripes with the buffer of the present one, and of a DROPPED frame the first that it does not push (R250), the watchdog (R251), the frozen check (R253), and the ring slots whose frame has an embedded
line. -/
structure Stream where
  frame    : BitVec 16
  line     : BitVec 16
  stamp    : Nat
  endStamp : Nat
  isOpen   : Bool
  lines    : Nat
  bad      : Nat
  emb      : Nat
  flags    : BitVec 16
  bitmap   : List Nat
  badLines : List Nat
  clipLines : List Nat
  rateLines : List Nat
  dropAt   : Option Nat
  pendLine : Option Nat
  bound    : List (Nat × Nat)
  due      : List StripeDue
  buf      : Nat
  lastEnd  : Option Nat
  watchAt  : Nat
  lost     : Bool
  frozen   : Bool
  counter  : Option Nat
  sig      : Option W32
  startTb  : Nat
  endFrame : Option (BitVec 16)
  embSlots : List Nat
  deriving DecidableEq, Repr

/-! ### Host rings and requests -/

/-- A descriptor (R270). -/
structure Desc where
  opc      : BitVec 8
  flags    : BitVec 8
  task     : BitVec 16
  seq      : W32
  epoch    : W32
  trigger  : BitVec 16
  acc      : BitVec 8
  policy   : BitVec 8
  inAddr   : W64
  outAddr  : W64
  auxAddr  : W64
  lenM     : W32
  param    : W32
  lenAddr  : W64
  deadline : W32
  rsv      : W32
  deriving DecidableEq, Repr

/-- A posted descriptor that has not been dispatched (R267, R268): whether it has been read, made eligible by a release,
passed its trigger gate, failed a check (its DETAIL, else 0), was released late, and when it became ready. -/
structure Posted where
  slot     : Nat
  isRead   : Bool
  desc     : Desc
  eligible : Bool
  since    : Nat
  gate     : Bool
  late     : Bool
  detail   : Nat
  ready    : Option Nat
  missed   : Bool
  deriving DecidableEq, Repr

/-- The states of a ring (R285). -/
inductive RingSt where
  | disabled | running | stalled | draining | fault
  deriving DecidableEq, Repr

/-- A ring (R262). -/
structure Ring where
  st       : RingSt
  tail     : Nat
  sqHead   : Nat
  cqHead   : Nat
  cqTail   : Nat
  inflight : Nat
  alive    : BitVec 8
  records  : W32
  dbErr    : Nat
  posted   : List Posted
  headDue  : Bool
  sumDue   : Bool
  deriving DecidableEq, Repr

/-- How far a request has come: dispatched, checked at issue and awaiting the verdict, running, or finished and awaiting
its record. -/
inductive Phase where
  | dispatched | checking | running | finished
  deriving DecidableEq, Repr

/-- A request in flight (R235, R269 to R279). `status` is the code of the first outcome that decided it, if one has;
`ran` says that it reached ranks 5 to 9 of R279; `fin` is the TB of its completion; `out` holds the host bytes it has written, for RESULT_CRC (R276). -/
structure Req where
  ring     : Nat
  desc     : Desc
  readyAt  : Nat
  at_      : Nat
  late     : Bool
  missed   : Bool
  frozen   : Bool
  phase    : Phase
  status   : Option Nat
  detail   : Nat
  ran      : Bool
  epoch    : W32
  slot     : Nat
  fin      : Nat
  launch   : Nat
  len      : Nat
  clamped  : Bool
  qual     : BitVec 16
  satCnt   : Nat
  repCnt   : Nat
  doneTb   : Option Nat
  out      : Tab (Option Byte)
  refusals : List (Nat × Nat × Nat × Nat × Nat)
  waitFor  : List Nat
  deriving DecidableEq, Repr

/-! ### Flacons -/

/-- A layer record (R186, R288). -/
structure LayerRec where
  task : Nat
  layer : Nat
  die : Nat
  tier : Nat
  inFmt : Nat
  outEb : Nat
  k : Nat
  n : Nat
  mMax : Nat
  mFixed : Nat
  rg : Nat
  satPol : Nat
  accClass : Nat
  loop : Nat
  mg : Nat
  dbuf : Nat
  gridM : Nat
  gridPos : Nat
  ctrScope : Nat
  claimN : Nat
  sets : Nat
  source : Nat
  inRing : Nat
  inSlots : Nat
  drainProg : Nat
  endProg : Nat
  coreFirst : Nat
  coreCount : Nat
  plateFirst : Nat
  plateCount : Nat
  consFirst : Nat
  consCount : Nat
  deriving DecidableEq, Repr

/-- An entry of TASKS (R289). -/
structure TaskEnt where
  task : Nat
  layers : Nat
  mMax : Nat
  auxBytes : Nat
  deriving DecidableEq, Repr

/-- An entry of CORES (R289). -/
structure CoreEnt where
  core : Nat
  set : Nat
  outArea : Nat
  outBytes : Nat
  deriving DecidableEq, Repr

/-- An entry of PLATES (R289). -/
structure PlateEnt where
  core : Nat
  inShard : Nat
  engine : Nat
  ks : Nat
  nt : Nat
  shard : Nat
  deriving DecidableEq, Repr

/-- An entry of CONSUMERS (R289). -/
structure ConsEnt where
  kind : Nat
  die : Nat
  source : Nat
  task : Nat
  layer : Nat
  deriving DecidableEq, Repr

/-- An entry of SHARDS (R289). -/
structure ShardEnt where
  bytes : Nat
  kind : Nat
  dies : BitVec 16
  plates : Nat
  ref : Nat
  digest : List Byte
  deriving DecidableEq, Repr

/-- An entry of QSLOTS (R173, R289). -/
structure QSlotEnt where
  die : Nat
  core : Nat
  slot : Nat
  fmt : Nat
  gran : Nat
  depth : Nat
  qsTol : Nat
  policy : Nat
  group : Nat
  cols : Nat
  codes : Nat
  scale : Nat
  hist : Nat
  spill : Nat
  spillBytes : Nat
  deriving DecidableEq, Repr

/-- An entry of PROGRAMS (R289) with the instructions it names. -/
structure ProgEnt where
  die : Nat
  core : Nat
  prog : Nat
  code : List W64
  deriving DecidableEq, Repr

/-- An entry of BINDINGS (R289). -/
structure BindEnt where
  stream : Nat
  die : Nat
  source : Nat
  spb : Nat
  task : Nat
  layer : Nat
  land : Nat
  slots : Nat
  pitch : Nat
  deriving DecidableEq, Repr

/-- A manifest: the flacon header (R286) and its tables (R287). -/
structure Manifest where
  format : Nat
  flags : Nat
  target : Nat
  id : W32
  version : W32
  manBytes : Nat
  sigBytes : Nat
  baseId : W32
  baseVersion : W32
  shardCount : Nat
  slowBytes : Nat
  tasks : List TaskEnt
  layers : List LayerRec
  cores : List CoreEnt
  plates : List PlateEnt
  cons : List ConsEnt
  shards : List ShardEnt
  qslots : List QSlotEnt
  progs : List ProgEnt
  binds : List BindEnt
  caps : List (Nat × Nat)
  deriving DecidableEq, Repr

/-- Where one shard of a session stands (R297 to R299): the dies that keep a verified replica, those on which it is
programmed, those that reported PROGRAM_FAIL, those whose replica is DRIFTED, and, for KIND 1, whether it is stored. -/
structure ShardSt where
  kept    : BitVec 16
  failed  : BitVec 16
  drifted : BitVec 16
  stored  : Bool
  deriving DecidableEq, Repr

/-- The states of a session slot (R292). -/
inductive SlotSt where
  | empty | loading | activating | active | retiring
  deriving DecidableEq, Repr

/-- A session slot (R292 to R310). `areas` holds the formats of each slow-tier layer's weight area, once its shard has been stored: 1 +
IN_FMT + 256 × W_FMT + 65,536 × OUT_FMT (R328). -/
structure Slot where
  st       : SlotSt
  man      : Manifest
  digest   : List Byte
  shards   : Tab ShardSt
  tasks    : List Nat
  epoch    : W32
  actReq   : Option Nat
  retReq   : Option Nat
  target   : Nat
  actAt    : Nat
  arrival  : Nat
  prepared : Option Nat
  judged   : Bool
  actT     : Nat
  missing  : Nat
  suspends : Bool
  drained  : Bool
  progFail : Bool
  timedOut : Bool
  slowAt   : Nat
  areas    : Tab Nat
  ctrs     : List (Nat × Nat)
  bases    : List (Nat × Nat)
  wear     : Tab Nat
  base     : Nat
  deriving DecidableEq, Repr

/-- A SHARD whose payload is staged in the device area and awaits its dies (R297, R298). -/
structure Staging where
  req    : Nat
  slot   : Nat
  shard  : Nat
  repair : Bool
  need   : BitVec 16
  sent   : Bool
  wait   : BitVec 16
  bad    : BitVec 16
  data   : List Byte
  deriving DecidableEq, Repr

/-! ### Engines and plates -/

/-- A step that FETCH staged at an engine (R188): its layer work, row, K-slice, N-tile, plate and input codes. -/
structure Step where
  run   : Nat
  row   : Nat
  ks    : Nat
  nt    : Nat
  plate : Nat
  x     : List Int
  deriving DecidableEq, Repr

/-- One finished read of a part: its 64 codes, the reference codes, and the coefficients in force when it began (R79,
R107, R170). -/
structure ReadRes where
  codes : List Meas
  refs  : List Meas
  offs  : List Int
  gains : List Nat
  deriving DecidableEq, Repr

/-- A part of a step (R81 to R84): its rows, range, depth in the order of R84, reads wanted, and reads taken. -/
structure PartSt where
  step  : Nat
  lo    : Nat
  cnt   : Nat
  range : Nat
  depth : Nat
  want  : Nat
  reads : List ReadRes
  deriving DecidableEq, Repr

/-- A read that integrates or converts (R69): its part, start, the tolerance, the limit and the coefficients in force, the remap
entries of its plate, the charge differences of the ten pairs of each group in its capacitor bank, reference codes once
converted, and whether its confidence check failed. -/
structure Flight where
  part   : Nat
  start  : Int
  tol    : Nat
  lim    : Nat
  offs   : List Int
  gains  : List Nat
  remap  : W32
  charge : List Int
  refs   : Option (List Meas)
  failed : Bool
  first  : Bool
  deriving DecidableEq, Repr

/-- A step in progress: the parts of it still open, and the finished contributions of the others by first row, with
their saturation marks (R79, R84). -/
structure StepRun where
  step  : Step
  left  : Nat
  done  : List (Nat × List Int × List Bool)
  deriving DecidableEq, Repr

/-- Coefficients of a converter group with its check counters (R101, R106, R108, R120), and whether its last
confidence-caused calibration was accepted with no block below the limit since (R109). -/
structure Coef where
  gainCal : Nat
  gain    : Nat
  off     : Int
  failed  : Nat
  checked : Nat
  cured   : Bool
  deriving DecidableEq, Repr

/-- Why an engine is due (R108, coded as R120). -/
inductive Cause where
  | none | confidence | temperature | bringUp | host | period
  deriving DecidableEq, Repr

/-- A program or touch-up job of an engine (R124, R148): the plate, its owner and place, its target codes, whether it is
the retry of R129, whether it touches up the reference pairs alone (R145), and, outside a session, the sweep pass (odd) or
repair (even) that it belongs to. -/
structure Job where
  plate   : Nat
  slot    : Nat
  shard   : Nat
  inShard : Nat
  codes   : List Int
  touch   : Bool
  retry   : Bool
  refOnly : Bool
  tag     : Nat
  deriving DecidableEq, Repr

/-- Where the programming of a plate stands (R124 to R129): attempt and segment of the erase, row and pulse of the row
operation, the cells inhibited and failed, the groups' spares, the rows still to reprogram on a spare, the failed cells of
the row's groups that are still to be served, and, after an abort, the cells that are touched up (R150). A touch-up in
progress (R148) stands here too, as its job says. -/
structure Prog where
  job     : Job
  attempt : Nat
  seg     : Nat
  erased  : Bool
  row     : Nat
  pulse   : Nat
  inhibit : List Nat
  fails   : List Nat
  remap   : W32
  spareGo : List (Nat × Nat)
  left    : List Nat
  touched : List Nat
  aborted : Bool
  deriving DecidableEq, Repr

/-- An engine: selector, banks, steps, parts and reads (R66 to R91), coefficients and calibration state (R100 to R120),
programming (R124 to R133, R148) and sweep position (R142). `charged` is the TB microsecond, plus one, for which its write
operation was last charged (R372), `calDone` the calibration reads taken before the last that had to wait (R104), and `calSlots` those
that DIE_SLOTS has counted (R385). -/
structure Engine where
  sel      : Nat
  freeAt   : Nat
  staged   : List Step
  steps    : Tab (Option StepRun)
  parts    : Tab (Option PartSt)
  nextId   : Nat
  pend     : List (Nat × Nat)
  flights  : List Flight
  coef     : List Coef
  due      : Bool
  stale    : Bool
  never    : Bool
  cause    : Cause
  dueAt    : Nat
  confGrp  : List Nat
  rejects  : Nat
  calTb    : Nat
  calFrom  : Nat
  calTemp  : Int
  calPlate : Nat
  calBegin : Nat
  calEnd   : Option Nat
  calDone  : Nat
  calSlots : Nat
  calDirty : Bool
  jobs     : List Job
  prog     : Option Prog
  charged  : Nat
  swRow    : Nat
  swLow    : Nat
  swData   : Nat
  swMin    : Nat
  swRef    : Bool
  swCodes  : List Int
  deriving DecidableEq, Repr

/-- The states of a plate (R157). -/
inductive PlateSt where
  | free | programming | valid | unverified | drifted | incomplete | bad
  deriving DecidableEq, Repr

/-- A plate-map entry (R157), with the TB of its last program or touch-up and its last examination; `ref` says that it holds a
programmed reference pair (R105). -/
structure Plate where
  st      : PlateSt
  owner   : Nat
  inShard : Nat
  shard   : Nat
  remap   : W32
  tb      : Nat
  lowFlag : Bool
  low     : Nat
  minM    : Nat
  ref     : Bool
  deriving DecidableEq, Repr

/-- A bank's wear (R134 to R136), the session slots, and the sweep passes and repairs by reprogram and by touch-up, for which it
has been charged. -/
structure Bank where
  wear    : Nat
  session : List Nat
  pass    : List Nat
  touch   : List Nat
  deriving DecidableEq, Repr

/-- An engine's coefficients as the SLC region or the retention store keeps them (R112, R368). -/
structure Saved where
  gains : List Nat
  offs  : List Int
  tb    : Nat
  temp  : Int
  plate : Nat
  deriving DecidableEq, Repr

/-- A plate that a sweep has examined, while its replica is not examined whole (R144, R145): its place, its low-margin data
and spare pairs, whether its reference pair asks for a touch-up, and its codes. -/
structure SweepEnt where
  slot    : Nat
  shard   : Nat
  inShard : Nat
  plate   : Nat
  low     : Nat
  refBad  : Bool
  codes   : List Int
  deriving DecidableEq, Repr

/-- A sweep pass of a die (R140 to R147), with the number of passes and repairs begun, the plates that await examination, those of the
pass and those of them that it has examined, the replicas to examine after a repair (R149), and the statistics of the last
pass (R154). -/
structure Sweep where
  active  : Bool
  seq     : Nat
  cause   : Nat
  passes  : Nat
  todo    : List Nat
  plates  : List Nat
  done    : List Nat
  total   : Nat
  reqs    : List Nat
  exam    : Nat
  low     : Nat
  minM    : Nat
  drift   : Nat
  hist    : List Nat
  buf     : List SweepEnt
  repair  : List (Nat × Nat)
  since   : Nat
  lastTb  : Nat
  lExam   : Nat
  lLow    : Nat
  lMin    : Nat
  lDrift  : Nat
  lHist   : List Nat
  deriving DecidableEq, Repr

/-- The states of a die (R384, PWR_DIE_STATE). -/
inductive DieSt where
  | on | gated | supplyReset | thermalOff | leftOut | notPresent | skipped
  deriving DecidableEq, Repr

/-- A die of the array with its power, thermal, governor, supply and sweep state. `up` says that its bring-up has ended,
so that its pages answer; `proto` is what an unlisted engine of the die reads as; `hkNext` is the TB of the next
housekeeping round, once a first one has run; `fell` says that the die fell back to its SLC region on a return from NAP or SLEEP (R368);
`govUs` is the TB microsecond of the slot count, and `tickUs` the last whose waiting charges were
granted. -/
structure Die where
  proto    : Engine
  st       : DieSt
  up       : Bool
  online   : Bool
  lastTemp : Int
  temps    : List Int
  hkNext   : Option Nat
  hot      : Bool
  rise     : Bool
  trips    : Nat
  slope    : Int
  restart  : Bool
  lostBy   : Nat
  govUs    : Nat
  tickUs   : Nat
  used     : Nat
  waited   : Bool
  rotor    : Nat
  warn     : BitVec 2
  holdTill : Option Nat
  resetsAt : List Int
  drift    : List (Nat × Nat)
  driftOv  : Bool
  sweep    : Sweep
  savedAt  : Int
  retained : Bool
  fell     : Bool
  deriving DecidableEq, Repr

/-! ### Cores -/

/-- A running vector program: the layer work, tile and row it serves (no tile for an end program), and the bounds of its
instructions in the program store (R169, R191, R192). -/
structure VRun where
  run   : Nat
  tile  : Option Nat
  row   : Nat
  first : Nat
  count : Nat
  deriving DecidableEq, Repr

/-- A level of LOOP (R167): first instruction of the body, the one after it, and repetitions left. -/
structure LoopSt where
  start : Nat
  stop  : Nat
  left  : Nat
  deriving DecidableEq, Repr

/-- An accumulator tile in use (R189 to R191): its layer work, allocation unit, block and N-tile, the contributions still
to come, whether it is in the queue to DRAIN or taken from it, and the row that DRAIN has reached. -/
structure Tile where
  run     : Nat
  unit    : Nat
  mb      : Nat
  nt      : Nat
  left    : Nat
  queued  : Bool
  taken   : Bool
  row     : Nat
  deriving DecidableEq, Repr

/-- A core: vector registers by 64 × register + lane, masks and scalars (R163), its program in progress and whether one
instruction may issue although it is halted (R408), the queues of
FETCH and DRAIN, and its accumulator tiles (R187 to R193). -/
structure Core where
  v        : Tab W32
  m        : Tab W64
  sc       : Tab W32
  pc       : Nat
  vrun     : Option VRun
  loops    : List LoopSt
  step     : Bool
  fetchQ   : List (Nat × List Nat)
  drainQ   : List Nat
  tiles    : Tab (Option Tile)
  peak     : Nat
  deliver  : List (Nat × Nat × Nat)
  waitDel  : Bool
  heldOut  : List (Nat × Nat × Nat)
  deriving DecidableEq, Repr

/-- A member's post of a pass (R178): the core it goes to or comes from, the request, the amax of each scale, the reset mark, and the
scales of which the member holds elements. -/
structure Post where
  core  : Nat
  pass  : Nat
  amax  : List W32
  reset : Bool
  has   : List Bool
  deriving DecidableEq, Repr

/-- A quantiser slot of a core (R173 to R179): its configuration, the history of each scale (newest last) as it stood at the last pass
start or end, which the SRAM holds too, the passes ended; whether a pass runs and for which request, its local amax, elements and saturated elements by scale; whether its
posts have gone out, the posts still on their way, those received, whether it has waited
for some, and the later requests whose wait for their pass to begin has been counted; and whether the history is to be emptied at the next pass start, and was emptied while the group kept its own. -/
structure QSlot where
  cfg     : QSlotEnt
  hist    : Tab (List W32)
  passes  : Nat
  isOpen  : Bool
  req     : Nat
  amax    : Tab W32
  elems   : Tab Bool
  satN    : Tab Nat
  posted  : Bool
  sent    : List Post
  posts   : List Post
  waited  : Bool
  startWait : List Nat
  clear   : Bool
  lost    : Bool
  deriving DecidableEq, Repr

/-- A shared counter (R202). -/
structure Ctr where
  tag   : BitVec 16
  next  : Nat
  limit : Nat
  idle  : Bool
  deriving DecidableEq, Repr

/-- An allocation unit granted to a layer work and not yet stepped through (R189): its blocks, its N-tiles, and the steps
still to be passed to STEP. -/
structure AUnit where
  blocks : List Nat
  nts    : List Nat
  left   : Nat
  deriving DecidableEq, Repr

/-- The work of one layer of an issued request on one core set of a die, or, for a slow-tier layer, on the slow-tier unit
(R187 to R194, R201, R328): the request, its session slot, the place of the layer record in the manifest, the set, the
rows; the blocks not yet grouped and whether no more will come; the steps left of each block of the set's share so far;
the input tiles landed by block; the units granted, the steps broadcast to each engine within them, and the N-tile phases
still to come of the group in progress under N_OUTER; the waits in progress; the cores whose end program has ended; and
the input bytes of a slow-tier layer. -/
structure Run where
  req     : Nat
  slot    : Nat
  layer   : Nat
  set     : Nat
  rows    : Nat
  pool    : List Nat
  spent   : Bool
  left    : Tab Nat
  landed  : Tab Nat
  units   : List AUnit
  nUnit   : Nat
  cursor  : Tab Nat
  phaseBs : List Nat
  phases  : List Nat
  feedWait : Bool
  accWait : Bool
  readyWait : Bool
  claimWait : Bool
  ended   : List Nat
  slowIn  : Tab Byte
  deriving DecidableEq, Repr

/-- Input of a task's first layer that comes from a stream's frame or from an earlier task's request (R193, R250, R289,
R304): the session slot and layer record it is for, the stream (32 for an earlier task), the TB of the frame start or the
producing request, the stripes or tiles landed by block, for a slow-tier layer their bytes, the request that consumes it, and
whether the fabric has lost some of it (R319). -/
structure Feed where
  slot  : Nat
  layer : Nat
  src   : Nat
  key   : Nat
  got   : Tab Nat
  mem   : Tab Byte
  taken : Option Nat
  lost  : Bool
  deriving DecidableEq, Repr

/-- What lands where a transfer arrives (R192, R193, R250): an input tile of a block for a layer record, with the request that produced
it, whether that request also consumes it, and its rows; rows of a request's output, for the Pavilion to write; or a stripe of
a stream for a bound layer, with its lines. -/
inductive Cargo where
  | tile (req slot layer mb nt : Nat) (own : Bool) (rows : List (Nat × List Byte))
  | out (req slot layer outEb mb nt : Nat) (rows : List (Nat × List Byte))
  | stripe (stream : Nat) (due : StripeDue) (slot layer : Nat) (lines : List (List Byte))
  deriving DecidableEq, Repr

/-- What is still on its way to a destination, a die or 16 for the Pavilion, in a transfer (R317). -/
structure Landing where
  xfer  : Nat
  die   : Nat
  cargo : Cargo
  deriving DecidableEq, Repr

/-- An output tile of the slow-tier unit: its layer work, block, N-tile, and its rows in order. -/
structure SlowTile where
  run  : Nat
  mb   : Nat
  nt   : Nat
  rows : List (List Byte)
  deriving DecidableEq, Repr

/-- The slow-tier unit (R328, R330): the layer work begun and not at its end, the blocks whose inputs are ready, in the order in which they
became so, and the output tiles that await delivery. -/
structure SlowUnit where
  now   : Option Nat
  queue : List (Nat × Nat)
  out   : List SlowTile
  deriving DecidableEq, Repr

/-! ### Trellis and package memory -/

/-- A torus link or hub port (R316 to R320, R331). -/
structure Link where
  st      : BitVec 2
  ver     : BitVec 4
  crc     : W32
  replay  : W32
  stall   : W32
  fails   : Nat
  retrain : Nat
  deriving DecidableEq, Repr

/-- The classes of packets, in their order of priority (R317). -/
inductive Cls where
  | sync | ctrl | data
  deriving DecidableEq, Repr

/-- A fork of a packet's way (R322): the link that leads to it, none at the source, the links that it takes together, and the flits
sent on so far. A link is named by its index at the sending die (R331), and from the Pavilion to hub die d by 80 + d. -/
structure Branch where
  up   : Option Nat
  outs : List Nat
  sent : Nat
  deriving DecidableEq, Repr

/-- Packets on their way from one source unit, 16 for the Pavilion, to one or more destinations (R316 to R322): their class, their
flits in all, the transfer that they carry, if any, and the tree of forks that they follow, a fork after the one that leads to
it. -/
structure Flow where
  cls   : Cls
  src   : Nat
  dests : List Nat
  flits : Nat
  xfer  : Option Nat
  tree  : List Branch
  deriving DecidableEq, Repr

/-- An outstanding transfer: its source (16 for the Pavilion), the destinations that have not acknowledged it, and the
request it serves (R321). -/
structure Xfer where
  src  : Nat
  dest : List Nat
  req  : Option Nat
  deriving DecidableEq, Repr

/-! ### Sillage -/

/-- A Sillage template (R336). -/
structure Tpl where
  cfg     : W32
  startLo : W32
  startHi : W32
  len     : W32
  ref     : W32
  deriving DecidableEq, Repr

/-- One result of a unit's log (R345). -/
structure LogEnt where
  tpl     : Nat
  outcome : Nat
  seq     : BitVec 16
  value   : W32
  other   : W32
  tbEnd   : W32
  deriving DecidableEq, Repr

/-- A Sillage unit (R333, R345): its queue of templates, each with the latest ended frame of every stream when it was
queued (R343), the running job with the frame that a FRAME job checks and the template it read, whether its image was
written meanwhile, and its log. -/
structure SilUnit where
  queue : List (Nat × Tab (BitVec 16))
  run   : Option (Nat × BitVec 16 × Tpl)
  dirty : Bool
  lastTpl : Nat
  seq   : BitVec 16
  log   : Tab LogEnt
  deriving DecidableEq, Repr

/-! ### The illuminator and sense unit -/

/-- A strobe output at the pin: level, rise, planned end, and the high intervals that its duty window still sees (R346,
R347). An instant of the past is an integer: a load of TB may put it before 0 (R216). -/
structure Strobe where
  high  : Bool
  rise  : Int
  until_ : Int
  past  : List (Int × Int)
  deriving DecidableEq, Repr

/-- An interlock watch (R348, R350): its count, its latest examined code, and whether a result since the trip has been
examined, and whether the latest had OVR at 0. -/
structure Watch where
  count : Nat
  last  : BitVec 16
  seen  : Bool
  inLim : Bool
  deriving DecidableEq, Repr

/-- A setpoint output (R352, R353): its active code, the end of a ramp in progress, whether a load is held until then,
whether the pin is driven, and live SC or OPEN (R354). -/
structure Dac where
  code   : BitVec 16
  ramp   : Option Nat
  held   : Bool
  driven : Bool
  scLive : Bool
  opLive : Bool
  deriving DecidableEq, Repr

/-- A triggered conversion sequence (R356): its number, slots still to convert, the earliest start, and whether its first
conversion has begun. -/
structure Seq where
  seq   : Nat
  chans : List Nat
  at_   : Int
  begun : Bool
  deriving DecidableEq, Repr

/-- What a converter is converting (R357). -/
inductive ConvKind where
  | regular | injected | plaus | cal
  deriving DecidableEq, Repr

/-- A converter (R356 to R359): the running and pending sequence of each kind, the conversion in progress with its channel
and start, the plausibility pairs still to take (channel and sequence; kept at converter A), the result of its half of a
pair, and its data register. -/
structure Conv where
  reg     : Option Seq
  regNext : Option Seq
  inj     : Option Seq
  injNext : Option Seq
  busy    : Option (ConvKind × Nat × Int)
  plaus   : List (Nat × Nat)
  half    : Option Meas
  data    : W32
  deriving DecidableEq, Repr

/-- Coefficients of a converter and channel pair (R360). -/
structure CalCoef where
  valid : Bool
  sz    : Nat
  d     : Int
  zt    : Nat
  ft    : Nat
  deriving DecidableEq, Repr

/-- A calibration command in progress (R361, R362): its kind (1 zero, 2 full scale), converter, channel, and whether it
waits for injected work. -/
structure CalCmd where
  cmd  : Nat
  conv : Nat
  ch   : Nat
  wait : Bool
  deriving DecidableEq, Repr

/-- The ISU (R346 to R362). -/
structure Isu where
  stb     : Tab Strobe
  tripped : Bool
  byPlaus : Bool
  watchNo : BitVec 2
  watch   : Tab Watch
  dac     : Tab Dac
  conv    : Tab Conv
  chLast  : Tab W32
  cal     : Option CalCmd
  calRes  : Nat
  zeroSum : Tab (Option Nat)
  deriving DecidableEq, Repr

/-! ### Power, security, boot and test port -/

/-- The power states (R53, R367). -/
inductive PState where
  | run | ready | doze | nap | sleep | vigil
  deriving DecidableEq, Repr

/-- The power supervisor (R366 to R376): the state, a deeper state whose entry waits, the state that an exit under way leads to, the live
supply warnings, whether D3 is off, whether SYSCLK is absent and the supply below its reset level, each of which holds the module in
reset, the reset that acts once an exit
has ended (3 PERST#, 4 hot reset, 5 FLR), the Pavilion's own temperature condition and the TB of its diode's next reading, the TB
at which the module last left RUN, and the digest of the image last verified (R417). -/
structure Pwr where
  st      : PState
  entry   : Option PState
  exitTo  : Option PState
  live    : BitVec 5
  d3off   : Bool
  noClk   : Bool
  resetBy : Option Supply
  resetAfter : Nat
  pavHot  : Bool
  pavNext : Option Nat
  ranAt   : Int
  digest  : Option (List Byte)
  deriving DecidableEq, Repr

/-- The module is held in reset: SYSCLK is absent, or a supply is below its reset level (R376, R427, R433). -/
def Pwr.held (p : Pwr) : Bool := p.noClk || p.resetBy.isSome

/-- A shutdown record (R381). -/
structure ShutRec where
  tb    : Nat
  die   : Nat
  cause : Nat
  temp  : Int
  slope : Int
  deriving DecidableEq, Repr

/-- A key slot of the fuses (R387, R388). -/
structure KeySlot where
  st   : BitVec 2
  hash : List Byte
  deriving DecidableEq, Repr

/-- The fuses (R387): key slots 0 and 1 are Odfen A and B, 2 to 5 the owner slots. -/
structure Otp where
  keys   : Tab KeySlot
  fw     : Nat
  ucode  : Nat
  flacon : Nat
  deriving DecidableEq, Repr

/-- A firmware image of the NV store (R393): the bytes of its two components with their signature blocks. -/
structure Image where
  bytes   : List Byte
  fwSvn   : Nat
  ucSvn   : Nat
  version : BitVec 24
  fwHash  : List Byte
  ucHash  : List Byte
  ok      : Bool
  deriving DecidableEq, Repr

/-- The non-volatile store (R303, R308, R326, R360, R371, R381, R395, R398, R412, R413). -/
structure Nv where
  epoch     : W32
  saved     : Tab Slot
  suspended : List Nat
  profile   : BitVec 2
  slowSize  : BitVec 6
  logs      : List ShutRec
  newLogs   : Nat
  isuCoef   : Tab CalCoef
  imageA    : Image
  imageB    : Image
  prefer    : Bool
  failRun   : Nat
  begun     : Nat
  ended     : Nat
  die       : Option Nat
  noImage   : Bool
  skip      : BitVec 16
  ddrStored : Bool
  lastImg   : Bool
  lastPref  : Bool
  lmsNext   : Nat
  cert      : List Byte
  deriving DecidableEq, Repr

/-- The security block (R400 to R404): the debug level, the challenge, whether a command runs, and how the last one ended. -/
structure Sec where
  level  : BitVec 2
  busy   : Bool
  chal   : Option (List Byte)
  result : BitVec 2
  reason : BitVec 8
  deriving DecidableEq, Repr

/-- The start-up sequence (R410 to R417): the step begun and ended, its begin instant, whether it is running, the image
chosen, whether this is safe boot, and what the start found. `mapUp` says that step 0x0A of a start has restored the plate maps, and
`startAt` is the instant at which the start began. -/
structure Boot where
  begun    : Nat
  ended    : Nat
  stepAt   : Int
  startAt  : Int
  mapUp    : Bool
  active   : Bool
  imageB   : Bool
  safe     : Bool
  ready    : Bool
  cause    : Nat
  prevFail : Bool
  prevDie  : Nat
  prevEnd  : Nat
  prevBeg  : Nat
  fallback : Bool
  calStored : Bool
  ddrFull  : Bool
  noDdr    : Bool
  shutdowns : Nat
  vigil    : Bool
  prefPrev : Bool
  relink   : Option Int
  rstLast  : BitVec 4
  rstCount : BitVec 16
  deriving DecidableEq, Repr

/-- The data registers of the test access port (R436). -/
inductive TapReg where
  | boundary | identity | bypass | debug
  deriving DecidableEq, Repr

/-- The test access port (R436, R437): the instruction in force, the data register that it selects, what that register last
captured, one bit per cell in the order of R429 from bit 0 for the boundary register, and whether the pins' own drive is
suspended. -/
structure Tap where
  ir        : BitVec 5
  reg       : TapReg
  data      : BitVec 32
  suspended : Bool
  deriving DecidableEq, Repr

/-- A sticky event of the running command: the page, the bit of PAGE_STICKY and the code of PAGE_FIRST (R30 to R33). -/
structure Ev where
  page : Nat
  bit  : Nat
  code : Nat
  deriving DecidableEq, Repr

/-- The module. `suspended` holds the tasks suspended now, which the NV record keeps from its last write (R308), and `applied` the
requests of activations applied since (R303). `evq` holds the sticky events of the running command and is empty between commands; `flows` holds the packets under way, by class
and age, and `flitAt` the place of the present nanosecond in the five in which a link sends four flits (R316); `free` counts the
free values drawn; `pending` is the queue of waiting commands, first in first out. -/
structure State where
  part     : Part
  regs     : Tab W32
  hiShadow : Tab W32
  loStage  : Tab (Option W32)
  evq      : List Ev
  bus      : Bus
  belv     : Belv
  entries  : Tab Entry
  groups   : Tab Group
  wins     : Tab (Option Window)
  nextWin  : Nat
  streams  : Tab Stream
  lp11     : Tab Bool
  ingest   : Tab Byte
  rings    : Tab Ring
  rr       : Tab Nat
  reqs     : Tab (Option Req)
  nextReq  : Nat
  launches : Tab Nat
  taskRuns : Tab Nat
  sums     : Tab W64
  hostMem  : Tab Byte
  slots    : Tab Slot
  prov     : Tab Nat
  epoch    : W32
  suspended : List Nat
  applied  : List Nat
  staging  : List Staging
  engines  : Tab Engine
  plates   : Tab Plate
  weights  : Tab Byte
  banks    : Tab Bank
  slc      : Tab Saved
  retain   : Tab Saved
  dies     : Tab Die
  cores    : Tab Core
  coreMem  : Tab Byte
  progs    : Tab (Option W64)
  qslots   : Tab (Option QSlot)
  ctrs     : Tab Ctr
  runs     : Tab (Option Run)
  nextRun  : Nat
  feeds    : List Feed
  slow     : SlowUnit
  links    : Tab Link
  xfers    : Tab (Option Xfer)
  nextXfer : Nat
  flows    : List Flow
  landing  : List Landing
  flitAt   : Nat
  pkgMem   : Tab Byte
  poison   : Tab Bool
  scrubAt  : Int
  units    : Tab SilUnit
  tpls     : Tab Tpl
  isu      : Isu
  pwr      : Pwr
  otp      : Otp
  nv       : Nv
  sec      : Sec
  boot     : Boot
  tap      : Tap
  free     : Nat
  pending  : List Instr
  deriving DecidableEq, Repr

/-! ### What an unlisted key of each table reads as, and the state after power-on reset -/

def Entry.zero : Entry :=
  { d0 := 0, d1 := 0, d2 := 0, d3 := 0, pend := none, lastLate := false, lastSkip := false, fires := 0, armed := false, next := 0 }

def Group.zero : Group := { members := [], joining := [], held := none, after := [], last := 0 }

def Stream.zero : Stream :=
  { frame := 0, line := 0, stamp := 0, endStamp := 0, isOpen := false, lines := 0, bad := 0, emb := 0, flags := 0, bitmap := [],
    badLines := [], clipLines := [], rateLines := [], dropAt := none, pendLine := none, bound := [], due := [], buf := 0,
    lastEnd := none, watchAt := 0, lost := false, frozen := false, counter := none, sig := none, startTb := 0, endFrame := none,
    embSlots := [] }

def Desc.zero : Desc :=
  { opc := 0, flags := 0, task := 0, seq := 0, epoch := 0, trigger := 0, acc := 0, policy := 0, inAddr := 0, outAddr := 0,
    auxAddr := 0, lenM := 0, param := 0, lenAddr := 0, deadline := 0, rsv := 0 }

def Ring.zero : Ring :=
  { st := .disabled, tail := 0, sqHead := 0, cqHead := 0, cqTail := 0, inflight := 0, alive := 0, records := 0, dbErr := 0,
    posted := [], headDue := false, sumDue := false }

def Manifest.zero : Manifest :=
  { format := 0, flags := 0, target := 0, id := 0, version := 0, manBytes := 0, sigBytes := 0, baseId := 0, baseVersion := 0,
    shardCount := 0, slowBytes := 0, tasks := [], layers := [], cores := [], plates := [], cons := [], shards := [], qslots := [], progs := [],
    binds := [], caps := [] }

def ShardSt.zero : ShardSt := { kept := 0, failed := 0, drifted := 0, stored := false }

def Slot.zero : Slot :=
  { st := .empty, man := Manifest.zero, digest := [], shards := [], tasks := [], epoch := 0, actReq := none, retReq := none,
    target := 0, actAt := 0, arrival := 0, prepared := none, judged := false, actT := 0, missing := 0, suspends := false,
    drained := false, progFail := false, timedOut := false, slowAt := 0, areas := [], ctrs := [],
    bases := [], wear := [], base := 0 }

/-- A group's coefficients as production left them and as the CAL1 page reads before bring-up (R120). -/
def Coef.zero : Coef := { gainCal := 0x4000, gain := 0x4000, off := 0, failed := 0, checked := 0, cured := false }

/-- An engine with the coefficients of production, whose trim was at 25 °C (R105, the example). -/
def Engine.zero : Engine :=
  { sel := 0, freeAt := 0, staged := [], steps := [], parts := [], nextId := 0, pend := [], flights := [],
    coef := List.replicate 8 Coef.zero, due := false, stale := false, never := false, cause := .none, dueAt := 0, confGrp := [],
    rejects := 0, calTb := 0, calFrom := 0, calTemp := 400, calPlate := 0, calBegin := 0, calEnd := none, calDone := 0, calSlots := 0, calDirty := false, jobs := [], prog := none, charged := 0, swRow := 0,
    swLow := 0, swData := 0, swMin := 128, swRef := true, swCodes := [] }

def Plate.zero : Plate :=
  { st := .free, owner := 0, inShard := 0, shard := 0, remap := 0, tb := 0, lowFlag := false, low := 0, minM := 0x80, ref := false }

def Bank.zero : Bank := { wear := 0, session := [], pass := [], touch := [] }

/-- The coefficients that production stored, with the temperature of the production trim, 25 °C (R105, the example). -/
def Saved.zero : Saved := { gains := List.replicate 8 0x4000, offs := List.replicate 8 0, tb := 0, temp := 400, plate := 0 }

def Sweep.zero : Sweep :=
  { active := false, seq := 0, cause := 0, passes := 0, todo := [], plates := [], done := [], total := 0, reqs := [], exam := 0, low := 0, minM := 128,
    drift := 0, hist := List.replicate 8 0, buf := [], repair := [], since := 0, lastTb := 0, lExam := 0, lLow := 0, lMin := 128, lDrift := 0,
    lHist := List.replicate 8 0 }

/-- A die before its bring-up (R410, step 0x06). -/
def Die.zero : Die :=
  { proto := Engine.zero, st := .on, up := false, online := false, lastTemp := 0, temps := [], hkNext := none, hot := false, rise := false, trips := 0, slope := 0,
    restart := false, lostBy := 0, govUs := 0, tickUs := 0, used := 0, waited := false, rotor := 0, warn := 0, holdTill := none,
    resetsAt := [], drift := [], driftOv := false, sweep := Sweep.zero, savedAt := 0, retained := false, fell := false }

def Core.zero : Core :=
  { v := [], m := [], sc := [], pc := 0, vrun := none, loops := [], step := false, fetchQ := [], drainQ := [],
    tiles := [], peak := 0, deliver := [], waitDel := false,
    heldOut := [] }

/-- A counter after reset is IDLE (R202). -/
def Ctr.zero : Ctr := { tag := 0, next := 0, limit := 0, idle := true }

def SlowUnit.zero : SlowUnit := { now := none, queue := [], out := [] }

def Link.zero : Link := { st := 0, ver := 0, crc := 0, replay := 0, stall := 0, fails := 0, retrain := 0 }

def Tpl.zero : Tpl := { cfg := 0, startLo := 0, startHi := 0, len := 0, ref := 0 }

def LogEnt.zero : LogEnt := { tpl := 0, outcome := 0, seq := 0, value := 0, other := 0, tbEnd := 0 }

def SilUnit.zero : SilUnit := { queue := [], run := none, dirty := false, lastTpl := 0, seq := 0, log := [] }

def Strobe.zero : Strobe := { high := false, rise := 0, until_ := 0, past := [] }

def Watch.zero : Watch := { count := 0, last := 0, seen := false, inLim := false }

def Dac.zero : Dac := { code := 0, ramp := none, held := false, driven := false, scLive := false, opLive := false }

def Conv.zero : Conv :=
  { reg := none, regNext := none, inj := none, injNext := none, busy := none, plaus := [], half := none, data := 0 }

def CalCoef.zero : CalCoef := { valid := false, sz := 0, d := 0, zt := 0, ft := 0 }

def Isu.zero : Isu :=
  { stb := [], tripped := false, byPlaus := false, watchNo := 0, watch := [], dac := [], conv := [], chLast := [], cal := none,
    calRes := 0, zeroSum := [] }

def KeySlot.zero : KeySlot := { st := 0, hash := [] }

def Image.zero : Image :=
  { bytes := [], fwSvn := 0, ucSvn := 0, version := 0, fwHash := [], ucHash := [], ok := true }

/-- The non-volatile store of a part that has never started (DESIGN CHOICE, log 2). -/
def Nv.zero : Nv :=
  { epoch := 0, saved := [], suspended := [], profile := 2, slowSize := 0, logs := [], newLogs := 0, isuCoef := [],
    imageA := Image.zero, imageB := Image.zero, prefer := false, failRun := 0, begun := 0, ended := 0, die := none,
    noImage := false, skip := 0, ddrStored := false, lastImg := false, lastPref := false, lmsNext := 0, cert := [] }

/-- The fuses as the part ships: both Odfen slots ACTIVE, all owner slots EMPTY (R388). -/
def Otp.zero : Otp := { keys := [(0, { st := 1, hash := [] }), (1, { st := 1, hash := [] })], fw := 0, ucode := 0, flacon := 0 }

def Bus.zero : Bus := { status := .none, data := [], aer := [], linkUp := false, perst := true, perstAt := 0, flr := false, d3hot := false, bars := [], waiting := [] }

def Belv.zero : Belv :=
  { tb := 0, frac := 0, lock := false, holdover := false, good := 0, missed := 0, ptmOpen := false, ptmAt := 0, ppsAt := none,
    jump := false, offset := 0, rate := 0, skew := [], syncAt := 0, tbOut := false, outAt := none, fallAt := 0, judging := true,
    us := 0, issued := 0 }

def Pwr.zero : Pwr :=
  { st := .run, entry := none, exitTo := none, live := 0, d3off := false, noClk := false, resetBy := none, resetAfter := 0, pavHot := false, pavNext := none,
    ranAt := 0, digest := none }

def Sec.zero : Sec := { level := 0, busy := false, chal := none, result := 0, reason := 0 }

/-- Start-up after a power-on reset whose cause is that supplies were applied: step 0x01 has begun (R409, R410, R419). -/
def Boot.zero : Boot :=
  { begun := 1, ended := 0, stepAt := 0, startAt := 0, mapUp := false, active := true, imageB := false, safe := false, ready := false, cause := 1,
    prevFail := false, prevDie := 0, prevEnd := 0, prevBeg := 0, fallback := false, calStored := false, ddrFull := false,
    noDdr := false, shutdowns := 0, vigil := false, prefPrev := false, relink := none, rstLast := 1, rstCount := 0 }

/-- IDCODE is selected at power-on (R436): the device ID 0x0416 of TLQ16, stepping B0 and no manufacturer code (log 1). -/
def Tap.zero : Tap := { ir := 2, reg := .identity, data := 0x40416001, suspended := false }

/-- The part that the model builds (DESIGN CHOICE, log 1): R1 takes TLQ16 where no member is named. -/
def Part.built : Part :=
  { member := .tlq16, pavStep := 0xB0, dieStep := [], revision := 1, kt := [], vendorId := 0, jep106 := 0 }

/-- The module right after a power-on reset with supplies applied: TB 0, step 0x01 of the start-up begun, no die brought
up, PERST# asserted, every register at its reset value (R48, R214, R409, R410). -/
def State.reset : State :=
  { part := Part.built, regs := [], hiShadow := [], loStage := [], evq := [], bus := Bus.zero, belv := Belv.zero, entries := [],
    groups := [], wins := [], nextWin := 0, streams := [], lp11 := [], ingest := [], rings := [], rr := [], reqs := [], nextReq := 0,
    launches := [], taskRuns := [], sums := [], hostMem := [], slots := [], prov := [], epoch := 0, suspended := [], applied := [], staging := [], engines := [], plates := [],
    weights := [], banks := [], slc := [], retain := [], dies := [], cores := [], coreMem := [], progs := [], qslots := [],
    ctrs := [], runs := [], nextRun := 0, feeds := [], slow := SlowUnit.zero, links := [], xfers := [], nextXfer := 0, flows := [], landing := [], flitAt := 0, pkgMem := [], poison := [], scrubAt := 0,
    units := [], tpls := [], isu := Isu.zero, pwr := Pwr.zero, otp := Otp.zero, nv := { Nv.zero with begun := 1 },
    sec := Sec.zero, boot := Boot.zero, tap := Tap.zero, free := 0, pending := [] }

end Sys2Proof.Machine
end

