-- ==== Sys2Proof/Machine/RegTable.lean ====
section
/-! DEFINITION. The register maps of the block pages, from the field tables of the chapters: for each page kind, its
registers with the bits a write stores, the bits that LOCK protects, the value after reset, whether the register is the
LO of a 64-bit pair (R42), and whether it is shadowed (R44). -/

namespace Sys2Proof.Machine

open Sys2Proof

/-- The kinds of page (R18, R19), by the chapter that maps them. -/
inductive Kind where
  | sys | hsk | sec0 | sec1 | sec2 | sec3 | boot0 | blv0 | blv1
  | blv2 | blv3 | cam0 | cam1 | hdma0 | rng | flc0 | flc1 | trl0
  | mem0 | chk0 | chku | isu0 | isu1 | isu2 | pwr0 | die | hk
  | cal0 | cal1 | prg0 | prg1 | prg2 | prg3 | plm | core | seq
  | acc | vec | fetch | drain | cstat | cdbg
  deriving DecidableEq, Repr

/-- Registers of a page at offsets `first + step × k` for k below `cnt`: `wm` marks the bits that a write stores (RW and
RWL), `lm` the RWL bits among them, `rst` the value after reset of the bits that the register word keeps. -/
structure RegRow where
  first : Nat
  step  : Nat
  cnt   : Nat
  wm    : W32
  lm    : W32
  rst   : W32
  pair  : Bool
  shad  : Bool
  deriving DecidableEq, Repr

/-- SYS (R50, R51, R52, R53, R54). -/
def rowsSys : List RegRow :=
  [⟨0x40, 0, 1, 0, 0, 0, false, false⟩,
   ⟨0x44, 0, 1, 0, 0, 0, false, false⟩,
   ⟨0x48, 0, 1, 0, 0, 0, false, false⟩,
   ⟨0x4c, 0, 1, 0, 0, 0, false, false⟩,
   ⟨0x50, 0, 1, 0, 0, 0, false, false⟩,
   ⟨0x54, 0, 1, 0, 0, 0, false, false⟩,
   ⟨0x58, 4, 2, 0xffffffff, 0, 0, false, false⟩]

/-- HSK (R57). -/
def rowsHsk : List RegRow :=
  [⟨0x40, 0, 1, 0, 0, 0, false, false⟩,
   ⟨0x44, 0, 1, 0xf, 0, 0, false, false⟩,
   ⟨0x48, 0, 1, 0, 0, 0, true, false⟩,
   ⟨0x4c, 0, 1, 0, 0, 0, false, false⟩,
   ⟨0x50, 0, 1, 0xffffffff, 0, 0, true, false⟩,
   ⟨0x54, 0, 1, 0xffffffff, 0, 0, false, false⟩,
   ⟨0x58, 0, 1, 0, 0, 0, false, false⟩]

/-- SEC0 (R405). -/
def rowsSec0 : List RegRow :=
  [⟨0x40, 0, 1, 0, 0, 0, false, false⟩,
   ⟨0x44, 0, 1, 0, 0, 0, false, false⟩,
   ⟨0x48, 0, 1, 0, 0, 0, false, false⟩,
   ⟨0x4c, 0, 1, 0, 0, 0, false, false⟩,
   ⟨0x50, 0, 1, 0, 0, 0, false, false⟩,
   ⟨0x54, 4, 2, 0xffffffff, 0, 0, false, false⟩]

/-- SEC1 (R406). -/
def rowsSec1 : List RegRow :=
  [⟨0x40, 0, 1, 0xffffffff, 0, 0, true, false⟩,
   ⟨0x44, 0, 1, 0xffffffff, 0, 0, false, false⟩,
   ⟨0x48, 0, 1, 0xffffffff, 0, 0, false, false⟩,
   ⟨0x4c, 0, 1, 0, 0, 0, false, false⟩,
   ⟨0x50, 0, 1, 0, 0, 0, false, false⟩]

/-- SEC2 (R407). -/
def rowsSec2 : List RegRow :=
  [⟨0x40, 0, 1, 0xfff, 0, 0, false, false⟩,
   ⟨0x44, 0, 1, 0, 0, 0, false, false⟩,
   ⟨0x48, 0, 1, 0, 0, 0, false, false⟩]

/-- SEC3 (R406). -/
def rowsSec3 : List RegRow :=
  [⟨0x40, 0, 1, 0, 0, 0, false, false⟩,
   ⟨0x44, 4, 8, 0, 0, 0, false, false⟩]

/-- BOOT0 (R419). -/
def rowsBoot0 : List RegRow :=
  [⟨0x40, 0, 1, 0, 0, 0, false, false⟩,
   ⟨0x44, 0, 1, 0, 0, 0, false, false⟩,
   ⟨0x48, 0, 1, 0, 0, 0, false, false⟩,
   ⟨0x4c, 0, 1, 0, 0, 0, false, false⟩,
   ⟨0x50, 0, 1, 0, 0, 0, false, false⟩,
   ⟨0x54, 0, 1, 0, 0, 0, false, false⟩,
   ⟨0x58, 0, 1, 0, 0, 0, false, false⟩,
   ⟨0x5c, 0, 1, 0, 0, 0, true, false⟩,
   ⟨0x60, 0, 1, 0, 0, 0, false, false⟩,
   ⟨0x64, 0, 1, 0xffffffff, 0, 0, false, false⟩]

/-- BLV0 (R238). -/
def rowsBlv0 : List RegRow :=
  [⟨0x40, 0, 1, 0x3, 0, 0, false, false⟩,
   ⟨0x44, 0, 1, 0xff000003, 0x3, 0x10000000, false, false⟩,
   ⟨0x48, 0, 1, 0, 0, 0, true, false⟩,
   ⟨0x4c, 0, 1, 0, 0, 0, false, false⟩,
   ⟨0x50, 0, 1, 0, 0, 0, true, false⟩,
   ⟨0x54, 0, 1, 0, 0, 0, false, false⟩,
   ⟨0x58, 0, 1, 0, 0, 0, false, false⟩,
   ⟨0x5c, 0, 1, 0, 0, 0, false, false⟩,
   ⟨0x60, 0, 1, 0xffff, 0, 0x3e8, false, false⟩,
   ⟨0x64, 0, 1, 0xffffff, 0, 0x989680, false, false⟩,
   ⟨0x68, 0, 1, 0, 0, 0, false, false⟩,
   ⟨0x6c, 0, 1, 0, 0, 0, true, false⟩,
   ⟨0x70, 0, 1, 0, 0, 0, false, false⟩,
   ⟨0x74, 4, 7, 0xffffffff, 0, 0, false, false⟩]

/-- BLV1 (R239). -/
def rowsBlv1 : List RegRow :=
  [⟨0x40, 12, 32, 0, 0, 0, false, false⟩,
   ⟨0x44, 12, 32, 0, 0, 0, true, false⟩,
   ⟨0x48, 12, 32, 0, 0, 0, false, false⟩]

/-- BLV2 (R240). -/
def rowsBlv2 : List RegRow :=
  [⟨0x40, 0, 1, 0x7fff, 0, 0, false, false⟩,
   ⟨0x44, 4, 4, 0xffffffff, 0, 0, false, false⟩,
   ⟨0x54, 0, 1, 0, 0, 0, false, false⟩,
   ⟨0x58, 0, 1, 0, 0, 0, false, false⟩,
   ⟨0x5c, 0, 1, 0, 0, 0, true, false⟩,
   ⟨0x60, 0, 1, 0, 0, 0, false, false⟩,
   ⟨0x64, 0, 1, 0, 0, 0, false, false⟩]

/-- BLV3 (R241). -/
def rowsBlv3 : List RegRow :=
  [⟨0x40, 8, 16, 0xffffffff, 0, 0, false, false⟩,
   ⟨0x44, 8, 16, 0xfffff, 0, 0, false, false⟩,
   ⟨0xc0, 4, 16, 0xfff, 0, 0, false, false⟩,
   ⟨0x100, 4, 16, 0, 0, 0, false, false⟩,
   ⟨0x140, 0, 1, 0xffffffff, 0, 0, false, false⟩,
   ⟨0x144, 0, 1, 0xffffffff, 0, 0, false, false⟩]

/-- CAM0 (R254). -/
def rowsCam0 : List RegRow :=
  [⟨0x40, 0, 1, 0x7, 0, 0, false, false⟩,
   ⟨0x44, 4, 4, 0xffffffff, 0, 0, false, false⟩,
   ⟨0x60, 32, 4, 0x800008ff, 0, 0x2a, false, false⟩,
   ⟨0x64, 32, 4, 0xffffffff, 0, 0, false, false⟩,
   ⟨0x68, 32, 4, 0xf0ffffff, 0, 0, false, false⟩,
   ⟨0x6c, 32, 4, 0xffffffff, 0, 0x1f40000, false, false⟩,
   ⟨0x70, 32, 4, 0xffff, 0, 0, false, false⟩,
   ⟨0x74, 32, 4, 0xffffffff, 0, 0x4010000, false, false⟩,
   ⟨0x78, 32, 4, 0, 0, 0, false, false⟩]

/-- CAM1 (R255). -/
def rowsCam1 : List RegRow :=
  [⟨0x40, 48, 4, 0, 0, 0, false, false⟩,
   ⟨0x44, 48, 4, 0xffffffff, 0, 0, false, false⟩,
   ⟨0x48, 48, 4, 0xffffffff, 0, 0, false, false⟩,
   ⟨0x4c, 48, 4, 0xffffffff, 0, 0, false, false⟩,
   ⟨0x50, 48, 4, 0xffffffff, 0, 0, false, false⟩,
   ⟨0x54, 48, 4, 0xffffffff, 0, 0, false, false⟩,
   ⟨0x58, 48, 4, 0xffffffff, 0, 0, false, false⟩,
   ⟨0x5c, 48, 4, 0xffffffff, 0, 0, false, false⟩,
   ⟨0x60, 48, 4, 0xffffffff, 0, 0, false, false⟩,
   ⟨0x64, 48, 4, 0xffffffff, 0, 0, false, false⟩,
   ⟨0x68, 48, 4, 0xffffffff, 0, 0, false, false⟩,
   ⟨0x6c, 48, 4, 0, 0, 0, false, false⟩]

/-- HDMA0 (R283). -/
def rowsHdma0 : List RegRow :=
  [⟨0x40, 0, 1, 0xfffffc00, 0, 0, true, false⟩,
   ⟨0x44, 0, 1, 0xffffffff, 0, 0, false, false⟩,
   ⟨0x48, 0, 1, 0x7f, 0, 0, false, false⟩,
   ⟨0x4c, 0, 1, 0, 0, 0, true, false⟩,
   ⟨0x50, 0, 1, 0, 0, 0, false, false⟩,
   ⟨0x54, 0, 1, 0, 0, 0, false, false⟩,
   ⟨0x58, 0, 1, 0, 0, 0, true, false⟩,
   ⟨0x5c, 0, 1, 0, 0, 0, false, false⟩,
   ⟨0x60, 4, 4, 0xffffffff, 0, 0, false, false⟩]

/-- RNG (R285). -/
def rowsRng : List RegRow :=
  [⟨0, 64, 64, 0xc71f1f00, 0, 0x7000000, false, false⟩,
   ⟨0x4, 64, 64, 0xffff, 0, 0, false, false⟩,
   ⟨0x8, 64, 64, 0xffffffc0, 0, 0, true, false⟩,
   ⟨0xc, 64, 64, 0xffffffff, 0, 0, false, false⟩,
   ⟨0x10, 64, 64, 0xffffffc0, 0, 0, true, false⟩,
   ⟨0x14, 64, 64, 0xffffffff, 0, 0, false, false⟩,
   ⟨0x18, 64, 64, 0xfffffff8, 0, 0, true, false⟩,
   ⟨0x1c, 64, 64, 0xffffffff, 0, 0, false, false⟩,
   ⟨0x20, 64, 64, 0x3f7f, 0, 0, false, false⟩,
   ⟨0x24, 64, 64, 0, 0, 0, false, false⟩,
   ⟨0x28, 64, 64, 0, 0, 0, false, false⟩,
   ⟨0x2c, 64, 64, 0, 0, 0, false, false⟩,
   ⟨0x30, 64, 64, 0xffffffff, 0, 0, false, false⟩,
   ⟨0x34, 64, 64, 0, 0, 0, false, false⟩,
   ⟨0x38, 64, 64, 0, 0, 0, false, false⟩,
   ⟨0x3c, 64, 64, 0, 0, 0, false, false⟩]

/-- FLC0 (R312). -/
def rowsFlc0 : List RegRow :=
  [⟨0x40, 0, 1, 0xffff, 0, 0x2710, false, false⟩,
   ⟨0x44, 0, 1, 0, 0, 0, false, false⟩,
   ⟨0x48, 0, 1, 0, 0, 0, false, false⟩,
   ⟨0x4c, 0, 1, 0, 0, 0, false, false⟩,
   ⟨0x50, 0, 1, 0, 0, 0, false, false⟩,
   ⟨0x54, 0, 1, 0, 0, 0, false, false⟩,
   ⟨0x58, 0, 1, 0, 0, 0, false, false⟩,
   ⟨0x5c, 0, 1, 0, 0, 0, false, false⟩,
   ⟨0x60, 4, 16, 0, 0, 0, false, false⟩,
   ⟨0xa0, 4, 4, 0xffffffff, 0, 0, false, false⟩]

/-- FLC1 (R313). -/
def rowsFlc1 : List RegRow :=
  [⟨0x40, 0, 1, 0xf, 0, 0, false, false⟩,
   ⟨0x44, 0, 1, 0, 0, 0, false, false⟩,
   ⟨0x48, 4, 2, 0, 0, 0, false, false⟩,
   ⟨0x50, 0, 1, 0, 0, 0, false, false⟩,
   ⟨0x54, 0, 1, 0, 0, 0, false, false⟩,
   ⟨0x58, 4, 3, 0, 0, 0, false, false⟩,
   ⟨0x64, 0, 1, 0, 0, 0, true, false⟩,
   ⟨0x68, 0, 1, 0, 0, 0, false, false⟩]

/-- TRL0 (R331). -/
def rowsTrl0 : List RegRow :=
  [⟨0x40, 0, 1, 0x7f, 0, 0, false, false⟩,
   ⟨0x44, 0, 1, 0, 0, 0, false, false⟩,
   ⟨0x48, 4, 2, 0, 0, 0, false, false⟩,
   ⟨0x50, 0, 1, 0, 0, 0, false, false⟩,
   ⟨0x54, 4, 3, 0xffffffff, 0, 0, false, false⟩]

/-- MEM0 (R332). -/
def rowsMem0 : List RegRow :=
  [⟨0x40, 0, 1, 0x3f, 0, 0, false, false⟩,
   ⟨0x44, 0, 1, 0, 0, 0, false, false⟩,
   ⟨0x48, 4, 2, 0xffffffff, 0, 0, false, false⟩,
   ⟨0x50, 0, 1, 0, 0, 0, true, false⟩,
   ⟨0x54, 0, 1, 0, 0, 0, false, false⟩,
   ⟨0x58, 0, 1, 0, 0, 0, false, false⟩,
   ⟨0x5c, 0, 1, 0xffffffff, 0, 0, false, false⟩]

/-- CHK0 (R344). -/
def rowsChk0 : List RegRow :=
  [⟨0x40, 0, 1, 0, 0, 0, false, false⟩,
   ⟨0x44, 0, 1, 0xff, 0, 0, false, false⟩,
   ⟨0x48, 0, 1, 0xffffffff, 0, 0, false, false⟩,
   ⟨0x4c, 0, 1, 0xffffffff, 0, 0, true, false⟩,
   ⟨0x50, 0, 1, 0xffffffff, 0, 0, false, false⟩,
   ⟨0x54, 4, 2, 0xffffffff, 0, 0, false, false⟩,
   ⟨0x5c, 0, 1, 0, 0, 0, false, false⟩]

/-- CHKU (R345). -/
def rowsChku : List RegRow :=
  [⟨0x40, 0, 1, 0, 0, 0, false, false⟩,
   ⟨0x44, 4, 5, 0xffffffff, 0, 0, false, false⟩,
   ⟨0x80, 4, 64, 0, 0, 0, false, false⟩]

/-- ISU0 (R363). -/
def rowsIsu0 : List RegRow :=
  [⟨0x40, 0, 1, 0xf, 0xf, 0, false, false⟩,
   ⟨0x44, 0, 1, 0x3ff7ff, 0x3ff7ff, 0x643e8, false, false⟩,
   ⟨0x48, 0, 1, 0x3ff, 0x3ff, 0x64, false, false⟩,
   ⟨0x4c, 0, 1, 0xf10, 0xf10, 0, false, false⟩,
   ⟨0x50, 8, 4, 0x8ff0ffff, 0x8ff0ffff, 0x30ffff, false, false⟩,
   ⟨0x54, 8, 4, 0, 0, 0, false, false⟩,
   ⟨0x70, 4, 4, 0xffffffff, 0, 0, false, false⟩]

/-- ISU1 (R364). -/
def rowsIsu1 : List RegRow :=
  [⟨0x40, 0, 1, 0, 0, 0, false, false⟩,
   ⟨0x44, 0, 1, 0xffffffff, 0, 0, false, false⟩,
   ⟨0x50, 16, 4, 0x7, 0, 0, false, false⟩,
   ⟨0x54, 16, 4, 0xffff, 0, 0, false, false⟩,
   ⟨0x58, 16, 4, 0, 0, 0, false, false⟩,
   ⟨0x5c, 16, 4, 0xffff, 0xffff, 0xffff, false, false⟩]

/-- ISU2 (R365). -/
def rowsIsu2 : List RegRow :=
  [⟨0x40, 0, 1, 0x3, 0, 0, false, false⟩,
   ⟨0x44, 4, 2, 0, 0, 0, false, false⟩,
   ⟨0x4c, 0, 1, 0x800fffff, 0, 0x40, false, false⟩,
   ⟨0x50, 0, 1, 0, 0, 0, false, false⟩,
   ⟨0x54, 0, 1, 0, 0, 0, false, false⟩,
   ⟨0x58, 0, 1, 0xffffffff, 0, 0xf3330000, false, false⟩,
   ⟨0x5c, 0, 1, 0, 0, 0, false, false⟩,
   ⟨0x60, 4, 16, 0, 0, 0, false, false⟩,
   ⟨0xa0, 8, 16, 0xfffffc0f, 0, 0, false, false⟩,
   ⟨0xa4, 8, 16, 0xffffffff, 0, 0, false, false⟩,
   ⟨0x120, 4, 4, 0xffffffff, 0, 0, false, false⟩,
   ⟨0x130, 0, 1, 0x1f, 0, 0, false, false⟩,
   ⟨0x134, 0, 1, 0, 0, 0, false, false⟩,
   ⟨0x138, 0, 1, 0, 0, 0, false, false⟩]

/-- PWR0 (R384). -/
def rowsPwr0 : List RegRow :=
  [⟨0x40, 0, 1, 0x7, 0, 0, false, false⟩,
   ⟨0x44, 0, 1, 0x3, 0, 0x2, false, true⟩,
   ⟨0x48, 0, 1, 0xff00ffff, 0xff00ffff, 0x6e002008, false, false⟩,
   ⟨0x4c, 0, 1, 0x3, 0x2, 0x3, false, false⟩,
   ⟨0x50, 0, 1, 0, 0, 0, false, false⟩,
   ⟨0x54, 0, 1, 0, 0, 0, false, false⟩,
   ⟨0x58, 0, 1, 0, 0, 0, false, false⟩,
   ⟨0x5c, 4, 4, 0xffffffff, 0, 0, false, false⟩,
   ⟨0x6c, 0, 1, 0xf, 0, 0, false, false⟩,
   ⟨0x70, 0, 1, 0, 0, 0, true, false⟩,
   ⟨0x74, 0, 1, 0, 0, 0, false, false⟩,
   ⟨0x78, 0, 1, 0, 0, 0, false, false⟩,
   ⟨0x7c, 0, 1, 0, 0, 0, false, false⟩,
   ⟨0x80, 4, 16, 0, 0, 0, false, false⟩]

/-- DIE (R385). -/
def rowsDie : List RegRow :=
  [⟨0x40, 0, 1, 0, 0, 0, false, false⟩,
   ⟨0x44, 0, 1, 0, 0, 0, true, false⟩,
   ⟨0x48, 0, 1, 0, 0, 0, false, false⟩,
   ⟨0x4c, 0, 1, 0xffffffff, 0, 0, false, false⟩,
   ⟨0x50, 0, 1, 0xffffffff, 0, 0, false, false⟩]

/-- HK (R386). -/
def rowsHk : List RegRow :=
  [⟨0x40, 0, 1, 0, 0, 0, false, false⟩,
   ⟨0x44, 0, 1, 0, 0, 0, false, false⟩,
   ⟨0x48, 0, 1, 0, 0, 0, false, false⟩,
   ⟨0x4c, 0, 1, 0, 0, 0, false, false⟩,
   ⟨0x50, 0, 1, 0xffffffff, 0, 0, false, false⟩]

/-- CAL0 (R118). -/
def rowsCal0 : List RegRow :=
  [⟨0x40, 0, 1, 0x3, 0x3, 0x3, false, false⟩,
   ⟨0x44, 0, 1, 0xff0f, 0, 0x4004, false, true⟩,
   ⟨0x48, 0, 1, 0xffff, 0, 0x2710, false, false⟩,
   ⟨0x4c, 0, 1, 0xffff, 0, 0x1008, false, false⟩,
   ⟨0x50, 0, 1, 0xffff, 0, 0x7d0, false, false⟩,
   ⟨0x54, 0, 1, 0, 0, 0, false, false⟩,
   ⟨0x58, 0, 1, 0, 0, 0, false, false⟩,
   ⟨0x5c, 0, 1, 0, 0, 0, false, false⟩,
   ⟨0x60, 4, 4, 0xffffffff, 0, 0, false, false⟩]

/-- CAL1 (R120). -/
def rowsCal1 : List RegRow :=
  [⟨0x40, 0, 1, 0x1fff, 0, 0, false, false⟩,
   ⟨0x44, 0, 1, 0, 0, 0, false, false⟩,
   ⟨0x48, 0, 1, 0, 0, 0, true, false⟩,
   ⟨0x4c, 0, 1, 0, 0, 0, false, false⟩,
   ⟨0x50, 0, 1, 0, 0, 0, false, false⟩,
   ⟨0x54, 4, 3, 0, 0, 0, false, false⟩,
   ⟨0x60, 4, 8, 0, 0, 0x40000000, false, false⟩,
   ⟨0x80, 4, 8, 0, 0, 0, false, false⟩,
   ⟨0xa0, 4, 8, 0, 0, 0x40000000, false, false⟩]

/-- PRG0 (R153). -/
def rowsPrg0 : List RegRow :=
  [⟨0x40, 0, 1, 0xff0007, 0x4, 0xa0005, false, false⟩,
   ⟨0x44, 0, 1, 0, 0, 0, false, false⟩,
   ⟨0x48, 0, 1, 0, 0, 0, false, false⟩,
   ⟨0x4c, 0, 1, 0xffff, 0xffff, 0x2328, false, false⟩,
   ⟨0x50, 0, 1, 0, 0, 0, false, false⟩,
   ⟨0x54, 0, 1, 0, 0, 0, false, false⟩,
   ⟨0x58, 0, 1, 0, 0, 0, false, false⟩,
   ⟨0x5c, 4, 5, 0xffffffff, 0, 0, false, false⟩]

/-- PRG1 (R154). -/
def rowsPrg1 : List RegRow :=
  [⟨0x40, 0, 1, 0xffffff00, 0, 0x1e0100, false, false⟩,
   ⟨0x44, 0, 1, 0, 0, 0, false, false⟩,
   ⟨0x48, 4, 2, 0, 0, 0, false, false⟩,
   ⟨0x50, 0, 1, 0, 0, 0, true, false⟩,
   ⟨0x54, 0, 1, 0, 0, 0, false, false⟩,
   ⟨0x58, 0, 1, 0, 0, 0, true, false⟩,
   ⟨0x5c, 0, 1, 0, 0, 0, false, false⟩,
   ⟨0x60, 0, 1, 0, 0, 0, true, false⟩,
   ⟨0x64, 0, 1, 0, 0, 0, false, false⟩,
   ⟨0x68, 0, 1, 0, 0, 0, false, false⟩,
   ⟨0x6c, 0, 1, 0, 0, 0, false, false⟩,
   ⟨0x70, 4, 8, 0, 0, 0, false, false⟩]

/-- PRG2 (R155). -/
def rowsPrg2 : List RegRow :=
  [⟨0x40, 0, 1, 0xffff, 0, 0, false, false⟩,
   ⟨0x44, 0, 1, 0, 0, 0, false, false⟩,
   ⟨0x48, 0, 1, 0, 0, 0, false, false⟩]

/-- PRG3 (R155). -/
def rowsPrg3 : List RegRow :=
  [⟨0x40, 0, 1, 0, 0, 0, false, false⟩,
   ⟨0x44, 0, 1, 0x3fff, 0, 0, false, false⟩,
   ⟨0x48, 0, 1, 0, 0, 0, false, false⟩]

/-- PLM (R157). -/
def rowsPlm : List RegRow :=
  [⟨0x40, 0, 1, 0x3fffff, 0, 0, false, false⟩,
   ⟨0x44, 0, 1, 0, 0, 0, false, false⟩,
   ⟨0x48, 0, 1, 0, 0, 0, false, false⟩,
   ⟨0x4c, 0, 1, 0, 0, 0, false, false⟩,
   ⟨0x50, 0, 1, 0, 0, 0, true, false⟩,
   ⟨0x54, 0, 1, 0, 0, 0, false, false⟩,
   ⟨0x58, 0, 1, 0, 0, 0x80, false, false⟩]

/-- CORE (R208). -/
def rowsCore : List RegRow :=
  [⟨0x40, 0, 1, 0, 0, 0, false, false⟩,
   ⟨0x44, 0, 1, 0, 0, 0, false, false⟩,
   ⟨0x48, 4, 2, 0xffffffff, 0, 0, false, false⟩]

/-- SEQ (R209). -/
def rowsSeq : List RegRow :=
  [⟨0x40, 4, 2, 0xffffffff, 0, 0, false, false⟩,
   ⟨0x48, 0, 1, 0, 0, 0, false, false⟩,
   ⟨0x4c, 0, 1, 0, 0, 0, false, false⟩,
   ⟨0x50, 0, 1, 0, 0, 0, false, false⟩,
   ⟨0x54, 0, 1, 0xffffffff, 0, 0, false, false⟩]

/-- ACC (R210). -/
def rowsAcc : List RegRow :=
  [⟨0x40, 0, 1, 0, 0, 0, false, false⟩,
   ⟨0x44, 4, 3, 0xffffffff, 0, 0, false, false⟩]

/-- VEC (R183). -/
def rowsVec : List RegRow :=
  [⟨0x40, 0, 1, 0, 0, 0, false, false⟩,
   ⟨0x44, 0, 1, 0, 0, 0, false, false⟩,
   ⟨0x48, 0, 1, 0, 0, 0, false, false⟩,
   ⟨0x4c, 0, 1, 0, 0, 0, true, false⟩,
   ⟨0x50, 0, 1, 0, 0, 0, false, false⟩,
   ⟨0x54, 4, 8, 0xffffffff, 0, 0, false, false⟩,
   ⟨0x74, 0, 1, 0x3ff, 0, 0, false, false⟩,
   ⟨0x78, 0, 1, 0, 0, 0, false, false⟩,
   ⟨0x7c, 0, 1, 0, 0, 0, false, false⟩]

/-- FETCH (R211). -/
def rowsFetch : List RegRow :=
  [⟨0x40, 0, 1, 0, 0, 0, false, false⟩,
   ⟨0x44, 0, 1, 0xffffffff, 0, 0, false, false⟩,
   ⟨0x48, 0, 1, 0, 0, 0, true, false⟩,
   ⟨0x4c, 0, 1, 0, 0, 0, false, false⟩,
   ⟨0x50, 4, 4, 0xffffffff, 0, 0, false, false⟩]

/-- DRAIN (R212). -/
def rowsDrain : List RegRow :=
  [⟨0x40, 0, 1, 0, 0, 0, false, false⟩,
   ⟨0x44, 4, 4, 0xffffffff, 0, 0, false, false⟩]

/-- CSTAT (R213). -/
def rowsCstat : List RegRow :=
  [⟨0x40, 0, 1, 0, 0, 0, true, false⟩,
   ⟨0x44, 0, 1, 0, 0, 0, false, false⟩,
   ⟨0x48, 0, 1, 0, 0, 0, true, false⟩,
   ⟨0x4c, 0, 1, 0, 0, 0, false, false⟩,
   ⟨0x50, 0, 1, 0, 0, 0, true, false⟩,
   ⟨0x54, 0, 1, 0, 0, 0, false, false⟩,
   ⟨0x58, 4, 6, 0xffffffff, 0, 0, false, false⟩]

/-- CDBG (R408). -/
def rowsCdbg : List RegRow :=
  [⟨0x40, 0, 1, 0x1, 0, 0, false, false⟩,
   ⟨0x44, 0, 1, 0, 0, 0, false, false⟩,
   ⟨0x48, 0, 1, 0xc07fffff, 0, 0, false, false⟩,
   ⟨0x4c, 0, 1, 0, 0, 0, false, false⟩]

/-- The map of a page kind. -/
def rowsOf : Kind → List RegRow
  | .sys => rowsSys
  | .hsk => rowsHsk
  | .sec0 => rowsSec0
  | .sec1 => rowsSec1
  | .sec2 => rowsSec2
  | .sec3 => rowsSec3
  | .boot0 => rowsBoot0
  | .blv0 => rowsBlv0
  | .blv1 => rowsBlv1
  | .blv2 => rowsBlv2
  | .blv3 => rowsBlv3
  | .cam0 => rowsCam0
  | .cam1 => rowsCam1
  | .hdma0 => rowsHdma0
  | .rng => rowsRng
  | .flc0 => rowsFlc0
  | .flc1 => rowsFlc1
  | .trl0 => rowsTrl0
  | .mem0 => rowsMem0
  | .chk0 => rowsChk0
  | .chku => rowsChku
  | .isu0 => rowsIsu0
  | .isu1 => rowsIsu1
  | .isu2 => rowsIsu2
  | .pwr0 => rowsPwr0
  | .die => rowsDie
  | .hk => rowsHk
  | .cal0 => rowsCal0
  | .cal1 => rowsCal1
  | .prg0 => rowsPrg0
  | .prg1 => rowsPrg1
  | .prg2 => rowsPrg2
  | .prg3 => rowsPrg3
  | .plm => rowsPlm
  | .core => rowsCore
  | .seq => rowsSeq
  | .acc => rowsAcc
  | .vec => rowsVec
  | .fetch => rowsFetch
  | .drain => rowsDrain
  | .cstat => rowsCstat
  | .cdbg => rowsCdbg

/-- Whether an offset is one of the row's registers. -/
def RegRow.covers (r : RegRow) (off : Nat) : Bool :=
  if r.cnt ≤ 1 then off == r.first
  else decide (r.first ≤ off) && (off - r.first) % r.step == 0 && decide ((off - r.first) / r.step < r.cnt)

/-- The row of the register at a word offset of a page of this kind, if its map lists that offset. -/
def rowAt (k : Kind) (off : Nat) : Option RegRow := (rowsOf k).find? fun r => r.covers off

/-- The block type code of PAGE_ID.TYPE (R25). -/
def typeOf : Kind → Nat
  | .sys => 0x01 | .hsk => 0x02 | .sec0 | .sec1 | .sec2 | .sec3 => 0x03 | .boot0 => 0x04
  | .blv0 | .blv1 | .blv2 | .blv3 => 0x05 | .cam0 | .cam1 => 0x06 | .isu0 | .isu1 | .isu2 => 0x07
  | .pwr0 => 0x08 | .chk0 | .chku => 0x09 | .flc0 | .flc1 => 0x0A | .trl0 => 0x0B | .mem0 => 0x0C
  | .hdma0 => 0x0D | .rng => 0 | .die => 0x20 | .hk => 0x21 | .cal0 | .cal1 => 0x22
  | .prg0 | .prg1 | .prg2 | .prg3 => 0x23 | .plm => 0x24 | .core => 0x30 | .seq => 0x31 | .acc => 0x32
  | .vec => 0x33 | .fetch => 0x34 | .drain => 0x35 | .cstat => 0x36 | .cdbg => 0x37

/-- PAGE_CAP.CLRMODE: whether the page clears on read (R18, R19, R38). -/
def clrOnRead : Kind → Bool
  | .cam0 | .cam1 | .isu0 | .isu1 | .isu2 | .chk0 | .chku | .hk => true
  | .sys | .hsk | .sec0 | .sec1 | .sec2 | .sec3 | .boot0 | .blv0 | .blv1 | .blv2 | .blv3 | .pwr0 | .flc0 | .flc1
  | .trl0 | .mem0 | .hdma0 | .rng | .die | .cal0 | .cal1 | .prg0 | .prg1 | .prg2 | .prg3 | .plm | .core | .seq
  | .acc | .vec | .fetch | .drain | .cstat | .cdbg => false

/-- PAGE_CAP.LOCKABLE, as each chapter's header line gives it. -/
def lockable (k : Kind) : Bool :=
  decide (k = .blv0 ∨ k = .isu0 ∨ k = .isu1 ∨ k = .pwr0 ∨ k = .cal0 ∨ k = .prg0)

/-- PAGE_CAP.SHADOW (R118, R383). -/
def hasShadow (k : Kind) : Bool := decide (k = .pwr0 ∨ k = .cal0)

end Sys2Proof.Machine
end

