-- ==== Sys2Proof/Machine/Ops.lean ====
section
/-! DEFINITION. The shared operations over the state: sparse tables, register words and their fields, counters, sticky
events, byte stores, and the accessors of each table of `State`. -/

namespace Sys2Proof.Machine

open Sys2Proof

/-! ### Sparse tables -/

/-- The entry of a key, or what an unlisted key reads as. -/
def tget {α : Type} (d : α) : Tab α → Nat → α
  | [], _ => d
  | (j, v) :: t, k => if j = k then v else tget d t k

/-- A table with no entry for a key. -/
def tdel {α : Type} (t : Tab α) (k : Nat) : Tab α := t.filter fun e => e.1 != k

/-- A table with an entry put in at its place. -/
def tins {α : Type} : Tab α → Nat → α → Tab α
  | [], k, v => [(k, v)]
  | (j, w) :: t, k, v => if k < j then (k, v) :: (j, w) :: t else (j, w) :: tins t k v

/-- A table with a key set; a key set to what an unlisted key reads as is not listed. -/
def tset {α : Type} [DecidableEq α] (d : α) (t : Tab α) (k : Nat) (v : α) : Tab α :=
  if v = d then tdel t k else tins (tdel t k) k v

/-- A table with a function applied to every listed entry. -/
def tmap {α : Type} [DecidableEq α] (d : α) (f : α → α) (t : Tab α) : Tab α :=
  (t.map fun e => (e.1, f e.2)).filter fun e => decide (e.2 ≠ d)

/-- The same with a function of key and entry. -/
def tmapi {α : Type} [DecidableEq α] (d : α) (f : Nat → α → α) (t : Tab α) : Tab α :=
  (t.map fun e => (e.1, f e.1 e.2)).filter fun e => decide (e.2 ≠ d)

/-- The listed keys of a table. -/
def keysOf {α : Type} (t : Tab α) : List Nat := t.map fun e => e.1

/-- Whether keys rise strictly and no entry equals what an unlisted key reads as. -/
def tabOk {α : Type} [DecidableEq α] (d : Nat → α) : Tab α → Bool
  | [] => true
  | (k, v) :: t => decide (v ≠ d k) && (t.all fun e => decide (k < e.1)) && tabOk d t

/-! ### Bit fields -/

/-- Bits [hi:lo] of a word, as a number. -/
def fld (w : W32) (hi lo : Nat) : Nat := w.toNat / 2 ^ lo % 2 ^ (hi + 1 - lo)

/-- Bit b of a word. -/
def bit (w : W32) (b : Nat) : Bool := w.getLsbD b

/-- A word whose bits [hi:lo] hold a number. -/
def put (hi lo v : Nat) : W32 := BitVec.ofNat 32 (v % 2 ^ (hi + 1 - lo) * 2 ^ lo)

/-- The mask of bits [hi:lo]. -/
def maskOf (hi lo : Nat) : W32 := put hi lo (2 ^ (hi + 1 - lo) - 1)

/-- A word with bits [hi:lo] replaced. -/
def ins (w : W32) (hi lo v : Nat) : W32 := (w &&& ~~~maskOf hi lo) ||| put hi lo v

/-- A word with one bit. -/
def putBit (b : Nat) (v : Bool) : W32 := if v then put b b 1 else 0

/-- A 16-bit two's-complement field of a number. -/
def put16 (v : Int) : W32 := put 15 0 (v % 65536).toNat

/-- A number read from a field of `n` bits as two's complement. -/
def sext (n v : Nat) : Int := if v < 2 ^ (n - 1) then v else (v : Int) - 2 ^ n

/-- The low and the high word of a 64-bit number. -/
def lo32 (n : Nat) : W32 := BitVec.ofNat 32 n
def hi32 (n : Nat) : W32 := BitVec.ofNat 32 (n / 2 ^ 32)

/-- The bytes that byte enables select, as a mask (R35). -/
def beMask (be : BitVec 4) : W32 :=
  (if be.getLsbD 0 then 0xFF else 0) ||| (if be.getLsbD 1 then 0xFF00 else 0) |||
  (if be.getLsbD 2 then 0xFF0000 else 0) ||| (if be.getLsbD 3 then 0xFF000000 else 0)

/-! ### Integer arithmetic -/

/-- A number held within bounds. -/
def clampInt (lo hi v : Int) : Int := if v < lo then lo else if hi < v then hi else v

/-- A quotient rounded to the nearest integer, ties away from zero (R66, R101); the divisor is positive. -/
def divAway (a b : Int) : Int := if 0 ≤ a then (2 * a + b) / (2 * b) else -((2 * -a + b) / (2 * b))

/-- A quotient rounded to the nearest integer, ties to even; the divisor is positive. -/
def divEven (a b : Int) : Int :=
  let q := a / b
  let r := 2 * (a - q * b)
  if r < b then q else if b < r then q + 1 else if q % 2 = 0 then q else q + 1

/-- A quotient rounded up. -/
def ceilDiv (a b : Nat) : Nat := (a + b - 1) / b

/-- The number of set bits. -/
def popcount {n : Nat} (w : BitVec n) : Nat := ((List.range n).filter fun i => w.getLsbD i).length

/-- The indices of the set bits below a bound, rising. -/
def bitsOf {n : Nat} (w : BitVec n) : List Nat := (List.range n).filter fun i => w.getLsbD i

/-- A mask of the listed bit indices. -/
def ofBits (n : Nat) (l : List Nat) : BitVec n := l.foldl (fun m i => m ||| (1#n <<< i)) 0

/-! ### Bytes -/

/-- The little-endian bytes of a number (R159, R270). -/
def leBytes : Nat → Nat → List Byte
  | 0, _ => []
  | n + 1, v => BitVec.ofNat 8 v :: leBytes n (v / 256)

/-- The number that little-endian bytes spell. -/
def leVal : List Byte → Nat
  | [] => 0
  | b :: l => b.toNat + 256 * leVal l

/-- Bytes of a byte store from an address up; an unlisted byte reads 0 (logs 7 and 8). -/
def bytesAt (t : Tab Byte) (a n : Nat) : List Byte := (List.range n).map fun i => tget 0 t (a + i)

/-- A byte store with bytes written from an address up. -/
def putBytes (t : Tab Byte) (a : Nat) (l : List Byte) : Tab Byte :=
  (l.zipIdx).foldl (fun t e => tset 0 t (a + e.2) e.1) t

/-- The little-endian number of `n` bytes from an address up. -/
def numAt (t : Tab Byte) (a n : Nat) : Nat := leVal (bytesAt t a n)

/-- A part of a byte list. -/
def slice (l : List Byte) (a n : Nat) : List Byte := (l.drop a).take n

/-- The little-endian number in a part of a byte list. -/
def leAt (l : List Byte) (a n : Nat) : Nat := leVal (slice l a n)

/-! ### The family and its pages (R1, R2, R17 to R21) -/

/-- The number of dies of the member (R2). -/
def Member.dies : Member → Nat
  | .tlq16 => 16 | .tlq08 => 8 | .tlq04 => 4

/-- The kind of a BAR0 page and its index within the kind; none for a reserved page (R18, R19). -/
def kindOf (p : Nat) : Option (Kind × Nat) :=
  if p < 0x200 then
    if p = 0 then some (.sys, 0)
    else if p = 1 then some (.hsk, 0)
    else if p = 2 then some (.sec0, 0)
    else if p = 3 then some (.sec1, 0)
    else if p = 4 then some (.sec2, 0)
    else if p = 5 then some (.sec3, 0)
    else if p = 8 then some (.boot0, 0)
    else if p = 0x10 then some (.blv0, 0)
    else if p = 0x11 then some (.blv1, 0)
    else if p = 0x12 then some (.blv2, 0)
    else if p = 0x13 then some (.blv3, 0)
    else if 0x20 ≤ p ∧ p < 0x30 then some (if p % 2 = 0 then .cam0 else .cam1, (p - 0x20) / 2)
    else if p = 0x30 then some (.isu0, 0)
    else if p = 0x31 then some (.isu1, 0)
    else if p = 0x32 then some (.isu2, 0)
    else if p = 0x40 then some (.pwr0, 0)
    else if p = 0x50 then some (.chk0, 0)
    else if 0x51 ≤ p ∧ p < 0x59 then some (.chku, p - 0x51)
    else if p = 0x60 then some (.flc0, 0)
    else if p = 0x61 then some (.flc1, 0)
    else if p = 0x70 then some (.trl0, 0)
    else if p = 0x80 then some (.mem0, 0)
    else if p = 0x90 then some (.hdma0, 0)
    else if 0x100 ≤ p ∧ p < 0x180 then some (.rng, p - 0x100)
    else none
  else if p < 0xE00 then
    let d := (p - 0x200) / 0xC0
    let o := (p - 0x200) % 0xC0
    if o < 0x40 then
      match o with
      | 0 => some (.die, d) | 1 => some (.hk, d) | 2 => some (.cal0, d) | 3 => some (.cal1, d)
      | 4 => some (.prg0, d) | 5 => some (.prg1, d) | 6 => some (.prg2, d) | 7 => some (.prg3, d)
      | 8 => some (.plm, d) | _ => none
    else
      let c := d * 16 + (o - 0x40) / 8
      match (o - 0x40) % 8 with
      | 0 => some (.core, c) | 1 => some (.seq, c) | 2 => some (.acc, c) | 3 => some (.vec, c)
      | 4 => some (.fetch, c) | 5 => some (.drain, c) | 6 => some (.cstat, c) | _ => some (.cdbg, c)
  else none

/-- The die that a page belongs to, for the page groups of the Orangeries (R18). -/
def pageDie (p : Nat) : Option Nat := if 0x200 ≤ p ∧ p < 0xE00 then some ((p - 0x200) / 0xC0) else none

/-- Page numbers: a page of die d, and a page of core c (counted d × 16 + core of the die). -/
def diePage (d k : Nat) : Nat := 0x200 + d * 0xC0 + k
def corePage (c k : Nat) : Nat := 0x240 + c / 16 * 0xC0 + c % 16 * 8 + k

/-- Pages of the Pavilion. -/
def pgSys : Nat := 0
def pgHsk : Nat := 1
def pgSec0 : Nat := 2
def pgSec1 : Nat := 3
def pgSec2 : Nat := 4
def pgSec3 : Nat := 5
def pgBoot : Nat := 8
def pgBlv0 : Nat := 0x10
def pgBlv1 : Nat := 0x11
def pgBlv2 : Nat := 0x12
def pgBlv3 : Nat := 0x13
def pgCam0 (port : Nat) : Nat := 0x20 + 2 * port
def pgCam1 (port : Nat) : Nat := 0x21 + 2 * port
def pgIsu0 : Nat := 0x30
def pgIsu1 : Nat := 0x31
def pgIsu2 : Nat := 0x32
def pgPwr : Nat := 0x40
def pgChk0 : Nat := 0x50
def pgChkU (u : Nat) : Nat := 0x51 + u
def pgFlc0 : Nat := 0x60
def pgFlc1 : Nat := 0x61
def pgTrl : Nat := 0x70
def pgMem : Nat := 0x80
def pgHdma : Nat := 0x90
def pgRng (ring : Nat) : Nat := 0x100 + ring / 64

/-- Pages of a die and of a core. -/
def pgDie (d : Nat) : Nat := diePage d 0
def pgHk (d : Nat) : Nat := diePage d 1
def pgCal0 (d : Nat) : Nat := diePage d 2
def pgCal1 (d : Nat) : Nat := diePage d 3
def pgPrg0 (d : Nat) : Nat := diePage d 4
def pgPrg1 (d : Nat) : Nat := diePage d 5
def pgPrg2 (d : Nat) : Nat := diePage d 6
def pgPrg3 (d : Nat) : Nat := diePage d 7
def pgPlm (d : Nat) : Nat := diePage d 8
def pgCore (c : Nat) : Nat := corePage c 0
def pgSeq (c : Nat) : Nat := corePage c 1
def pgAcc (c : Nat) : Nat := corePage c 2
def pgVec (c : Nat) : Nat := corePage c 3
def pgFetch (c : Nat) : Nat := corePage c 4
def pgDrain (c : Nat) : Nat := corePage c 5
def pgCstat (c : Nat) : Nat := corePage c 6
def pgCdbg (c : Nat) : Nat := corePage c 7

/-! ### Register words -/

/-- What a register word reads as after reset, by its DW address in BAR0: the reset value of its register, or of the
active register for a shadow copy (R34, R44). -/
def regDef (a : Nat) : W32 :=
  match kindOf (a / 1024) with
  | none => 0
  | some (k, _) =>
    let off := 4 * (a % 1024)
    match rowAt k (if 0x800 ≤ off ∧ k ≠ .rng then off - 0x800 else off) with
    | none => 0
    | some r => if 0x800 ≤ off ∧ k ≠ .rng ∧ r.shad = false then 0 else r.rst

/-- The DW address of a register. -/
def dwAddr (p off : Nat) : Nat := p * 1024 + off / 4

/-- The stored bits of a register. -/
def rget (s : State) (p off : Nat) : W32 := tget (regDef (dwAddr p off)) s.regs (dwAddr p off)

/-- The state with the stored bits of a register replaced. -/
def rset (s : State) (p off : Nat) (v : W32) : State :=
  { s with regs := tset (regDef (dwAddr p off)) s.regs (dwAddr p off) v }

/-- A field of a register. -/
def rfld (s : State) (p off hi lo : Nat) : Nat := fld (rget s p off) hi lo

/-- A bit of a register. -/
def rbit (s : State) (p off b : Nat) : Bool := bit (rget s p off) b

/-- A LO and HI pair of registers as one number (R42). -/
def rget64 (s : State) (p off : Nat) : Nat := (rget s p off).toNat + (rget s p (off + 4)).toNat * 2 ^ 32

/-- The state with a LO and HI pair set. -/
def rset64 (s : State) (p off v : Nat) : State := rset (rset s p off (lo32 v)) p (off + 4) (hi32 v)

/-- An event counter counts, and stops at its top (R41). -/
def count (s : State) (p off n : Nat) : State :=
  rset s p off (BitVec.ofNat 32 (min ((rget s p off).toNat + n) 0xFFFFFFFF))

/-- A 64-bit counter counts, and wraps (R208 to R213, R238, R283). -/
def count64 (s : State) (p off n : Nat) : State := rset64 s p off (rget64 s p off + n)

/-! ### Sticky events (R30 to R33) -/

/-- An event that sets a sticky bit of a page, with the code that PAGE_FIRST would hold. -/
def ev (s : State) (p b code : Nat) : State := { s with evq := s.evq ++ [⟨p, b, code⟩] }

/-- The state with the events of a page's cycle taken into its header: PAGE_SEQ advances by one, the bits are set, and a
free PAGE_FIRST captures the one with the highest bit and the TB (R31, R32). -/
def settlePage (s : State) (p : Nat) (es : List Ev) : State :=
  let top := es.foldl (fun (m : Ev) e => if m.bit < e.bit then e else m) ⟨p, 0, (es.headD ⟨p, 0, 0⟩).code⟩
  let s := rset s p 0x1C (rget s p 0x1C + 1)
  let s := rset s p 0x18 (es.foldl (fun w e => w ||| put e.bit e.bit 1) (rget s p 0x18))
  if rbit s p 0x24 31 then s
  else rset64 (rset s p 0x24 (put 31 31 1 ||| put 23 16 top.bit ||| put 15 0 top.code)) p 0x28 s.belv.tb

/-- The pages with an event waiting, each once. -/
def evPages (l : List Ev) : List Nat := (l.map fun e => e.page).dedup

/-! ### Accessors of the tables of State -/

def dieAt (s : State) (d : Nat) : Die := tget Die.zero s.dies d
def putDie (s : State) (d : Nat) (v : Die) : State := { s with dies := tset Die.zero s.dies d v }
/-- An engine, counted die × 8,192 + core × 512 + engine of the core; an unlisted one is as its die's prototype. -/
def engAt (s : State) (e : Nat) : Engine := tget (dieAt s (e / 8192)).proto s.engines e
def putEng (s : State) (e : Nat) (v : Engine) : State :=
  { s with engines := tset (dieAt s (e / 8192)).proto s.engines e v }
/-- A function applied to every engine of the dies that a test selects. -/
def mapEngines (s : State) (p : Nat → Bool) (f : Engine → Engine) : State :=
  let dies := tmapi Die.zero (fun k d => if p k then { d with proto := f d.proto } else d) s.dies
  { s with
    dies := dies
    engines := (s.engines.map fun e => (e.1, if p (e.1 / 8192) then f e.2 else e.2)).filter fun e =>
      decide (e.2 ≠ (tget Die.zero dies (e.1 / 8192)).proto) }
def unitAt (s : State) (u : Nat) : SilUnit := tget SilUnit.zero s.units u
def putUnit (s : State) (u : Nat) (v : SilUnit) : State := { s with units := tset SilUnit.zero s.units u v }
/-- The source of a Sillage image was written: a job that reads it will be inconclusive (R337, R340). -/
def imageWritten (s : State) (space die : Nat) : State :=
  let hit := fun (u : SilUnit) => match u.run with
    | some (_, _, t) => fld t.cfg 26 24 == space && (space != 6 || fld t.startHi 3 0 == die)
    | none => false
  { s with units := tmap SilUnit.zero (fun u => if hit u then { u with dirty := true } else u) s.units }
def plateAt (s : State) (p : Nat) : Plate := tget Plate.zero s.plates p
/-- What the plate-map image holds of a plate (R337). -/
def Plate.image (p : Plate) : Nat × Nat × Nat × Nat × W32 :=
  ((match p.st with
    | .free => 0 | .programming => 1 | .valid => 2 | .unverified => 3 | .drifted => 4 | .incomplete => 5 | .bad => 6),
   p.owner, p.inShard, p.shard, p.remap)
def putPlate (s : State) (p : Nat) (v : Plate) : State :=
  let s := if v.image = (plateAt s p).image then s else imageWritten s 6 (p / 4194304)
  { s with plates := tset Plate.zero s.plates p v }
def bankAt (s : State) (b : Nat) : Bank := tget Bank.zero s.banks b
def putBank (s : State) (b : Nat) (v : Bank) : State := { s with banks := tset Bank.zero s.banks b v }
def coreAt (s : State) (c : Nat) : Core := tget Core.zero s.cores c
def putCore (s : State) (c : Nat) (v : Core) : State := { s with cores := tset Core.zero s.cores c v }
def qslotAt (s : State) (k : Nat) : Option QSlot := tget none s.qslots k
def putQSlot (s : State) (k : Nat) (v : Option QSlot) : State := { s with qslots := tset none s.qslots k v }
def ctrAt (s : State) (k : Nat) : Ctr := tget Ctr.zero s.ctrs k
def putCtr (s : State) (k : Nat) (v : Ctr) : State := { s with ctrs := tset Ctr.zero s.ctrs k v }
def runAt (s : State) (r : Nat) : Option Run := tget none s.runs r
def putRun (s : State) (r : Nat) (v : Option Run) : State := { s with runs := tset none s.runs r v }
def ringAt (s : State) (n : Nat) : Ring := tget Ring.zero s.rings n
def putRing (s : State) (n : Nat) (v : Ring) : State := { s with rings := tset Ring.zero s.rings n v }
def reqAt (s : State) (r : Nat) : Option Req := tget none s.reqs r
def putReq (s : State) (r : Nat) (v : Option Req) : State := { s with reqs := tset none s.reqs r v }
/-- A function applied to every request in flight. -/
def mapReqs (s : State) (f : Req → Req) : State :=
  let g : Option Req → Option Req := fun q => q.map f
  { s with reqs := tmap none g s.reqs }
def slotAt (s : State) (k : Nat) : Slot := tget Slot.zero s.slots k
def putSlot (s : State) (k : Nat) (v : Slot) : State := { s with slots := tset Slot.zero s.slots k v }
def entryAt (s : State) (n : Nat) : Entry := tget Entry.zero s.entries n
def putEntry (s : State) (n : Nat) (v : Entry) : State := { s with entries := tset Entry.zero s.entries n v }
def groupAt (s : State) (g : Nat) : Group := tget Group.zero s.groups g
def putGroup (s : State) (g : Nat) (v : Group) : State := { s with groups := tset Group.zero s.groups g v }
def winAt (s : State) (w : Nat) : Option Window := tget none s.wins w
def putWin (s : State) (w : Nat) (v : Option Window) : State := { s with wins := tset none s.wins w v }
def streamAt (s : State) (n : Nat) : Stream := tget Stream.zero s.streams n
def putStream (s : State) (n : Nat) (v : Stream) : State := { s with streams := tset Stream.zero s.streams n v }
def linkAt (s : State) (l : Nat) : Link := tget Link.zero s.links l
def putLink (s : State) (l : Nat) (v : Link) : State := { s with links := tset Link.zero s.links l v }
def tplAt (s : State) (n : Nat) : Tpl := tget Tpl.zero s.tpls n
def putTpl (s : State) (n : Nat) (v : Tpl) : State := { s with tpls := tset Tpl.zero s.tpls n v }
def xferAt (s : State) (x : Nat) : Option Xfer := tget none s.xfers x
def putXfer (s : State) (x : Nat) (v : Option Xfer) : State := { s with xfers := tset none s.xfers x v }

/-- A free word is drawn: the count advances (log 11). -/
def drawFree (s : State) : W32 × State := (Config.freeWord s.free, { s with free := s.free + 1 })

/-- The present TB. -/
def tbNow (s : State) : Nat := s.belv.tb

/-! ### The dies that can be reached (R21, R22) -/

/-- How the pages of a die answer. -/
inductive Reach where
  | ok | unmapped | off
  deriving DecidableEq, Repr

/-- Whether the pages of a die are reserved (absent or left out), cannot be reached (off or in reset), or answer. -/
def dieReach (s : State) (d : Nat) : Reach :=
  if s.part.member.dies ≤ d then .unmapped
  else match (dieAt s d).st with
    | .leftOut | .notPresent | .skipped => .unmapped
    | .gated | .supplyReset | .thermalOff => .off
    | .on => if (dieAt s d).up then .ok else .off

/-- Whether a page answers: a reserved page or one of a die that is absent or left out, one that cannot be reached, or
one that answers. -/
def pageReach (s : State) (p : Nat) : Reach :=
  match kindOf p with
  | none => .unmapped
  | some _ =>
    match pageDie p with
    | none => .ok
    | some d => dieReach s d

/-- Whether a die is in service: powered, brought up and not left out. -/
def dieUp (s : State) (d : Nat) : Bool :=
  let x := dieAt s d
  x.st == .on && x.up && x.online

/-- Every waiting event is taken into its page's header; a page that cannot be reached records nothing (R47). -/
def settle (s : State) : State :=
  let es := s.evq
  (evPages es).foldl (fun s p => if pageReach s p = .ok then settlePage s p (es.filter fun e => e.page == p) else s)
    { s with evq := [] }

/-- The outcome of a command whose effect is a next state: its sticky events are taken into the pages. -/
def done (s : State) : Host.Outcome State Fault Refusal := .next (settle s)

/-! ### The last answer to the host -/

def answer (s : State) (c : Cpl) (l : List W32) : State := { s with bus := { s.bus with status := c, data := l } }

end Sys2Proof.Machine
end

