-- ==== Sys2Proof/Machine/Fp.lean ====
section
/-! DEFINITION. Number formats and their arithmetic (R158 to R161, R174): exact values as ratios of integers, one rounding,
and the functions of the vector unit. -/

namespace Sys2Proof.Machine

open Sys2Proof

/-! ### Formats (R158) -/

/-- Width of a format in bits. -/
def fmtWidth (f : Nat) : Nat :=
  if f = 0 ∨ f = 1 then 4
  else if f = 2 ∨ f = 3 ∨ f = 8 ∨ f = 9 then 8
  else if f = 4 ∨ f = 0xA ∨ f = 0xB then 16
  else 32

/-- Whether a code names a format. -/
def fmtKnown (f : Nat) : Bool := decide (f ≤ 5 ∨ (8 ≤ f ∧ f ≤ 0xC))

def fmtIsInt (f : Nat) : Bool := decide (f ≤ 5)

/-- Signed integer formats. -/
def fmtSigned (f : Nat) : Bool := decide (f = 0 ∨ f = 2 ∨ f = 4 ∨ f = 5)

/-- The least and the greatest value of an integer format. -/
def intMin (f : Nat) : Int := if fmtSigned f then -(2 ^ (fmtWidth f - 1)) else 0
def intMax (f : Nat) : Int := if fmtSigned f then 2 ^ (fmtWidth f - 1) - 1 else 2 ^ fmtWidth f - 1

/-- A value kept in an integer format: held at its range, or its low bits (R161, R165). -/
def intFit (f : Nat) (sat : Bool) (v : Int) : Int :=
  if sat then clampInt (intMin f) (intMax f) v
  else
    let u := (v % 2 ^ fmtWidth f).toNat
    if fmtSigned f then sext (fmtWidth f) u else u

/-- The integer that a raw element of a format encodes. -/
def intOf (f raw : Nat) : Int :=
  let u := raw % 2 ^ fmtWidth f
  if fmtSigned f then sext (fmtWidth f) u else u

/-- Significand bits of a floating-point format, and the exponent of its least unit. -/
def fpPrec (f : Nat) : Nat :=
  if f = 8 then 4 else if f = 9 then 3 else if f = 0xA then 11 else if f = 0xB then 8 else 24
def fpQmin (f : Nat) : Int :=
  if f = 8 then -9 else if f = 9 then -16 else if f = 0xA then -24 else if f = 0xB then -133 else -149

/-- The encoding, without sign, from which a format holds no finite value: infinity, or the NaN of E4M3. -/
def fpTop (f : Nat) : Nat :=
  if f = 8 then 0x7F else if f = 9 then 0x7C else if f = 0xA then 0x7C00 else if f = 0xB then 0x7F80 else 0x7F800000

/-- The canonical NaN of a format (R160, R161). -/
def fpNan (f : Nat) : Nat :=
  if f = 8 ∨ f = 9 then 0x7F else if f = 0xA then 0x7E00 else if f = 0xB then 0x7FC0 else 0x7FC00000

/-! ### Exact values -/

/-- A floating-point value: a NaN, an infinity, or sign and magnitude m × 2^e. -/
inductive Fv where
  | nan
  | inf (neg : Bool)
  | fin (neg : Bool) (m : Nat) (e : Int)
  deriving DecidableEq, Repr

/-- A raw element of a floating-point format (R158). -/
def fpDecode (f raw : Nat) : Fv :=
  let w := fmtWidth f
  let p := fpPrec f
  let neg := raw / 2 ^ (w - 1) % 2 == 1
  let mag := raw % 2 ^ (w - 1)
  if mag = fpTop f ∧ f ≠ 8 then .inf neg
  else if fpTop f ≤ mag then .nan
  else
    let ex := mag / 2 ^ (p - 1)
    let fr := mag % 2 ^ (p - 1)
    if ex = 0 then .fin neg fr (fpQmin f) else .fin neg (fr + 2 ^ (p - 1)) (fpQmin f + ex - 1)

/-- The value of an FP32 word. -/
def f32v (w : W32) : Fv := fpDecode 0xC w.toNat

/-- A quotient of naturals rounded to the nearest, ties away from zero or to even; the divisor is not 0. -/
def divNear (away : Bool) (n d : Nat) : Nat :=
  let q := n / d
  let r := 2 * (n % d)
  if r < d then q
  else if d < r then q + 1
  else if away || q % 2 == 1 then q + 1 else q

/-- The magnitude n / d in units of 2^e, rounded. -/
def scaleNear (away : Bool) (n d : Nat) (e : Int) : Nat :=
  if 0 ≤ e then divNear away n (d * 2 ^ e.toNat) else divNear away (n * 2 ^ (-e).toNat) d

/-- The greatest e with 2^e ≤ n / d, for n not 0. -/
def ratLog (n d : Nat) : Int :=
  let e : Int := (n.log2 : Int) - d.log2
  let ge := if 0 ≤ e then decide (d * 2 ^ e.toNat ≤ n) else decide (d ≤ n * 2 ^ (-e).toNat)
  if ge then e else e - 1

/-- The magnitude n / d rounded into a floating-point format, as its encoding without sign; it may reach or pass the
format's top, which the caller treats as overflow. -/
def fpMag (f : Nat) (away : Bool) (n d : Nat) : Nat :=
  if n = 0 then 0
  else
    let p := fpPrec f
    let q := max (ratLog n d - (p - 1 : Nat)) (fpQmin f)
    scaleNear away n d q + (q - fpQmin f).toNat * 2 ^ (p - 1)

/-- A value n / d with a sign, rounded into a format to nearest, ties to even; overflow gives infinity, or ±448 for E4M3
(R160, R161). -/
def fpEncode (f : Nat) (neg : Bool) (n d : Nat) : Nat :=
  let m := fpMag f false n d
  let m := if fpTop f ≤ m then (if f = 8 then 0x7E else fpTop f) else m
  m + if neg then 2 ^ (fmtWidth f - 1) else 0

/-- FP32 infinity of a sign, and the canonical NaN (R160). -/
def f32Inf (neg : Bool) : W32 := if neg then 0xFF800000 else 0x7F800000
def f32Nan : W32 := 0x7FC00000
def f32Zero (neg : Bool) : W32 := if neg then 0x80000000 else 0

/-- A ratio with a sign as FP32, rounded to nearest, ties to even (R160). -/
def f32Rat (neg : Bool) (n d : Nat) : W32 := BitVec.ofNat 32 (fpEncode 0xC neg n d)

/-- m × 2^e with a sign as FP32. -/
def f32Dy (neg : Bool) (m : Nat) (e : Int) : W32 :=
  if 0 ≤ e then f32Rat neg (m * 2 ^ e.toNat) 1 else f32Rat neg m (2 ^ (-e).toNat)

/-- An integer times 2^e as FP32; an exact zero takes the sign given. -/
def f32Int (z : Bool) (v : Int) (e : Int) : W32 := if v = 0 then f32Zero z else f32Dy (decide (v < 0)) v.natAbs e

/-- A value as FP32. -/
def f32Of : Fv → W32
  | .nan => f32Nan
  | .inf s => f32Inf s
  | .fin s m e => f32Dy s m e

/-- The signed integer m of a finite value, in units of 2^e. -/
def Fv.signed (s : Bool) (m : Nat) : Int := if s then -(m : Int) else m

/-- A value narrowed into a format as VCVT does (R161): infinity of E4M3 is ±448. -/
def fpNarrow (f : Nat) : Fv → Nat
  | .nan => fpNan f
  | .inf s => (if f = 8 then 0x7E else fpTop f) + if s then 2 ^ (fmtWidth f - 1) else 0
  | .fin s m e => if 0 ≤ e then fpEncode f s (m * 2 ^ e.toNat) 1 else fpEncode f s m (2 ^ (-e).toNat)

/-- A raw element of a floating-point format as the FP32 word that a lane holds (R160, R163). -/
def fpWiden (f raw : Nat) : W32 := if f = 0xC then BitVec.ofNat 32 raw else f32Of (fpDecode f raw)

/-- The nearest integer to a finite value, ties away from zero. -/
def roundAway (s : Bool) (m : Nat) (e : Int) : Int := Fv.signed s (if 0 ≤ e then m * 2 ^ e.toNat else divNear true m (2 ^ (-e).toNat))

/-- An FP32 value into an integer format: nearest, ties away from zero, then saturated; NaN gives 0 (R161). -/
def fpToInt (f : Nat) : Fv → Int
  | .nan => 0
  | .inf s => if s then intMin f else intMax f
  | .fin s m e => clampInt (intMin f) (intMax f) (roundAway s m e)

/-! ### Arithmetic on FP32 (R160, R167) -/

/-- x × y + z with one rounding; an exact zero takes the sign that IEEE 754 gives it. -/
def fpFma (x y z : Fv) : W32 :=
  match x, y, z with
  | .nan, _, _ => f32Nan
  | _, .nan, _ => f32Nan
  | _, _, .nan => f32Nan
  | .fin s m e, .fin t n f, .fin u k g =>
    let pe := e + f
    let lo := min pe g
    let p := Fv.signed (s != t) (m * n) * 2 ^ (pe - lo).toNat
    let a := Fv.signed u k * 2 ^ (g - lo).toNat
    f32Int ((s != t) && u) (p + a) lo
  | .fin _ _ _, .fin _ _ _, .inf u => f32Inf u
  | .inf s, .fin t n _, .fin _ _ _ => if n = 0 then f32Nan else f32Inf (s != t)
  | .inf s, .fin t n _, .inf u => if n = 0 ∨ (s != t) ≠ u then f32Nan else f32Inf u
  | .fin s m _, .inf t, .fin _ _ _ => if m = 0 then f32Nan else f32Inf (s != t)
  | .fin s m _, .inf t, .inf u => if m = 0 ∨ (s != t) ≠ u then f32Nan else f32Inf u
  | .inf s, .inf t, .fin _ _ _ => f32Inf (s != t)
  | .inf s, .inf t, .inf u => if (s != t) ≠ u then f32Nan else f32Inf u

/-- The value one, and a zero of a sign. -/
def fvOne : Fv := .fin false 1 0
def fvZero (s : Bool) : Fv := .fin s 0 0

def Fv.neg : Fv → Fv
  | .nan => .nan
  | .inf s => .inf (!s)
  | .fin s m e => .fin (!s) m e

def Fv.abs : Fv → Fv
  | .nan => .nan
  | .inf _ => .inf false
  | .fin _ m e => .fin false m e

def Fv.sign : Fv → Bool
  | .nan => false
  | .inf s => s
  | .fin s _ _ => s

def fpAdd (x y : Fv) : W32 := fpFma x fvOne y
def fpSub (x y : Fv) : W32 := fpFma x fvOne y.neg
/-- A product: the zero added has the product's sign, so an exact zero keeps it. -/
def fpMul (x y : Fv) : W32 := fpFma x y (fvZero (x.sign != y.sign))

/-- A quotient, correctly rounded. -/
def fpDiv (x y : Fv) : W32 :=
  match x, y with
  | .nan, _ => f32Nan
  | _, .nan => f32Nan
  | .inf _, .inf _ => f32Nan
  | .inf s, .fin t _ _ => f32Inf (s != t)
  | .fin s _ _, .inf t => f32Zero (s != t)
  | .fin s m e, .fin t n f =>
    if n = 0 then (if m = 0 then f32Nan else f32Inf (s != t))
    else
      let g := e - f
      if 0 ≤ g then f32Rat (s != t) (m * 2 ^ g.toNat) n else f32Rat (s != t) m (n * 2 ^ (-g).toNat)

/-- The comparison of two values that are not NaN, as the sign of their difference. -/
def fvCmp (x y : Fv) : Int :=
  match x, y with
  | .nan, _ => 0
  | _, .nan => 0
  | .inf s, .inf t => if s = t then 0 else if s then -1 else 1
  | .inf s, .fin _ _ _ => if s then -1 else 1
  | .fin _ _ _, .inf t => if t then 1 else -1
  | .fin s m e, .fin t n f =>
    let lo := min e f
    let d := Fv.signed s m * 2 ^ (e - lo).toNat - Fv.signed t n * 2 ^ (f - lo).toNat
    if d < 0 then -1 else if 0 < d then 1 else 0

/-- Smaller and larger of two values: NaN if either is NaN, and −0 < +0 (R167). -/
def fpMin (x y : Fv) : W32 :=
  if x = .nan ∨ y = .nan then f32Nan
  else if fvCmp x y < 0 ∨ (fvCmp x y = 0 ∧ x.sign = true) then f32Of x else f32Of y
def fpMax (x y : Fv) : W32 :=
  if x = .nan ∨ y = .nan then f32Nan
  else if 0 < fvCmp x y ∨ (fvCmp x y = 0 ∧ x.sign = false) then f32Of x else f32Of y

/-! ### Functions, in fixed point with 320 fractional bits (R167, log 10) -/

/-- Fractional bits of the fixed-point work. -/
def fxBits : Nat := 320
def fxOne : Int := 2 ^ fxBits

/-- A finite value in fixed point, rounded down. -/
def toFx (s : Bool) (m : Nat) (e : Int) : Int :=
  let e' := e + fxBits
  if 0 ≤ e' then Fv.signed s m * 2 ^ e'.toNat else Fv.signed s m / 2 ^ (-e').toNat

def fxMul (a b : Int) : Int := a * b / fxOne
def fxDiv (a b : Int) : Int := a * fxOne / b

/-- A fixed-point number times 2^k, as FP32. -/
def fxF32 (z : Bool) (v : Int) (k : Int) : W32 := f32Int z v (k - fxBits)

/-- Σ t^(2k+1) / (2k+1) from a term, which is t^(2k+1), up to a number of terms. -/
def atanhSum (sgn : Int) (t2 : Int) : Nat → Nat → Int → Int
  | 0, _, _ => 0
  | n + 1, k, term => term / (2 * k + 1) + atanhSum sgn t2 n (k + 1) (sgn * fxMul term t2)

/-- atanh t, for |t| ≤ 1/3. -/
def fxAtanh (t : Int) : Int := atanhSum 1 (fxMul t t) 110 0 t

/-- ln 2 = 2 atanh (1/3). -/
def fxLn2 : Int := 2 * fxAtanh (fxOne / 3)

/-- π by Machin's formula. -/
def fxPi : Int :=
  16 * atanhSum (-1) (fxOne / 25) 80 0 (fxOne / 5) - 4 * atanhSum (-1) (fxOne / 57121) 40 0 (fxOne / 239)

/-- Σ r^n / n! from a term. -/
def expSum (r : Int) : Nat → Nat → Int → Int
  | 0, _, _ => 0
  | n + 1, k, term => term + expSum r n (k + 1) (fxMul term r / (k + 1))

/-- e^x of a fixed-point number as a fixed-point number and a power of two. -/
def fxExp (x : Int) : Int × Int :=
  let k := (2 * x + fxLn2) / (2 * fxLn2)
  (expSum (x - k * fxLn2) 80 0 fxOne, k)

/-- e^x (R167). -/
def fpExp : Fv → W32
  | .nan => f32Nan
  | .inf s => if s then 0 else f32Inf false
  | .fin s m e =>
    if m = 0 then f32Dy false 1 0
    else if 7 ≤ ratLog m 1 + e then (if s then 0 else f32Inf false)
    else let r := fxExp (toFx s m e); fxF32 false r.1 r.2

/-- ln x (R167): ln of a negative number is NaN, and ln 0 is −infinity. -/
def fpLog : Fv → W32
  | .nan => f32Nan
  | .inf s => if s then f32Nan else f32Inf false
  | .fin s m e =>
    if m = 0 then f32Inf true
    else if s then f32Nan
    else
      let k := (m.log2 : Int)
      let up := decide (4 * 2 ^ m.log2 ≤ 3 * m)
      let h := if up then k + 1 else k
      let y := toFx false m (-h)
      fxF32 false (2 * fxAtanh (fxDiv (y - fxOne) (y + fxOne)) + (h + e) * fxLn2) 0

def fpRcp (x : Fv) : W32 := fpDiv fvOne x

/-- The integer root of n, bit by bit from bit b − 1 of the root down. -/
def rootBits (n : Nat) : Nat → Nat → Nat
  | 0, r => r
  | b + 1, r => rootBits n b (if (r + 2 ^ b) * (r + 2 ^ b) ≤ n then r + 2 ^ b else r)

/-- ⌊√n⌋. -/
def natRoot (n : Nat) : Nat := rootBits n (n.log2 / 2 + 1) 0

/-- √(n / d) rounded to FP32: the integer root of a scaled quotient, with its last bit telling that it is inexact. -/
def sqrtRat (n d : Nat) (e : Int) : W32 :=
  let e2 := if e % 2 = 0 then e else e - 1
  let n2 := if e % 2 = 0 then n else 2 * n
  let q := n2 * 2 ^ 160 / d
  let r := natRoot q
  let stick := if r * r = q ∧ n2 * 2 ^ 160 % d = 0 then 2 * r else 2 * r + 1
  f32Dy false stick (e2 / 2 - 81)

/-- √x (R167); √−0 is −0. -/
def fpSqrt : Fv → W32
  | .nan => f32Nan
  | .inf s => if s then f32Nan else f32Inf false
  | .fin s m e => if m = 0 then f32Zero s else if s then f32Nan else sqrtRat m 1 e

/-- 1/√x (R167); 1/√±0 is ±infinity. -/
def fpRsqrt : Fv → W32
  | .nan => f32Nan
  | .inf s => if s then f32Nan else 0
  | .fin s m e => if m = 0 then f32Inf s else if s then f32Nan else sqrtRat 1 m (-e)

/-- tanh x (R167). -/
def fpTanh : Fv → W32
  | .nan => f32Nan
  | .inf s => f32Dy s 1 0
  | .fin s m e =>
    if m = 0 then f32Zero s
    else if 4 ≤ ratLog m 1 + e then f32Dy s 1 0
    else
      let x := toFx false m e
      let r := fxExp (2 * x)
      let y := if 0 ≤ r.2 then r.1 * 2 ^ r.2.toNat else r.1 / 2 ^ (-r.2).toNat
      let v := fxF32 false (fxDiv (y - fxOne) (y + fxOne)) 0
      if s then v ||| 0x80000000 else v

/-- Σ (−1)^n x^(2n+1) / (n! (2n+1)) from a term, which is (−1)^n x^(2n+1) / n!. -/
def erfSum (x2 : Int) : Nat → Nat → Int → Int
  | 0, _, _ => 0
  | n + 1, k, term => term / (2 * k + 1) + erfSum x2 n (k + 1) (-(fxMul term x2) / (k + 1))

/-- The root of a fixed-point number. -/
def fxSqrt (v : Int) : Int := (natRoot (v * fxOne).toNat : Int)

/-- erf x (R167). -/
def fpErf : Fv → W32
  | .nan => f32Nan
  | .inf s => f32Dy s 1 0
  | .fin s m e =>
    if m = 0 then f32Zero s
    else if 2 ≤ ratLog m 1 + e then f32Dy s 1 0
    else
      let x := toFx false m e
      let v := fxF32 false (fxDiv (2 * erfSum (fxMul x x) 220 0 x) (fxSqrt fxPi)) 0
      if s then v ||| 0x80000000 else v

/-! ### Quantisation (R174) -/

/-- The greatest code magnitude of a target format, QMAX. -/
def qMax (f : Nat) : Nat :=
  if f = 2 then 127 else if f = 3 then 255 else if f = 0 then 7 else if f = 1 then 15 else if f = 8 then 448 else 57344

/-- The greatest FP8 encoding that is held, ±QMAX. -/
def fp8Max (f : Nat) : Nat := if f = 8 then 0x7E else 0x7B

/-- A code with its sign for a floating-point target. A negative value, or −0, that rounds to 0 keeps its sign, code 0x80 (DESIGN CHOICE,
log 45). -/
def fp8Code (s : Bool) (m : Nat) : Nat := m + if s then 0x80 else 0

/-- An infinity, or a value whose quotient has no bound, quantised: ±QMAX, and 0 for a negative one under an unsigned
target. -/
def quantInf (f : Nat) (s : Bool) : Int :=
  if fmtIsInt f then (if s then (if fmtSigned f then -(qMax f : Int) else 0) else qMax f) else fp8Code s (fp8Max f)

/-- A value quantised with a scale: the code as the raw element of an FP8 target or as the integer, and whether it counts
as saturated (R174). -/
def quantise (f : Nat) (x s : Fv) : Int × Bool :=
  match x with
  | .nan => (0, false)
  | .inf n => (quantInf f n, true)
  | .fin n m e =>
    match s with
    | .fin _ k g =>
      if k = 0 then (if m = 0 then (0, false) else (quantInf f n, true))
      else
        let h := e - g
        let num := if 0 ≤ h then m * 2 ^ h.toNat else m
        let den := if 0 ≤ h then k else k * 2 ^ (-h).toNat
        if fmtIsInt f then
          let r := divNear true num den
          if n && !fmtSigned f then (0, r != 0)
          else if qMax f < r then (Fv.signed n (qMax f), true)
          else (Fv.signed n r, false)
        else
          let r := fpMag f true num den
          if fp8Max f < r then (fp8Code n (fp8Max f), true) else (fp8Code n r, false)
    | _ => (0, false)

/-- A / QMAX as FP32: the scale that an amax gives (R174). -/
def scaleOf (f : Nat) (a : W32) : W32 := fpDiv (f32v a) (.fin false (qMax f) 0)

/-- Whether a × 2^k exceeds, or is exceeded by, b × c, for non-negative values: the sign of a × 2^k − b × c (R176). -/
def cmpScaled (a : W32) (k : Int) (b : W32) (c : Nat) : Int :=
  match f32v a, f32v b with
  | .fin _ m e, .fin _ n f => fvCmp (.fin false m (e + k)) (.fin false (n * c) f)
  | _, _ => 0

end Sys2Proof.Machine
end

