-- ==== Sys2Proof/Machine/Operands.lean ====
section
/-! DEFINITION. Operands of the vector unit: the instruction word (R165), lanes, masks and scalars (R163), the broadcast
immediate (R166), and the writing of results. -/

namespace Sys2Proof.Machine

open Sys2Proof

/-- The word of an instruction (R165). -/
def vWord (op : Nat) (f : VF) : W64 :=
  BitVec.ofNat 64 (op * 2 ^ 56 + f.dt.toNat * 2 ^ 52 + f.vd.toNat * 2 ^ 47 + f.va.toNat * 2 ^ 42 + f.vb.toNat * 2 ^ 37 +
    f.msk.toNat * 2 ^ 34 + (if f.mz then 2 ^ 33 else 0) + (if f.sat then 2 ^ 32 else 0) + f.imm.toNat)

/-- The operation of a word, and its other fields (R165). -/
def vOp (w : W64) : Nat := w.toNat / 2 ^ 56
def vFields (w : W64) : VF :=
  { dt := BitVec.ofNat 4 (w.toNat / 2 ^ 52), vd := BitVec.ofNat 5 (w.toNat / 2 ^ 47), va := BitVec.ofNat 5 (w.toNat / 2 ^ 42),
    vb := BitVec.ofNat 5 (w.toNat / 2 ^ 37), msk := BitVec.ofNat 3 (w.toNat / 2 ^ 34), mz := w.getLsbD 33,
    sat := w.getLsbD 32, imm := BitVec.ofNat 32 w.toNat }

/-- Lane i of a vector register. -/
def Core.lane (c : Core) (r i : Nat) : W32 := tget 0 c.v (64 * r + i)

/-- A mask register; M0 reads as all ones (R163). -/
def Core.mask (c : Core) (k : Nat) : W64 := if k = 0 then 0xFFFFFFFFFFFFFFFF else tget 0 c.m k

/-- A scalar register; S0 reads 0 (R163). -/
def Core.scalar (c : Core) (k : Nat) : W32 := if k = 0 then 0 else tget 0 c.sc k

/-- Writes to M0 and to S0 are ignored (R163). -/
def Core.setMask (c : Core) (k : Nat) (v : W64) : Core := if k = 0 then c else { c with m := tset 0 c.m k v }
def Core.setScalar (c : Core) (k : Nat) (v : W32) : Core := if k = 0 then c else { c with sc := tset 0 c.sc k v }

/-- Whether a lane is enabled. -/
def Core.enabled (c : Core) (f : VF) (i : Nat) : Bool := (c.mask f.msk.toNat).getLsbD i

/-- The integer that a lane holds in a format: its low bits (R163). -/
def laneInt (dt : Nat) (w : W32) : Int := intOf dt w.toNat

/-- An integer as a lane holds it. -/
def ofLane (v : Int) : W32 := BitVec.ofInt 32 v

/-- IMM read in DT (R166). -/
def immLane (dt : Nat) (imm : W32) : W32 := if fmtIsInt dt then ofLane (intOf dt imm.toNat) else imm

/-- Lane i of the second source: IMM in every lane where VB is 31 (R165). -/
def Core.laneB (c : Core) (f : VF) (i : Nat) : W32 :=
  if f.vb = 31 then immLane f.dt.toNat f.imm else c.lane f.vb.toNat i

/-- A vector register with 64 lanes written. -/
def Core.setVec (c : Core) (r : Nat) (g : Nat → W32) : Core :=
  { c with v := (List.range 64).foldl (fun t i => tset 0 t (64 * r + i) (g i)) c.v }

/-- The result of a per-lane operation: enabled lanes are written, the others keep VD or become 0 (R165, R167). -/
def Core.setLanes (c : Core) (f : VF) (g : Nat → W32) : Core :=
  let r := f.vd.toNat
  c.setVec r fun i => if c.enabled f i then g i else if f.mz then 0 else c.lane r i

/-- The base address of a load or a store: a scalar register and IMM[23:0] (R166). -/
def Core.base (c : Core) (f : VF) (k : Nat) : Nat := (c.scalar (k % 16)).toNat + fld f.imm 23 0

/-- Byte address of element i from a base, and the nibble for 4-bit formats (R159, R166). -/
def elemAddr (dt base i : Nat) : Nat := base + i * fmtWidth dt / 8

/-- Whether an access of a number of bytes lies in one of the core's memories and is aligned (R164, R166, R169). -/
def accessOk (a n : Nat) : Bool :=
  decide (a % n = 0) && (decide (a + n ≤ 0x400000) || decide (0x400000 ≤ a ∧ a + n ≤ 0x480000))

/-- The place of a core's address in the store of core memories. -/
def coreKey (c a : Nat) : Nat := c * 2 ^ 23 + a

/-- Bytes of a core's memory. -/
def coreBytes (s : State) (c a n : Nat) : List Byte := bytesAt s.coreMem (coreKey c a) n
def corePut (s : State) (c a : Nat) (l : List Byte) : State :=
  { s with coreMem := putBytes s.coreMem (coreKey c a) l }

/-- A raw element of a core's memory. -/
def coreElem (s : State) (c dt base i : Nat) : Nat :=
  let a := elemAddr dt base i
  if fmtWidth dt = 4 then numAt s.coreMem (coreKey c a) 1 / 2 ^ (4 * (i % 2)) % 16
  else numAt s.coreMem (coreKey c a) (fmtWidth dt / 8)

/-- A raw element written; a 4-bit store leaves the other nibble of its byte. -/
def coreElemPut (s : State) (c dt base i raw : Nat) : State :=
  let a := elemAddr dt base i
  if fmtWidth dt = 4 then
    let old := numAt s.coreMem (coreKey c a) 1
    let v := if i % 2 = 0 then old / 16 * 16 + raw % 16 else raw % 16 * 16 + old % 16
    corePut s c a (leBytes 1 v)
  else corePut s c a (leBytes (fmtWidth dt / 8) raw)

end Sys2Proof.Machine
end

