-- ==== Sys2Proof/Machine/Clock.lean ====
section
/-! DEFINITION. The timebase: the tick, the disciplining by PTM and PPS (R214 to R218), and the TB_OUT pin (R219). -/

namespace Sys2Proof.Machine

open Sys2Proof

def modBelv (s : State) (f : Belv → Belv) : State := { s with belv := f s.belv }

/-- BLV_CTRL.LT_EN (R238). -/
def ltEn (s : State) : Bool := rbit s pgBlv0 0x40 0

/-- BLV_TB_SRC.SRC (R215). -/
def tbSrc (s : State) : Nat := rfld s pgBlv0 0x44 1 0

/-- HSK_STATE.RINGS_ACTIVE: whether at least one ring is enabled (R57). -/
def ringsActive (s : State) : Bool := s.rings.any fun r => r.2.st != .disabled

/-- One nanosecond of SYSCLK: TB advances at the rate in force and never decreases (R214, R215). A command of SEC1 that ran in the last one
has ended (R400; DESIGN CHOICE, log 20). While the module is held in reset no time passes (R433). -/
def tick (s : State) : State :=
  if s.pwr.held then s
  else
    let f := s.belv.frac + 1000000000 + s.belv.rate
    modBelv { s with sec := { s.sec with busy := false } } fun b =>
      { b with tb := b.tb + (f / 1000000000).toNat, frac := f % 1000000000 }

/-! ### What a load of TB does to stored instants (R216) -/

/-- An instant moved with TB, so that the physical time from it to now, or from now to it, stays what it was. The manual
restarts the intervals that it names at a backward load, and is silent on the other times under way, which are physical
durations that TB's value does not change (DESIGN CHOICE, log 39). -/
def moved (old new t : Nat) : Nat := t + new - old
def movedBack (old new : Nat) (t : Int) : Int := t + new - old

/-- The reads, changes and calibrations under way of an engine. -/
def Engine.moveTb (m : Nat → Nat) (b : Int → Int) (e : Engine) : Engine :=
  { e with
    freeAt := m e.freeAt, calBegin := m e.calBegin, calEnd := e.calEnd.map m
    pend := e.pend.map fun p => (p.1, m p.2)
    flights := e.flights.map fun f => { f with start := b f.start } }

/-- The housekeeping schedule, the hold and the crossings of a die, and its coefficient write. -/
def Die.moveTb (m : Nat → Nat) (b : Int → Int) (d : Die) : Die :=
  { d with hkNext := d.hkNext.map m, holdTill := d.holdTill.map m, resetsAt := d.resetsAt.map b, savedAt := b d.savedAt }

/-- A pulse and the high intervals of a strobe output. -/
def Strobe.moveTb (m : Int → Int) (x : Strobe) : Strobe :=
  { x with rise := m x.rise, until_ := m x.until_, past := x.past.map fun p => (m p.1, m p.2) }

/-- The end of a setpoint output's ramp. -/
def Dac.moveTb (m : Nat → Nat) (x : Dac) : Dac := { x with ramp := x.ramp.map m }

def Seq.moveTb (m : Int → Int) (x : Seq) : Seq := { x with at_ := m x.at_ }

/-- The sequences and the conversion of a converter. -/
def Conv.moveTb (m : Int → Int) (x : Conv) : Conv :=
  { x with
    reg := x.reg.map fun q => q.moveTb m, regNext := x.regNext.map fun q => q.moveTb m
    inj := x.inj.map fun q => q.moveTb m, injNext := x.injNext.map fun q => q.moveTb m
    busy := x.busy.map fun b => (b.1, b.2.1, m b.2.2) }

/-- Every physical time under way in the module moves with TB; a step of the start-up and the patrol scrub among them. -/
def moveInstants (s : State) (m : Nat → Nat) (b : Int → Int) : State :=
  let s := mapEngines s (fun _ => true) (Engine.moveTb m b)
  { s with
    dies := tmap Die.zero (Die.moveTb m b) s.dies
    isu := { s.isu with
      stb := tmap Strobe.zero (Strobe.moveTb b) s.isu.stb
      dac := tmap Dac.zero (Dac.moveTb m) s.isu.dac
      conv := tmap Conv.zero (Conv.moveTb b) s.isu.conv }
    pwr := { s.pwr with pavNext := s.pwr.pavNext.map m, ranAt := b s.pwr.ranAt }
    scrubAt := b s.scrubAt
    boot := { s.boot with stepAt := b s.boot.stepAt, startAt := b s.boot.startAt, relink := s.boot.relink.map b }
    bus := { s.bus with perstAt := b s.bus.perstAt }
    belv := { s.belv with fallAt := m s.belv.fallAt, syncAt := m s.belv.syncAt, outAt := none, us := s.belv.tb / 1000, issued := 0 } }

/-- After a backward load, every interval measured in TB from an earlier instant restarts at the load (R216): the period
and grace times of calibration, the sweep intervals, the stream watchdogs, the PTM and PPS timing, the governor's
microsecond. -/
def restartIntervals (s : State) : State :=
  let t := s.belv.tb
  let s := mapEngines s (fun _ => true) fun e => { e with calFrom := t, dueAt := t, charged := 0 }
  { s with
    dies := tmap Die.zero (fun d => { d with govUs := t / 1000, tickUs := 0, used := 0, waited := false, sweep := { d.sweep with since := t } }) s.dies
    streams := tmap Stream.zero (fun r => { r with watchAt := t, lastEnd := r.lastEnd.map fun _ => t }) s.streams
    belv := { s.belv with ptmAt := t, ppsAt := s.belv.ppsAt.map fun _ => t } }

/-- TB is moved at once (R216): what is under way goes on from the new value, and a backward load restarts the intervals. -/
def loadTb (s : State) (v : Nat) : State :=
  let old := s.belv.tb
  let s := moveInstants (modBelv s fun b => { b with tb := v, frac := 0 }) (moved old v) (movedBack old v)
  if v < old then restartIntervals s else s

/-- Whether TB may be moved to a value at once: LT_EN is 0, and a move backward needs every ring disabled (R216). -/
def mayLoad (s : State) (v : Nat) : Bool := !ltEn s && (decide (s.belv.tb ≤ v) || !ringsActive s)

/-- A 64-bit write of BLV_TB_SET (R216): it loads TB while SRC is FREE and the move is permitted; otherwise it is refused
and sets TB_SET_REFUSED. -/
def tbSet (s : State) (v : Nat) : State :=
  if tbSrc s = 0 ∧ mayLoad s v = true then loadTb s v else ev s pgBlv0 9 0

/-- An offset as BLV_OFFSET holds it (R238). -/
def heldOffset (o : Int) : Int := clampInt (-2147483647) 2147483647 o

/-- The slew rate chosen for an offset: toward the target and within 200 ppm; at the limit while the offset is 1 ms or
more with LT_EN at 1. The manual gives no other rule, so the rate is otherwise free (R215, log 12). -/
def slewFor (s : State) (o : Int) : Int :=
  if o = 0 then 0
  else
    let m : Int := if ltEn s ∧ 1000000 ≤ o.natAbs then 200000 else ((Config.freeNat s.free % 200001 : Nat) : Int)
    if 0 < o then m else -m

/-- A correction with a measured offset (R215): it ends holdover, moves LOCK, and sets the rate in force. -/
def correct (s : State) (o : Int) : State :=
  let good := if o.natAbs < 100 then s.belv.good + 1 else 0
  let lock := (s.belv.lock || decide (4 ≤ good)) && decide (o.natAbs < 1000)
  let rate := slewFor s o
  let s := { modBelv s (fun b => { b with offset := heldOffset o, good := good, lock := lock, holdover := false, missed := 0,
                                          jump := false, rate := rate }) with free := s.free + 1 }
  if ltEn s ∧ 1000000 ≤ o.natAbs then ev s pgBlv0 5 0 else s

/-- The first correction after a change of SRC with LT_EN at 0 loads the target; TB goes backward only while no ring is
enabled, and otherwise slews (R216). -/
def correctTo (s : State) (target : Nat) : State :=
  let o : Int := (target : Int) - s.belv.tb
  if s.belv.jump ∧ mayLoad s target = true then
    loadTb (modBelv (correct s o) fun b => { b with rate := 0 }) target
  else correct s o

/-- Whether TB is disciplined in the present power state: RUN, READY, DOZE and NAP (R218). -/
def disciplined (s : State) : Bool :=
  match s.pwr.st with
  | .run | .ready | .doze | .nap => true
  | .sleep | .vigil => false

/-- A PTM request goes out every PTM_PERIOD ms; one still unanswered then counts as missed (R215). -/
def ptmRequestOp (s : State) : State :=
  if tbSrc s = 1 ∧ disciplined s = true ∧ s.belv.ptmAt + rfld s pgBlv0 0x44 31 24 * 1000000 ≤ s.belv.tb then
    modBelv s fun b => { b with ptmOpen := true, ptmAt := b.tb, missed := if b.ptmOpen then b.missed + 1 else b.missed }
  else s

/-- A PTM answer is a correction toward the master's time (R215). -/
def ptmResponseOp (s : State) (master : Nat) : State :=
  if tbSrc s = 1 ∧ disciplined s = true ∧ s.belv.ptmOpen then
    correctTo (modBelv s fun b => { b with ptmOpen := false }) master
  else s

/-- The multiple of 10^9 nearest to a TB value. -/
def nearestSecond (t : Nat) : Nat := (t + 500000000) / 1000000000 * 1000000000

/-- A rising edge of TB_PPS (R215): an edge 100 µs or more away is ignored after LOCK and counted, unless it is the first after a
change of SRC, which loads TB (R216). -/
def ppsEdgeOp (s : State) : State :=
  if tbSrc s = 2 ∧ disciplined s = true then
    let target := nearestSecond s.belv.tb
    let o : Int := (target : Int) - s.belv.tb
    if s.belv.lock ∧ 100000 ≤ o.natAbs ∧ ¬(s.belv.jump = true ∧ mayLoad s target = true) then count s pgBlv0 0x88 1
    else
      let s := correctTo s target
      modBelv s fun b => { b with ppsAt := some b.tb }
  else s

/-- Holdover: four PTM requests unanswered in a row, or no PPS edge within 1.5 s of the last (R215). -/
def holdoverOp (s : State) : State :=
  let lost := if tbSrc s = 1 then decide (4 ≤ s.belv.missed)
    else if tbSrc s = 2 then match s.belv.ppsAt with
      | some t => decide (t + 1500000000 ≤ s.belv.tb)
      | none => false
    else false
  if disciplined s ∧ lost = true ∧ s.belv.holdover = false then
    ev (modBelv s fun b => { b with holdover := true, lock := false, good := 0 }) pgBlv0 4 0
  else s

/-- TB_OUT rises within 5 ns of each TB value that is a multiple of 10^9, once for each (R219). -/
def tbOutRiseOp (s : State) : State :=
  let m := nearestSecond s.belv.tb
  if rbit s pgBlv0 0x40 1 ∧ s.belv.tbOut = false ∧ (s.belv.tb + 5) % 1000000000 ≤ 10 ∧ s.belv.outAt ≠ some m then
    modBelv s fun b => { b with tbOut := true, outAt := some m, fallAt := b.tb + rfld s pgBlv0 0x64 23 0 }
  else s

/-- TB_OUT falls BLV_TBOUT.WIDTH ns after it rose (R219). -/
def tbOutFallOp (s : State) : State :=
  if s.belv.tbOut ∧ s.belv.fallAt ≤ s.belv.tb then modBelv s fun b => { b with tbOut := false } else s

/-- A change of SRC: the next correction is the first after it (R216), and FREE follows SYSCLK alone (R215). -/
def srcChanged (s : State) (src : Nat) : State :=
  modBelv s fun b => { b with jump := !ltEn s, ptmOpen := false, missed := 0, ptmAt := b.tb, ppsAt := none, good := 0,
                              rate := if src = 0 then 0 else b.rate }

def execPtmRequest (s : State) : Host.Outcome State Fault Refusal := done (ptmRequestOp s)
def execPtmResponse (master : Nat) (s : State) : Host.Outcome State Fault Refusal := done (ptmResponseOp s master)
def execPpsEdge (s : State) : Host.Outcome State Fault Refusal := done (ppsEdgeOp s)
def execHoldover (s : State) : Host.Outcome State Fault Refusal := done (holdoverOp s)
def execTbOutRise (s : State) : Host.Outcome State Fault Refusal := done (tbOutRiseOp s)
def execTbOutFall (s : State) : Host.Outcome State Fault Refusal := done (tbOutFallOp s)

end Sys2Proof.Machine
end

