-- ==== Sys2Proof/Machine/Launch.lean ====
section
/-! DEFINITION. The launch table of Belvedere: entries and their window (R222, R226, R240), enabling (R440), triggers
(R223, R224, R228) and lateness (R230). What an action does stands in Action.lean. -/

namespace Sys2Proof.Machine

open Sys2Proof

/-! ### Fields of an entry (R222, R225) -/

def Entry.en (e : Entry) : Bool := bit e.d0 31
def Entry.lateSkip (e : Entry) : Bool := bit e.d0 30
def Entry.oneshot (e : Entry) : Bool := bit e.d0 29 || fld e.d0 27 24 == 0
def Entry.trig (e : Entry) : Nat := fld e.d0 27 24
def Entry.delay (e : Entry) : Nat := max (fld e.d0 23 0) 32
def Entry.action (e : Entry) : Nat := fld e.d3 31 28
def Entry.arg (e : Entry) (hi lo : Nat) : Nat := fld e.d3 hi lo

/-- COMMIT and CAL_WINDOW are dispatched 2,000 ns ahead of their instant (R225). -/
def Entry.lead (e : Entry) : Bool := e.action == 4 || e.action == 6

/-- The value of an AT entry, or PHASE of an EVERY entry. -/
def Entry.value (e : Entry) : Nat := if e.trig = 0 then e.d1.toNat + e.d2.toNat * 2 ^ 32 else e.d2.toNat

/-- The TB value at which a trigger value makes its entry fire: the value itself, or the dispatch point of a lead action
where that is earlier (R228, R440). -/
def Entry.trigPoint (e : Entry) (v : Nat) : Nat := if e.lead then min v (v + e.delay - 2000) else v

/-- The TB value from which a pending firing may be issued: its instant, or its dispatch point (R228, R229). -/
def Entry.due (e : Entry) (f : Firing) : Nat := if e.lead then f.t - 2000 else f.t

/-- The entry with EN cleared (R222, R226). -/
def Entry.disable (e : Entry) : Entry := { e with d0 := e.d0 &&& ~~~maskOf 31 31 }

/-- Whether triggers are being judged: LT_EN is 1, and the power state is NAP or above (R228, R238). -/
def launchOn (s : State) : Bool := ltEn s && s.belv.judging

/-! ### Enabling and firing -/

/-- The first trigger value of an EVERY entry enabled now: the earliest PHASE + k × PERIOD whose judging point is not
earlier (R440). -/
def Entry.firstValue (e : Entry) (now : Nat) : Nat :=
  let b := if e.lead then now + 2000 - e.delay else now
  if b ≤ e.value then e.value else e.value + ceilDiv (b - e.value) (max e.d1.toNat 1) * e.d1.toNat

/-- An entry at its enabling (R440). -/
def Entry.enable (e : Entry) (now : Nat) : Entry :=
  if e.trig = 0 then { e with armed := true, next := e.value }
  else if e.trig = 1 then { e with armed := true, next := e.firstValue now }
  else { e with armed := false, next := 0 }

/-- An entry whose trigger event occurs at a TB value fires, unless a firing is already pending (R228, R229). -/
def fireEntry (s : State) (n t : Nat) : State :=
  let e := entryAt s n
  match e.pend with
  | some _ => ev (count s pgBlv0 0x7C 1) pgBlv0 1 n
  | none => putEntry s n { e with pend := some ⟨t + e.delay, false⟩ }

/-- Every enabled entry that an event triggers fires, in ascending index; nothing is judged while LT_EN is 0. -/
def fireWhere (s : State) (p : Entry → Bool) (t : Nat) : State :=
  if launchOn s then
    s.entries.foldl (fun s e => if e.2.en && p e.2 then fireEntry s e.1 t else s) s
  else s

/-- Whether the frame selection word of an entry selects frame f (R224). -/
def Entry.frameSel (e : Entry) (f : Nat) : Bool :=
  let m := 2 ^ fld e.d2 20 16
  f % m == fld e.d2 15 0 % m

/-- A line event of index l in frame f of a stream (R223). -/
def triggerLine (s : State) (stream l f t : Nat) : State :=
  fireWhere s (fun e => e.trig == 2 && fld e.d1 20 16 == stream && fld e.d1 15 0 == l && e.frameSel f) t

/-- A frame end event of a stream in frame f (R223). -/
def triggerFrameEnd (s : State) (stream f t : Nat) : State :=
  fireWhere s (fun e => e.trig == 3 && fld e.d1 20 16 == stream && e.frameSel f) t

/-- An edge of a strobe output at its pin (R223). -/
def triggerStrobe (s : State) (out : Nat) (falling : Bool) (t : Nat) : State :=
  fireWhere s (fun e => e.trig == 4 && fld e.d1 17 16 == out && bit e.d1 0 == falling) t

/-- The issue of an entry's action fires the CHAIN entries that name it (R223). -/
def triggerChain (s : State) (n t : Nat) : State := fireWhere s (fun e => e.trig == 5 && fld e.d1 14 0 == n) t

/-- TB has reached an AT entry's value, or the entry was enabled with it passed (R223, R440). -/
def atTriggerOp (s : State) (n : Nat) : State :=
  let e := entryAt s n
  if launchOn s ∧ e.en ∧ e.trig = 0 ∧ e.armed ∧ e.trigPoint e.next ≤ s.belv.tb then
    fireEntry (putEntry s n { e with armed := false }) n e.next
  else s

/-- TB has reached an EVERY entry's next trigger value (R223). -/
def everyTriggerOp (s : State) (n : Nat) : State :=
  let e := entryAt s n
  if launchOn s ∧ e.en ∧ e.trig = 1 ∧ e.armed ∧ e.trigPoint e.next ≤ s.belv.tb then
    fireEntry (putEntry s n { e with next := e.next + e.d1.toNat }) n e.next
  else s

/-! ### Lateness (R230) -/

/-- Whether a pending firing is late now: TB is more than TOL after its instant or dispatch point. -/
def lateNow (s : State) (e : Entry) (f : Firing) : Bool :=
  decide (e.due f + rfld s pgBlv0 0x60 15 0 < s.belv.tb)

/-- An entry whose action was issued or skipped: FIRES counts, and EN clears under ONESHOT (R222, R240). -/
def Entry.spent (e : Entry) (late skipped : Bool) : Entry :=
  let e := { e with pend := none, lastLate := late, lastSkip := skipped, fires := e.fires + 1 }
  if e.oneshot then e.disable else e

/-- A pending firing that has become late is judged: it is skipped under LATE_SKIP, and otherwise waits to be issued. -/
def judgeLate (s : State) (n : Nat) : State :=
  let e := entryAt s n
  match e.pend with
  | none => s
  | some f =>
    if f.late = false ∧ lateNow s e f = true then
      let s := ev (count s pgBlv0 0x74 1) pgBlv0 0 n
      if e.lateSkip then putEntry (count s pgBlv0 0x78 1) n (e.spent true true)
      else putEntry s n { e with pend := some { f with late := true }, lastLate := true }
    else s

def lateJudgementOp (s : State) (n : Nat) : State := if launchOn s then judgeLate s n else s

/-! ### The issue of an action (R229) -/

/-- The actions issued in the present microsecond. -/
def issuedNow (s : State) : Nat := if s.belv.us = s.belv.tb / 1000 then s.belv.issued else 0

/-- The firings that are due and not to be skipped, as their instants and entries. -/
def dueFirings (s : State) : List (Nat × Nat) :=
  s.entries.filterMap fun x => match x.2.pend with
    | none => none
    | some g =>
      if x.2.due g ≤ s.belv.tb ∧ (x.2.lateSkip && lateNow s x.2 g) = false then some (x.2.due g, x.1) else none

/-- Whether a due firing is among those that the microsecond has room for, in order of instant, then of ascending
entry index (R229). -/
def hasRoom (s : State) (due n : Nat) : Bool :=
  decide (((dueFirings s).filter fun a => decide (a.1 < due) || (a.1 == due && decide (a.2 < n))).length
    < 64 - issuedNow s)

/-- Whether an entry's firing is the next to issue: it is due, its microsecond has room for it, and no firing that is
issued in the same cycle stands in a lower entry: the actions of one cycle reach their units in ascending entry index
(R229). -/
def mayIssue (s : State) (n : Nat) (f : Firing) : Bool :=
  let e := entryAt s n
  launchOn s && decide (e.due f ≤ s.belv.tb) && hasRoom s (e.due f) n &&
  (dueFirings s).all fun a => decide (n ≤ a.2) || !hasRoom s a.1 a.2

/-- An issue takes a place of its microsecond, counts in BLV_FIRE and leaves the entry spent. -/
def takeIssue (s : State) (n : Nat) (f : Firing) : State :=
  let e := entryAt s n
  let s := modBelv s fun b => { b with us := b.tb / 1000, issued := issuedNow s + 1 }
  putEntry (count64 s pgBlv0 0x6C 1) n (e.spent f.late false)

/-- An action with no effect (R231). -/
def noEffect (s : State) (n : Nat) : State := ev (count s pgBlv0 0x80 1) pgBlv0 2 n

/-! ### LT_EN and the window (R226, R240, R440) -/

/-- Every pending firing is discarded. -/
def discardAll (s : State) : State := { s with entries := tmap Entry.zero (fun e => { e with pend := none }) s.entries }

/-- A write of LT_EN: a rise enables every entry whose EN is 1; 0 discards every pending firing (R238, R440). -/
def ltEnChanged (s : State) (old new : Bool) : State :=
  if new ∧ old = false then
    { s with entries := tmap Entry.zero (fun e => if e.en then e.enable s.belv.tb else e) s.entries }
  else if new = false then discardAll s
  else s

/-- A write of LT_INDEX takes a snapshot of the entry (R226). -/
def ltSnapshot (s : State) : State :=
  let e := entryAt s (rfld s pgBlv2 0x40 14 0)
  let s := rset (rset (rset (rset s pgBlv2 0x44 e.d0) pgBlv2 0x48 e.d1) pgBlv2 0x4C e.d2) pgBlv2 0x50 e.d3
  let s := rset s pgBlv2 0x58
    (putBit 31 e.pend.isSome ||| putBit 30 e.lastLate ||| putBit 29 e.lastSkip ||| put 15 0 e.fires.toNat)
  rset64 s pgBlv2 0x5C (match e.pend with | some f => f.t | none => 0)

/-- Whether staged words whose EN is 1 make a permitted entry (R226). -/
def entryPermitted (d0 d1 d2 d3 : W32) : Bool :=
  let e : Entry := { Entry.zero with d0 := d0, d1 := d1, d2 := d2, d3 := d3 }
  let z := fun (w : W32) (hi lo : Nat) => fld w hi lo == 0
  !bit d0 28 &&
  (match e.trig with
    | 0 => true
    | 1 => decide (1000 ≤ d1.toNat)
    | 2 => z d1 31 21 && z d2 31 21 && decide (fld d2 20 16 ≤ 16)
    | 3 => z d1 31 21 && z d1 15 0 && z d2 31 21 && decide (fld d2 20 16 ≤ 16)
    | 4 => z d1 31 18 && z d1 15 1 && z d2 31 0
    | 5 => z d1 31 15 && z d2 31 0
    | _ => false) &&
  (match e.action with
    | 0 => z d3 15 13
    | 1 => z d3 27 6
    | 2 => z d3 27 4
    | 3 => z d3 27 22 && fld d3 21 2 != 0
    | 4 => z d3 27 4
    | 5 => z d3 27 11
    | 6 => z d3 27 4
    | _ => false) &&
  (!e.lead || decide (e.trig ≤ 1) || decide (2000 ≤ fld d0 23 0))

/-- A pending firing of an entry is discarded and counted (R226). -/
def discardPend (s : State) (n : Nat) : State :=
  let e := entryAt s n
  if e.pend.isSome then putEntry (count s pgBlv0 0x8C 1) n { e with pend := none } else s

/-- A write of 1 to LT_CMD.WRITE (R226). -/
def ltWrite (s : State) : State :=
  let n := rfld s pgBlv2 0x40 14 0
  let d0 := rget s pgBlv2 0x44
  let d1 := rget s pgBlv2 0x48
  let d2 := rget s pgBlv2 0x4C
  let d3 := rget s pgBlv2 0x50
  if bit d0 31 ∧ entryPermitted d0 d1 d2 d3 = false then ev s pgBlv0 7 n
  else
    let s := discardPend (imageWritten s 4 0) n
    let e := { entryAt s n with d0 := d0, d1 := d1, d2 := d2, d3 := d3, armed := false, next := 0 }
    putEntry s n (if e.en && ltEn s then e.enable s.belv.tb else e)

/-- A write of LT_CMD (R226, R240). -/
def ltCmd (s : State) (w : W32) : State :=
  let s := if bit w 1 then discardPend s (rfld s pgBlv2 0x40 14 0) else s
  if bit w 0 then ltWrite s else s

/-- An uncorrectable error in an entry clears EN and discards its firing (R227). -/
def entryUeOp (s : State) (n : Nat) : State :=
  ev (putEntry s n { (entryAt s n).disable with pend := none }) pgBlv0 8 n

/-- On the return from SLEEP, EVERY entries resume at their next future value, and values passed while asleep fire
nothing. -/
def resumeLaunch (s : State) : State :=
  let now := s.belv.tb
  { s with
    belv := { s.belv with judging := true }
    entries := tmap Entry.zero (fun e => if e.en && e.trig == 1 then e.enable now
      else if e.armed && decide (e.trigPoint e.next < now) then { e with armed := false } else e) s.entries }

/-- On entry to SLEEP or VIGIL, judging stops and every pending firing is discarded. -/
def stopLaunch (s : State) : State :=
  let s := discardAll s
  { s with belv := { s.belv with judging := false } }

def execAtTrigger (entry : Nat) (s : State) : Host.Outcome State Fault Refusal := done (atTriggerOp s entry)
def execEveryTrigger (entry : Nat) (s : State) : Host.Outcome State Fault Refusal := done (everyTriggerOp s entry)
def execLateJudgement (entry : Nat) (s : State) : Host.Outcome State Fault Refusal := done (lateJudgementOp s entry)
def execEntryUe (entry : Nat) (s : State) : Host.Outcome State Fault Refusal := done (entryUeOp s entry)

end Sys2Proof.Machine
end

