-- ==== Sys2Proof/Machine/Rings.lean ====
section
/-! DEFINITION. Host software's side of the Zedor protocol: the handshake (R57, R58), rings and their registers (R261 to
R264, R285), doorbells (R265, R266), reading, readiness and dispatch of descriptors (R267 to R272), completion records,
head and summary words (R273 to R281). -/

namespace Sys2Proof.Machine

open Sys2Proof

/-! ### The handshake (R57, R58, R259, R260) -/

/-- The Zedor version in force; 0 when none is selected. -/
def version (s : State) : Nat := rfld s pgHsk 0x44 3 0

/-- Whether a feature bit is in force (R260). -/
def feature (s : State) (b : Nat) : Bool := rbit s pgHsk 0x50 b

/-- The features that a version permits among those offered (R260). -/
def permitted (v : Nat) : W32 :=
  if v = 1 then 0x27 else if v = 2 then 0x2F else if v = 3 then 0x3F else 0

/-- A write of HSK_SELECT (R58). -/
def hskSelect (s : State) (v : Nat) : State :=
  if ringsActive s = false ∧ v ≤ 3 then
    let f := rget s pgHsk 0x50
    let f' := f &&& permitted v
    let s := rset (rset s pgHsk 0x44 (put 3 0 v)) pgHsk 0x50 f'
    if f' = f then s else ev s pgHsk 1 0
  else ev s pgHsk 0 0

/-- A write of HSK_FEAT_SELECT_HI with the 64-bit selection it completes: a requested bit or a bit in force that it removes sets
BAD_FEATURE (R58). -/
def hskFeat (s : State) (sel : Nat) : State :=
  if ringsActive s then ev s pgHsk 1 0
  else
    let old := rget s pgHsk 0x50
    let f := lo32 sel &&& permitted (version s)
    let s := rset (rset s pgHsk 0x50 f) pgHsk 0x54 0
    if f.toNat = sel ∧ old &&& f = old then s else ev s pgHsk 1 0

/-! ### Ring registers (R284, R285) -/

/-- The offset of a ring's slot in its page. -/
def slotOff (n : Nat) : Nat := n % 64 * 64
def rgGet (s : State) (n o : Nat) : W32 := rget s (pgRng n) (slotOff n + o)
def rgSet (s : State) (n o : Nat) (v : W32) : State :=
  rset (if o < 0x24 then imageWritten s 5 0 else s) (pgRng n) (slotOff n + o) v
def rg64 (s : State) (n o : Nat) : Nat := rget64 s (pgRng n) (slotOff n + o)
def timebound (s : State) (n : Nat) : Bool := bit (rgGet s n 0) 30
def prio (s : State) (n : Nat) : Nat := fld (rgGet s n 0) 26 24
def cqLog (s : State) (n : Nat) : Nat := fld (rgGet s n 0) 20 16
def sqLog (s : State) (n : Nat) : Nat := fld (rgGet s n 0) 12 8
def sqSize (s : State) (n : Nat) : Nat := 2 ^ sqLog s n
def cqSize (s : State) (n : Nat) : Nat := 2 ^ cqLog s n

/-- RING_STATE.STATE (R285). -/
def RingSt.code : RingSt → Nat
  | .disabled => 0 | .running => 1 | .stalled => 2 | .draining => 3 | .fault => 4

/-- Host memory with bytes written by the device. -/
def hostPut (s : State) (a : Nat) (l : List Byte) : State := { s with hostMem := putBytes s.hostMem a l }

/-- The configuration bits of RING_CTRL: TIMEBOUND, CQ_LOG and SQ_LOG (R263). -/
def ringCfgMask : W32 := 0x401F1F00

/-- An enable is permitted: a version is in force, both sizes lie in 6 to 16, and the addresses are not 0 (R263). -/
def mayEnable (s : State) (n : Nat) (w : W32) : Bool :=
  version s != 0 && decide (6 ≤ fld w 12 8 ∧ fld w 12 8 ≤ 16 ∧ 6 ≤ fld w 20 16 ∧ fld w 20 16 ≤ 16) &&
  rg64 s n 0x08 != 0 && rg64 s n 0x10 != 0 && rg64 s n 0x18 != 0

/-- Enabling a ring sets every index and ALIVE to 0 and writes the head word as 0 (R263). -/
def ringStart (s : State) (n : Nat) (w : W32) : State :=
  let s := rgSet s n 0 w
  let s := putRing s n { Ring.zero with st := .running }
  hostPut s (rg64 s n 0x18) (leBytes 8 0)

/-- A write of RING_CTRL with the value it would store (R263, R264). -/
def ringCtrl (s : State) (n : Nat) (w : W32) : State :=
  let r := ringAt s n
  let old := rgGet s n 0
  let keep := (old &&& ringCfgMask) ||| (w &&& 0x07000000)
  let flag := fun s => if w &&& ringCfgMask = old &&& ringCfgMask then s else ev s pgHdma 2 n
  match r.st with
  | .disabled =>
    if bit w 31 then (if mayEnable s n w then ringStart s n w else ev s pgHdma 2 n) else rgSet s n 0 w
  | .draining =>
    if bit w 31 then ev s pgHdma 2 n else flag (rgSet s n 0 keep)
  | .running | .stalled | .fault =>
    if bit w 31 then flag (rgSet s n 0 (keep ||| 0x80000000))
    else
      let s := flag (rgSet s n 0 keep)
      putRing s n { r with st := .draining, posted := [] }

/-- A write that reaches other configuration fields of a slot: they change only while the ring is DISABLED (R263). -/
def ringCfgWrite (s : State) (n o : Nat) (w : W32) : State :=
  if (ringAt s n).st = .disabled then rgSet s n o w
  else if w = rgGet s n o then s else ev s pgHdma 2 n

/-- A 64-bit write that reaches an address field of a slot (R43, R263). -/
def ringCfgWrite64 (s : State) (n o v : Nat) : State :=
  if (ringAt s n).st = .disabled then rset64 (imageWritten s 5 0) (pgRng n) (slotOff n + o) v
  else if v = rg64 s n o then s else ev s pgHdma 2 n

/-- A draining ring with nothing in flight becomes DISABLED (R264). -/
def ringDrainedOp (s : State) (n : Nat) : State :=
  let r := ringAt s n
  if r.st = .draining ∧ r.inflight = 0 then putRing s n { r with st := .disabled } else s

/-! ### Doorbells (R265, R266) -/

/-- The kind of the first check that a doorbell fails; 0 when it passes all (R266). -/
def doorbellKind (s : State) (n : Nat) (v : W64) : Nat :=
  let x := v.toNat
  let r := ringAt s n
  let tail := x % 2 ^ 16
  let head := x / 2 ^ 32 % 2 ^ 16
  let m := sqSize s n
  let c := cqSize s n
  if x / 2 ^ 48 ≠ fld (rgGet s n 4) 15 0 ∨ x / 2 ^ 16 % 2 ^ 13 ≠ n ∨ x / 2 ^ 29 % 8 ≠ 0 then 1
  else if r.st = .disabled ∨ r.st = .draining ∨ version s = 0 then 2
  else if m ≤ tail ∨ c ≤ head then 3
  else if m - 1 < (tail + m - r.tail) % m + (r.tail + m - r.sqHead) % m then 4
  else if (r.cqTail + c - r.cqHead) % c < (head + c - r.cqHead) % c then 5
  else 0

/-- Whether the completion area can reserve a slot for one more record (R269). -/
def areaRoom (s : State) (n : Nat) : Bool :=
  let r := ringAt s n
  let c := cqSize s n
  decide ((r.cqTail + c - r.cqHead) % c + r.inflight + 1 ≤ c - 1)

/-- A ring whose ready head finds no room in the completion area is STALLED (R269). -/
def stallCheck (s : State) (n : Nat) : State :=
  let r := ringAt s n
  match r.posted with
  | p :: _ =>
    if r.st = .running ∧ p.ready.isSome ∧ areaRoom s n = false then
      ev (count (putRing s n { r with st := .stalled }) pgHdma 0x64 1) pgHdma 1 n
    else s
  | [] => s

/-- A descriptor just posted in a slot. -/
def Posted.new (slot : Nat) : Posted :=
  { slot := slot, isRead := false, desc := Desc.zero, eligible := false, since := 0, gate := false, late := false,
    detail := 0, ready := none, missed := false }

/-- An accepted doorbell posts descriptors and releases records in one cycle (R266); a STALLED ring that gains room runs
again (R269). -/
def doorbell (s : State) (n : Nat) (v : W64) : State :=
  let k := doorbellKind s n v
  let r := ringAt s n
  if k ≠ 0 then
    ev (count (putRing s n { r with dbErr := k }) pgHdma 0x60 1) pgHdma 0 (k * 2 ^ 13 + n)
  else
    let x := v.toNat
    let tail := x % 2 ^ 16
    let m := sqSize s n
    let new := (List.range ((tail + m - r.tail) % m)).map fun i => Posted.new ((r.tail + i) % m)
    let s := putRing s n { r with tail := tail, cqHead := x / 2 ^ 32 % 2 ^ 16, posted := r.posted ++ new }
    let r := ringAt s n
    if r.st = .stalled ∧ areaRoom s n = true then putRing s n { r with st := .running } else s

/-! ### Descriptors (R270 to R272) -/

/-- A descriptor from its 64 bytes (R270). -/
def Desc.ofBytes (l : List Byte) : Desc :=
  { opc := BitVec.ofNat 8 (leAt l 0 1), flags := BitVec.ofNat 8 (leAt l 1 1), task := BitVec.ofNat 16 (leAt l 2 2),
    seq := BitVec.ofNat 32 (leAt l 4 4), epoch := BitVec.ofNat 32 (leAt l 8 4), trigger := BitVec.ofNat 16 (leAt l 0xC 2),
    acc := BitVec.ofNat 8 (leAt l 0xE 1), policy := BitVec.ofNat 8 (leAt l 0xF 1), inAddr := BitVec.ofNat 64 (leAt l 0x10 8),
    outAddr := BitVec.ofNat 64 (leAt l 0x18 8), auxAddr := BitVec.ofNat 64 (leAt l 0x20 8), lenM := BitVec.ofNat 32 (leAt l 0x28 4),
    param := BitVec.ofNat 32 (leAt l 0x2C 4), lenAddr := BitVec.ofNat 64 (leAt l 0x30 8), deadline := BitVec.ofNat 32 (leAt l 0x38 4),
    rsv := BitVec.ofNat 32 (leAt l 0x3C 4) }

/-- FLAGS of a descriptor (R270). -/
def Desc.inDev (d : Desc) : Bool := d.flags.getLsbD 0
def Desc.outDev (d : Desc) : Bool := d.flags.getLsbD 1
def Desc.auxDev (d : Desc) : Bool := d.flags.getLsbD 2
def Desc.noSum (d : Desc) : Bool := d.flags.getLsbD 3

/-- Whether the opcode is one of R271. -/
def opcKnown (o : Nat) : Bool :=
  decide (o = 1 ∨ o = 2 ∨ o = 3 ∨ (0x10 ≤ o ∧ o ≤ 0x14) ∨ o = 0x20 ∨ o = 0x21 ∨ o = 0x30 ∨ o = 0x3E ∨ o = 0x3F)

/-- The end of usable package memory: MEM_HOST_TOP (R326), or the window onto the ingest SRAM in a safe boot whose memory
training failed (R415). -/
def hostTop (s : State) : Nat := if s.boot.noDdr then 0x2000000 else 0xEF8000000 - s.nv.slowSize.toNat * 2 ^ 30

/-- The mask of FLAGS bits, and of the other fields, that an opcode uses (R271, R292 to R309). The list holds, in order:
flags, task, epoch, ACC_CLASS, POLICY, IN_ADDR, OUT_ADDR, AUX_ADDR, LEN_M, PARAM, LEN_ADDR. -/
def usedFields (o : Nat) : List Nat :=
  let all := 2 ^ 64 - 1
  if o = 1 then [0xF, all, all, 0xF, 1, all, all, all, all, 0, all]
  else if o = 2 then [8, 0, 0, 0, 0, 0, all, all, 0, all, 0]
  else if o = 3 then [8, 0, 0, 0, 0, all, 0, all, 0, all, 0]
  else if o = 0x10 ∨ o = 0x11 then [4, 0xF, 0, 0, 0, 0, 0, all, 0, all, 0]
  else if o = 0x12 then [0, 0xF, 0, 0, 0, 0, 0, all, 0, 0, 0]
  else if o = 0x13 ∨ o = 0x14 then [0, 0xF, 0, 0, 0, 0, 0, 0, 0, 0, 0]
  else if o = 0x20 then [0, 0, 0, 0, 0, 0, 0, 0, 0, all, 0]
  else if o = 0x21 then [0, 0, 0, 0, 0, 0, 0, 0, 0, 0xFFFF, 0]
  else if o = 0x30 then [0, 0, 0, 0, 0, 0, all, all, 0, all, 0]
  else [0, 0, 0, 0, 0, 0, 0, 0, 0, 0, 0]

/-- The values of those fields, in the same order. -/
def Desc.fields (d : Desc) : List Nat :=
  [d.flags.toNat, d.task.toNat, d.epoch.toNat, d.acc.toNat, d.policy.toNat, d.inAddr.toNat, d.outAddr.toNat,
   d.auxAddr.toNat, d.lenM.toNat, d.param.toNat, d.lenAddr.toNat]

/-- Whether every bit that the opcode does not use, or that the version lacks, is 0 (R259, R271). -/
def fieldsOk (v : Nat) (d : Desc) : Bool :=
  ((d.fields.zip (usedFields d.opc.toNat)).all fun e => e.1 &&& e.2 == e.1) && d.rsv == 0 &&
  (decide (2 ≤ v) || d.epoch == 0) && (decide (3 ≤ v) || d.lenAddr == 0)

/-- The dies built into the member, as a mask. -/
def presentMask (s : State) : BitVec 16 := BitVec.ofNat 16 (2 ^ s.part.member.dies - 1)

/-- The DETAIL of the first check of R272 that a descriptor fails when it is read; 0 when it passes all. -/
def descCheck (s : State) (d : Desc) : Nat :=
  let o := d.opc.toNat
  let top := hostTop s
  let range := fun a n => decide (a + n ≤ top)
  if opcKnown o = false then 0x50
  else if fieldsOk (version s) d = false then 0x51
  else if feature s 3 ∧ 0x8000 ≤ d.trigger.toNat ∧ d.trigger.toNat ≠ 0xFFFF then 0x52
  else if (o = 2 ∧ (d.outAddr = 0 ∨ d.auxAddr = 0 ∨ range d.auxAddr.toNat d.param.toNat = false)) ∨
      (o = 3 ∧ (d.inAddr = 0 ∨ d.auxAddr = 0 ∨ range d.auxAddr.toNat d.param.toNat = false)) ∨
      (o = 0x10 ∧ (d.auxAddr = 0 ∨ (d.auxDev ∧ range d.auxAddr.toNat d.param.toNat = false))) ∨
      (o = 0x11 ∧ (d.auxAddr = 0 ∨ (d.auxDev ∧ range d.auxAddr.toNat 64 = false))) ∨
      (o = 0x30 ∧ (d.auxAddr = 0 ∨ d.outAddr = 0)) then 0x53
  else if ((o = 2 ∨ o = 3 ∨ o = 0x10 ∨ o = 0x30) ∧ d.param = 0) ∨
      (o = 0x30 ∧ d.param.toNat < 3088) ∨
      (o = 0x20 ∧ (fld d.param 31 16 = 0 ∨ fld d.param 15 0 &&& (presentMask s).toNat = 0)) ∨
      (o = 0x21 ∧ fld d.param 15 0 &&& (presentMask s).toNat = 0) then 0x54
  else 0

/-! ### Reading and readiness (R267, R268) -/

/-- Whether a posted descriptor meets the first two conditions of readiness: read, and released if the ring is
time-bound. -/
def Posted.opened (tbnd : Bool) (p : Posted) : Bool := p.isRead && (!tbnd || p.eligible)

/-- Whether a posted descriptor is gated by the issue of a launch entry (R268, R260). -/
def Posted.gated (s : State) (p : Posted) : Bool :=
  feature s 3 && decide (p.desc.trigger.toNat ≤ 0x7FFF) && p.detail == 0

/-- The last issue of an entry's action: its TB and whether it was late, if it was ever issued. -/
def lastIssue (s : State) (n : Nat) : Option (Nat × Bool) :=
  let x := tget 0 s.launches n
  if x = 0 then none else some (x / 2 - 1, x % 2 == 1)

/-- A posted descriptor that has just met its first two conditions: its gate is met at once where its entry's action was
issued at this TB. -/
def openNow (s : State) (p : Posted) : Posted :=
  let p := { p with since := s.belv.tb }
  if p.gated s then
    match lastIssue s p.desc.trigger.toNat with
    | some (t, l) => if s.belv.tb ≤ t then { p with gate := true, late := p.late || l } else p
    | none => p
  else p

/-- The first element that a test selects, replaced. -/
def modFirst {α : Type} (t : α → Bool) (f : α → α) : List α → List α
  | [] => []
  | a :: l => if t a then f a :: l else a :: modFirst t f l

/-- The host DMA engine reads the oldest posted descriptor that is not read, up to 16 ahead of dispatch (R267). -/
def descriptorReadOp (s : State) (n : Nat) : State :=
  let r := ringAt s n
  if (r.st = .running ∨ r.st = .stalled) ∧ (r.posted.filter fun p => p.isRead).length < 16 then
    match r.posted.find? fun p => !p.isRead with
    | none => s
    | some q =>
      let d := Desc.ofBytes (bytesAt s.hostMem (rg64 s n 0x08 + 64 * q.slot) 64)
      let det := descCheck s d
      let q' := { q with isRead := true, desc := d, detail := det }
      let q' := if q'.opened (timebound s n) then openNow s q' else q'
      let s := putRing s n { r with posted := modFirst (fun p => !p.isRead) (fun _ => q') r.posted,
                                     sqHead := (q.slot + 1) % sqSize s n, headDue := true }
      if det = 0 then s else ev (count s pgHdma 0x68 1) pgHdma 3 n
  else s

/-- A RING_RELEASE makes waiting descriptors of a time-bound ring eligible, oldest first, up to a count (R229). -/
def releaseList (s : State) (late : Bool) : Nat → List Posted → List Posted
  | _, [] => []
  | 0, l => l
  | k + 1, p :: l =>
    if p.eligible then p :: releaseList s late (k + 1) l
    else
      let q := { p with eligible := true, late := p.late || late }
      (if q.isRead then openNow s q else q) :: releaseList s late k l

/-- Whether a RING_RELEASE has effect on a ring: enabled, RUNNING or STALLED, and time-bound (R229). -/
def releasable (s : State) (n : Nat) : Bool :=
  decide ((ringAt s n).st = .running ∨ (ringAt s n).st = .stalled) && timebound s n

def ringRelease (s : State) (n cnt : Nat) (late : Bool) : State :=
  let r := ringAt s n
  let k := if cnt = 0 then r.posted.length else cnt
  putRing s n { r with posted := releaseList s late k r.posted }

/-- The issue of an entry's action meets the gates of the descriptors that wait for it (R268). -/
def meetGates (s : State) (n : Nat) (late : Bool) : State :=
  let s := { s with launches := tset 0 s.launches n (2 * (s.belv.tb + 1) + if late then 1 else 0) }
  let f := fun (k : Nat) (p : Posted) =>
    if p.opened (timebound s k) && p.gated s && p.desc.trigger.toNat == n && !p.gate
    then { p with gate := true, late := p.late || late, since := s.belv.tb } else p
  { s with rings := tmapi Ring.zero (fun k r => { r with posted := r.posted.map (f k) }) s.rings }

/-- The oldest descriptor of a ring that is not ready becomes so, once every condition of R268 is met. -/
def descriptorReadyOp (s : State) (n : Nat) : State :=
  let r := ringAt s n
  if r.st = .running ∨ r.st = .stalled then
    match r.posted.find? fun p => p.ready.isNone with
    | none => s
    | some p =>
      if p.opened (timebound s n) ∧ (p.gated s = false ∨ p.gate = true) then
        let l := modFirst (fun q => q.ready.isNone) (fun q => { q with ready := some q.since }) r.posted
        stallCheck (putRing s n { r with posted := l }) n
      else s
  else s

/-! ### Requests -/

/-- The requests in flight across the device (R269, R283). -/
def inflight (s : State) : Nat := s.reqs.length

def modReq (s : State) (id : Nat) (f : Req → Req) : State :=
  match reqAt s id with
  | none => s
  | some q => putReq s id (some (f q))

/-- A request as DISPATCH begins it. -/
def Req.begin (n : Nat) (p : Posted) (tb : Nat) : Req :=
  { ring := n, desc := p.desc, readyAt := p.ready.getD tb, at_ := tb, late := p.late, missed := p.missed, frozen := false,
    phase := .dispatched, status := none, detail := 0, ran := false, epoch := 0, slot := 0, fin := 0, launch := 0, len := 0,
    clamped := false, qual := 0, satCnt := 0, repCnt := 0, doneTb := none, out := [], refusals := [], waitFor := [] }

/-- A request is finished: its outcome is decided and its record may be written. -/
def finishReq (s : State) (id : Nat) : State :=
  modReq s id fun q => if q.phase = .finished then q else
    { q with phase := .finished, fin := s.belv.tb, doneTb := some (q.doneTb.getD s.belv.tb) }

/-- A request takes an outcome: the first to occur stands (R279). -/
def setStatus (s : State) (id code : Nat) : State :=
  modReq s id fun q => if q.phase = .finished then q else { q with status := some (q.status.getD code) }

/-- A request takes an outcome with a DETAIL and finishes, with nothing of it run. -/
def refuseReq (s : State) (id code detail : Nat) : State :=
  finishReq (modReq (setStatus s id code) id fun q => { q with detail := detail }) id

/-- A request whose address range extends beyond usable package memory, which only its task or its manifest shows, is refused as a bad
descriptor (R272, R442). -/
def refuseRange (s : State) (id ring : Nat) : State := refuseReq (ev (count s pgHdma 0x68 1) pgHdma 3 ring) id 0x12 0x53

/-- Output bytes of a request as it last wrote them, kept for RESULT_CRC and for shared bytes (R273, R276, R443). -/
def noteOut (s : State) (id a : Nat) (l : List Byte) : State :=
  modReq s id fun q =>
    { q with doneTb := some s.belv.tb
             out := (l.zipIdx).foldl (fun t e => tset none t (a + e.2) (some e.1)) q.out }
def outPut (s : State) (id a : Nat) (l : List Byte) : State := noteOut (hostPut s a l) id a l

/-- Whether a FENCE of the ring is in flight (R271). -/
def fenced (s : State) (n : Nat) : Bool :=
  s.reqs.any fun e => match e.2 with
    | some q => q.ring == n && q.desc.opc == 0x3E
    | none => false

/-- Whether the head descriptor of a ring can be dispatched (R268, R269, R271). -/
def canDispatch (s : State) (n : Nat) : Bool :=
  let r := ringAt s n
  decide (r.st = .running ∨ r.st = .stalled) &&
  (match r.posted with | p :: _ => p.ready.isSome | [] => false) &&
  areaRoom s n && decide (inflight s < 4096) && !fenced s n

/-- The ring that arbitration serves: the lowest PRIO, and within it the first in ascending order from the ring after
the one last served (R269, log 14). -/
def arbitrate (s : State) : Option Nat :=
  let c := (s.rings.map fun r => r.1).filter fun n => canDispatch s n
  match (c.map fun n => prio s n).min? with
  | none => none
  | some p =>
    let l := c.filter fun n => prio s n == p
    let from_ := tget 0 s.rr p
    match l.find? fun n => decide (from_ ≤ n) with
    | some n => some n
    | none => l.head?

/-- The head descriptor of the ring that arbitration serves begins its request (R269); one that failed a check of R272
finishes at once with SHAPE_ILLEGAL. -/
def dispatchOp (s : State) : State :=
  match arbitrate s with
  | none => s
  | some n =>
    let r := ringAt s n
    match r.posted with
    | [] => s
    | p :: l =>
      let id := s.nextReq
      let s := putRing s n { r with posted := l, inflight := r.inflight + 1 }
      let s := { s with nextReq := id + 1, rr := tset 0 s.rr (prio s n) (n + 1) }
      let s := count64 (putReq s id (some (Req.begin n p s.belv.tb))) pgHdma 0x58 1
      let s := if p.detail = 0 then s else refuseReq s id 0x12 p.detail
      stallCheck s n

/-- The request of an opcode's row, if it is dispatched and waits for that row. -/
def takeReq (s : State) (id opc : Nat) : Option Req :=
  match reqAt s id with
  | some q => if q.phase = .dispatched ∧ q.desc.opc.toNat = opc then some q else none
  | none => none

/-- NOP completes at dispatch (R271). -/
def nopOp (s : State) (id : Nat) : State :=
  match takeReq s id 0x3F with
  | none => s
  | some _ => finishReq (modReq s id fun q => { q with ran := true }) id

/-- FENCE completes when every earlier descriptor of the ring has (R271). -/
def fenceOp (s : State) (id : Nat) : State :=
  match takeReq s id 0x3E with
  | none => s
  | some q =>
    if (s.reqs.any fun e => match e.2 with
        | some x => decide (e.1 < id) && x.ring == q.ring
        | none => false) then s
    else finishReq (modReq s id fun q => { q with ran := true }) id

/-- The bytes at a device address: package memory, or, in a safe boot whose memory training failed, the ingest SRAM below 32 MiB
(R415). -/
def devBytes (s : State) (a n : Nat) : List Byte := bytesAt (if s.boot.noDdr then s.ingest else s.pkgMem) a n

/-- READ_TENSOR copies package memory to host memory (R271). Poisoned data ends it with INTERNAL (R325). -/
def readTensorOp (s : State) (id : Nat) : State :=
  match takeReq s id 2 with
  | none => s
  | some q =>
    let a := q.desc.auxAddr.toNat
    let n := q.desc.param.toNat
    let s := modReq s id fun q => { q with ran := true }
    if s.boot.noDdr = false ∧ (s.poison.any fun e => decide (a / 64 ≤ e.1 ∧ e.1 ≤ (a + n - 1) / 64)) = true then
      finishReq (setStatus s id 0x7F) id
    else finishReq (outPut s id q.desc.outAddr.toNat (devBytes s a n)) id

/-- Package memory with bytes written: a whole block written anew holds good data (R325). -/
def pkgPut (s : State) (a : Nat) (l : List Byte) : State :=
  { s with
    pkgMem := putBytes s.pkgMem a l
    poison := s.poison.filter fun e => !(decide (a ≤ e.1 * 64 ∧ e.1 * 64 + 64 ≤ a + l.length)) }

/-- Bytes stored at a device address, in the memory that `devBytes` reads. -/
def devPut (s : State) (a : Nat) (l : List Byte) : State :=
  if s.boot.noDdr then { s with ingest := putBytes s.ingest a l } else pkgPut s a l

/-- WRITE_TENSOR copies host memory to package memory (R271), or to the window of R415. -/
def writeTensorOp (s : State) (id : Nat) : State :=
  match takeReq s id 3 with
  | none => s
  | some q =>
    let s := modReq s id fun q => { q with ran := true }
    finishReq (devPut s q.desc.auxAddr.toNat (bytesAt s.hostMem q.desc.inAddr.toNat q.desc.param.toNat)) id

/-! ### Deadlines (R236) -/

/-- The deadline instant of a ready descriptor, if it sets one and the feature is in force (R236, R260). -/
def deadlineOf (s : State) (d : Desc) (ready : Nat) : Option Nat :=
  if feature s 5 ∧ d.deadline ≠ 0 then some (ready + d.deadline.toNat) else none

def missNow (s : State) (d : Desc) (ready : Nat) : Bool :=
  match deadlineOf s d ready with
  | some t => decide (t ≤ s.belv.tb)
  | none => false

/-- A request not complete at its deadline instant goes on, is counted, and will report it (R236). -/
def deadlineMissOp (s : State) (r : ReqRef) : State :=
  match r with
  | .req id =>
    match reqAt s id with
    | some q =>
      if q.missed = false ∧ q.phase ≠ .finished ∧ missNow s q.desc q.readyAt = true then
        ev (count (putReq s id (some { q with missed := true })) pgBlv0 0x84 1) pgBlv0 3 q.ring
      else s
    | none => s
  | .posted n k =>
    let r := ringAt s n
    match r.posted[k]? with
    | some p =>
      match p.ready with
      | some t =>
        if p.missed = false ∧ missNow s p.desc t = true then
          ev (count (putRing s n { r with posted := r.posted.set k { p with missed := true } }) pgBlv0 0x84 1) pgBlv0 3 n
        else s
      | none => s
    | none => s

/-! ### CRC-32C (R276) and records (R273, R274) -/

/-- One bit of the reflected CRC-32C. -/
def crcBit (c : W32) : W32 := if c.getLsbD 0 then (c >>> 1) ^^^ 0x82F63B78 else c >>> 1

/-- One byte of the reflected CRC-32C. -/
def crcByte (c : W32) (b : Byte) : W32 :=
  crcBit (crcBit (crcBit (crcBit (crcBit (crcBit (crcBit (crcBit (c ^^^ b.setWidth 32))))))))

/-- CRC-32C of a byte list (R276). -/
def crc32c (l : List Byte) : W32 := ~~~(l.foldl crcByte 0xFFFFFFFF)

/-- RESULT_CRC: over the host bytes that the request wrote, in ascending address order; 0 when it wrote none (R276). -/
def resultCrc (q : Req) : W32 :=
  if q.out.isEmpty || q.desc.outDev then 0 else crc32c (q.out.filterMap fun e => e.2)

/-- The STATUS of a finished request by the ranks of R279; version 3 alone gives OK_QUALIFIED (R259). -/
def finalStatus (s : State) (q : Req) : Nat :=
  match q.status with
  | some c => c
  | none =>
    if q.frozen then 0x42
    else if q.late || q.missed then 0x40
    else if version s = 3 ∧ q.qual ≠ 0 then 1
    else 0

/-- The completion record of a request (R274, R259, R279). -/
def recordOf (s : State) (n : Nat) (q : Req) : List Byte :=
  let r := ringAt s n
  let v3 := version s == 3
  let rep := v3 && q.ran
  leBytes 4 q.desc.seq.toNat ++ leBytes 1 (finalStatus s q) ++
  leBytes 1 (if v3 then (r.alive + 1).toNat else 0) ++
  leBytes 2 (if rep then q.qual.toNat else 0) ++
  leBytes 4 (if version s = 1 then 0 else if q.ran then q.epoch.toNat else 0) ++
  leBytes 4 (resultCrc q).toNat ++ leBytes 8 (q.doneTb.getD s.belv.tb) ++
  leBytes 2 (if rep then min q.satCnt 65535 else 0) ++ leBytes 2 (if rep then min q.repCnt 65535 else 0) ++
  leBytes 1 q.desc.opc.toNat ++ leBytes 1 0 ++ leBytes 1 q.detail ++
  leBytes 1 (if feature s 0 then (1 + r.records.toNat / cqSize s n) % 2 else 0)

/-- The record of a finished request is written in slot CQ_TAIL; records leave in the order of completion (R273). RING_STATE.ALIVE
reads the value in it, which is 0 before version 3 (R259, R285). -/
def completionOp (s : State) (id : Nat) (frozen : Bool) : State :=
  match reqAt s id with
  | none => s
  | some q0 =>
    let first := s.reqs.all fun e => match e.2 with
      | some x => !(x.phase == .finished && x.ring == q0.ring && decide (x.fin < q0.fin))
      | none => true
    if q0.phase = .finished ∧ first = true then
      let q := { q0 with frozen := frozen }
      let n := q.ring
      let r := ringAt s n
      let s := hostPut s (rg64 s n 0x10 + 32 * r.cqTail) (recordOf s n q)
      let s := rgSet s n 0x30 (BitVec.ofNat 32 (min ((rgGet s n 0x30).toNat + 1) 0xFFFFFFFF))
      let s := putRing s n { r with cqTail := (r.cqTail + 1) % cqSize s n, inflight := r.inflight - 1,
                                     alive := if version s = 3 then r.alive + 1 else 0, records := r.records + 1, headDue := true,
                                     sumDue := r.sumDue || !q.desc.noSum }
      putReq s id none
    else s

/-- The summary word of a group is written to host memory (R281). -/
def sumWrite (s : State) (g : Nat) : State :=
  hostPut s (rget64 s pgHdma 0x40 + 8 * g) (leBytes 8 (tget 0 s.sums g).toNat)

/-- The head word of a ring, and after it the summary word where a record it covers asks for one (R280, R281). -/
def headWordOp (s : State) (n : Nat) : State :=
  let r := ringAt s n
  if r.headDue then
    let s := hostPut s (rg64 s n 0x18) (leBytes 2 r.sqHead ++ leBytes 2 r.cqTail ++ leBytes 4 r.records.toNat)
    let s := putRing s n { r with headDue := false, sumDue := false }
    if r.sumDue && feature s 2 then
      let w := rgGet s n 0x20
      let g := fld w 6 0
      sumWrite { s with sums := tset 0 s.sums g (tget 0 s.sums g ||| (1#64 <<< fld w 13 8)) } g
    else s
  else s

/-- A write of HDMA_SUM_BASE_HI, which commits the pair, takes effect only while no ring is enabled (R43, R283). -/
def sumBase (s : State) (v : Nat) : State :=
  if ringsActive s then ev s pgHdma 2 0 else rset64 s pgHdma 0x40 v

/-- A write of HDMA_SUM_CLR_HI clears the bits of the 64-bit mask in word GROUP, and the device writes the word
(R281, R283). -/
def sumClr (s : State) (v : Nat) : State :=
  let g := rfld s pgHdma 0x48 6 0
  let s := { s with sums := tset 0 s.sums g (tget 0 s.sums g &&& ~~~(BitVec.ofNat 64 v)) }
  if feature s 2 then sumWrite s g else s

def execRingDrained (ring : Nat) (s : State) : Host.Outcome State Fault Refusal := done (ringDrainedOp s ring)
def execDescriptorRead (ring : Nat) (s : State) : Host.Outcome State Fault Refusal := done (descriptorReadOp s ring)
def execDescriptorReady (ring : Nat) (s : State) : Host.Outcome State Fault Refusal := done (descriptorReadyOp s ring)
def execReadTensor (req : Nat) (s : State) : Host.Outcome State Fault Refusal := done (readTensorOp s req)
def execWriteTensor (req : Nat) (s : State) : Host.Outcome State Fault Refusal := done (writeTensorOp s req)
def execFence (req : Nat) (s : State) : Host.Outcome State Fault Refusal := done (fenceOp s req)
def execNopReq (req : Nat) (s : State) : Host.Outcome State Fault Refusal := done (nopOp s req)
def execHeadWordWrite (ring : Nat) (s : State) : Host.Outcome State Fault Refusal := done (headWordOp s ring)
def execDeadlineMiss (req : ReqRef) (s : State) : Host.Outcome State Fault Refusal := done (deadlineMissOp s req)

end Sys2Proof.Machine
end

