-- ==== Sys2Proof/Machine/Flags.lean ====
section
/-! DEFINITION. Flags and conditions: the QUAL flags of a request (R275), its saturation and repeat counts (R87), the
conditions of VCMP (R167), and the saturating add of the accumulator (R172). -/

namespace Sys2Proof.Machine

open Sys2Proof

/-- Bits of QUAL (R275). -/
def qSat : Nat := 0
def qSplit : Nat := 1
def qRepeat : Nat := 2
def qLowsup : Nat := 3
def qHot : Nat := 4
def qCalStale : Nat := 5
def qZeroRange : Nat := 6
def qQsat : Nat := 7
def qUnder : Nat := 8
def qLenClamp : Nat := 9
def qDrifted : Nat := 10

/-- A QUAL flag of a request is set. -/
def setQual (s : State) (id b : Nat) : State := modReq s id fun q => { q with qual := q.qual ||| (1#16 <<< b) }

/-- A read or row program of a request runs on a die: LOWSUP while a warning of the die's domain is live, and HOT while the
die is hot (R375, R379). -/
def dieFlags (s : State) (id d : Nat) : State :=
  let x := dieAt s d
  let s := if x.warn = 0 then s else setQual s id qLowsup
  if x.hot then setQual s id qHot else s

/-- Counts of a request are raised (R87). -/
def addSat (s : State) (id n : Nat) : State := modReq s id fun q => { q with satCnt := q.satCnt + n }
def addRepeat (s : State) (id n : Nat) : State := modReq s id fun q => { q with repCnt := q.repCnt + n }

/-- The condition of VCMP on an order: the sign of VA − VB, or none for a comparison with NaN, which is true under NE only
(R167). -/
def condHolds (k : Nat) : Option Int → Bool
  | none => k == 1
  | some d =>
    match k with
    | 0 => d == 0
    | 1 => d != 0
    | 2 => decide (d < 0)
    | 3 => decide (d ≤ 0)
    | 4 => decide (0 < d)
    | 5 => decide (0 ≤ d)
    | _ => false

/-- An INT32 sum held at its range, and whether it saturated (R172). -/
def satAdd32 (a b : Int) : Int × Bool :=
  let v := a + b
  let w := intFit 5 true v
  (w, decide (v ≠ w))

end Sys2Proof.Machine
end

