-- ==== Sys2Proof/Machine/Trellis.lean ====
section
/-! DEFINITION. The Trellis fabric: topology and links (R314, R315, R320), routes (R318, R319), packets with their classes, credits
and priority (R316, R317, R322), transfers with their acknowledgements (R321), and the sync messages (R217). The manual bounds
the times of the fabric and does not give them: a flit crosses a link in one cycle, four in five (DESIGN CHOICE, log 43). -/

namespace Sys2Proof.Machine

open Sys2Proof

/-! ### Topology (R314, R315) -/

/-- Columns and rows of the torus. -/
def Member.cols : Member → Nat
  | .tlq16 => 4 | .tlq08 => 4 | .tlq04 => 2
def Member.tall : Member → Nat
  | .tlq16 => 4 | .tlq08 => 2 | .tlq04 => 2

/-- The dies with a hub port, in the order of the table. -/
def Member.hubs : Member → List Nat
  | .tlq16 => [5, 6, 9, 10] | .tlq08 => [1, 2, 5, 6] | .tlq04 => [0, 1, 2, 3]

/-- The hub die of a die's quadrant. -/
def Member.hubOf (m : Member) (d : Nat) : Nat :=
  match m with
  | .tlq16 => 5 + (if d % 4 < 2 then 0 else 1) + (if d / 4 < 2 then 0 else 4)
  | .tlq08 => 1 + (if d % 4 < 2 then 0 else 1) + (if d / 4 < 1 then 0 else 4)
  | .tlq04 => d

/-- The die that a torus port of a die leads to: E, W, N, S as ports 0 to 3. -/
def neighbour (m : Member) (d port : Nat) : Nat :=
  let c := m.cols
  let h := m.tall
  let x := d % c
  let y := d / c
  match port with
  | 0 => y * c + (x + 1) % c
  | 1 => y * c + (x + c - 1) % c
  | 2 => (y + h - 1) % h * c + x
  | _ => (y + 1) % h * c + x

/-- The port at the other end of a torus link. -/
def facing (port : Nat) : Nat := if port % 2 = 0 then port + 1 else port - 1

/-- The index of a link's port at a die (R331). -/
def linkIdx (d port : Nat) : Nat := 5 * d + port

/-- Whether a link carries traffic; one that retrains holds its traffic back (R317, R319). -/
def linkOk (s : State) (d port : Nat) : Bool :=
  let l := linkAt s (linkIdx d port)
  l.st == 1 || l.st == 2

/-- Both ends of a link take a state. -/
def setLink (s : State) (d port : Nat) (f : Link → Link) : State :=
  let s := putLink s (linkIdx d port) (f (linkAt s (linkIdx d port)))
  if port = 4 then s
  else
    let i := linkIdx (neighbour s.part.member d port) (facing port)
    putLink s i (f (linkAt s i))

/-! ### Versions (R320) -/

/-- The stepping of a die (R26, log 1). -/
def dieStepping (s : State) (d : Nat) : BitVec 8 := tget 0xB0 s.part.dieStep d

/-- The highest link version that a stepping supports: every stepping supports version 1, and B0 also version 2. -/
def topVersion (st : BitVec 8) : Nat := if st = 0xA1 then 1 else 2

/-- Whether a die takes part in the fabric. -/
def dieLive (s : State) (d : Nat) : Bool := decide (d < s.part.member.dies) && (dieAt s d).st == .on

/-- The two ends of a die's links negotiate a common version; with the other end not out of reset by then, the link stays unbonded until
that die trains it. -/
def trainLinks (s : State) (there : Nat → Bool) (d : Nat) : State :=
  let m := s.part.member
  let v := topVersion (dieStepping s d)
  let up := fun (n : Nat) => fun (l : Link) => { l with st := 1, ver := BitVec.ofNat 4 n, fails := 0, retrain := 0 }
  let s := (List.range 4).foldl (fun s p =>
    let n := neighbour m d p
    if there n then setLink s d p (up (min v (topVersion (dieStepping s n)))) else s) s
  if m.hubs.contains d then setLink s d 4 (up v) else s

/-- The links of a die that leaves the fabric. -/
def dropLinks (s : State) (d : Nat) : State :=
  (List.range 5).foldl (fun s p => setLink s d p fun l => { l with st := 0, ver := 0 }) s

/-! ### Routes (R318, R319) -/

/-- The links that some hops through one port of each die cross. -/
def hops (m : Member) (port : Nat) : Nat → Nat → List Nat
  | 0, _ => []
  | n + 1, d => linkIdx d port :: hops m port n (neighbour m d port)

/-- The record of a link (R331): a hub port has one for both ways. -/
def linkOf (l : Nat) : Nat := if l < 80 then l else linkIdx (l - 80) 4

/-- The die, or 16 for the Pavilion, at the far end of a link. -/
def farEnd (m : Member) (l : Nat) : Nat := if 80 ≤ l then l - 80 else if l % 5 = 4 then 16 else neighbour m (l / 5) (l % 5)

/-- The same link the other way. -/
def wayBack (m : Member) (l : Nat) : Nat :=
  if 80 ≤ l then linkIdx (l - 80) 4 else if l % 5 = 4 then 80 + l / 5 else linkIdx (neighbour m (l / 5) (l % 5)) (facing (l % 5))

/-- Whether every link of a way works; one that retrains works, and holds its traffic back. -/
def wayWorks (s : State) (l : List Nat) : Bool :=
  l.all fun i => let k := linkAt s (linkOf i); k.st == 1 || k.st == 2

/-- The way along one dimension, in the shorter direction, E or S where both are equally long, and else the other way around (R318,
R319). `near` is the port of the direction in which `n` counts. In a dimension of size 2 the two links join the same pair of
dies: the packet takes E or N when its source die is even and W or S when it is odd, or else the twin (R315). -/
def leg (s : State) (source near a n size : Nat) : Option (List Nat) :=
  let m := s.part.member
  let there := hops m near n a
  let back := hops m (facing near) (size - n) a
  let even := near / 2 * 2
  let ways := if n = 0 then [[]]
    else if size = 2 then
      (if source % 2 = 0 then [hops m even 1 a, hops m (facing even) 1 a] else [hops m (facing even) 1 a, hops m even 1 a])
    else if 2 * n ≤ size then [there, back] else [back, there]
  ways.find? (wayWorks s)

/-- The way of a packet of a source die between two dies: along X, then along Y. -/
def torusWay (s : State) (source a b : Nat) : Option (List Nat) :=
  let m := s.part.member
  let c := m.cols
  let h := m.tall
  match leg s source 0 a ((b % c + c - a % c) % c) c, leg s source 3 (a / c * c + b % c) ((b / c + h - a / c) % h) h with
  | some x, some y => some (x ++ y)
  | _, _ => none

/-- The hub die through which a die's traffic with the Pavilion goes, if any works (R319). -/
def hubFor (s : State) (d : Nat) : Option Nat :=
  let m := s.part.member
  let q := m.hubOf d
  if linkOk s q 4 then some q else m.hubs.find? fun h => linkOk s h 4

/-- The way from the Pavilion to a die. The tree is rooted at the hub die, whose number decides R315 (DEDUCED, log 43). -/
def downWay (s : State) (d : Nat) : Option (List Nat) :=
  match hubFor s d with
  | some h => (torusWay s h h d).map fun l => (80 + h) :: l
  | none => none

/-- The way from a source to a destination, where one remains (R318, R319); 16 stands for the Pavilion (R331), to which a packet
follows the way from it backwards. -/
def wayTo (s : State) (src dst : Nat) : Option (List Nat) :=
  if src = dst then some []
  else if src = 16 then if dieLive s dst then downWay s dst else none
  else if dst = 16 then (downWay s src).map fun l => (l.map (wayBack s.part.member)).reverse
  else if dieLive s dst then torusWay s src src dst else none

/-- Whether packets from a source reach a destination. -/
def reaches (s : State) (src dst : Nat) : Bool := (wayTo s src dst).isSome

/-! ### Packets (R316, R317, R321, R322) -/

/-- The tree with one link more below a fork: the links of a fork are taken together. -/
def addLink (t : List Branch) (up : Option Nat) (l : Nat) : List Branch :=
  if t.any fun b => b.up == up then
    t.map fun b => if b.up == up ∧ !b.outs.contains l then { b with outs := b.outs ++ [l] } else b
  else t ++ [⟨up, [l], 0⟩]

/-- The tree that reaches every destination of a list: no link carries two copies (R322). -/
def treeOf (s : State) (src : Nat) (dests : List Nat) : List Branch :=
  (dests.filterMap (wayTo s src)).foldl (fun t way =>
    (way.foldl (fun (r : List Branch × Option Nat) l => (addLink r.1 r.2 l, some l)) (t, none)).1) []

/-- The flits that each receiver's buffer holds, by class. -/
def Cls.room : Cls → Nat
  | .sync => 4 | .ctrl => 32 | .data => 256

def Cls.rank : Cls → Nat
  | .sync => 0 | .ctrl => 1 | .data => 2

/-- Flits of some packets that have crossed a link; all are at their source. -/
def Flow.crossed (f : Flow) : Option Nat → Nat
  | none => f.flits
  | some l => ((f.tree.find? fun b => b.outs.contains l).map fun b => b.sent).getD 0

/-- Flits of some packets that lie in the receiver's buffer at the far end of a link, waiting to be sent on. -/
def Flow.lying (f : Flow) (l : Nat) : Nat :=
  match f.tree.find? fun b => b.up == some l with
  | some b => f.crossed (some l) - b.sent
  | none => 0

/-- Whether the sender at a link holds a credit for a class: the receiver's buffer of that class is not full (R317). -/
def credit (s : State) (c : Cls) (l : Nat) : Bool :=
  decide ((((s.flows.filter fun f => f.cls = c).map fun f => f.lying l).sum) < c.room)

/-- Whether a flit of a class may cross a link now. -/
def mayCross (s : State) (c : Cls) (l : Nat) : Bool := (linkAt s (linkOf l)).st == 1 && credit s c l

/-- Flits that a fork may have sent on by now: under link version 1 a forwarding die has a whole packet of 64 before it sends it on
(R320). -/
def Flow.ready (s : State) (f : Flow) (b : Branch) : Nat :=
  let n := f.crossed b.up
  match b.up with
  | some l => if (linkAt s (linkOf l)).ver = 1 ∧ n < f.flits then n / 64 * 64 else n
  | none => n

/-- Whether packets sent earlier still have flits to send over a link on their way to a destination of these: those of one class from
one source to one destination keep their order (R318). -/
def Flow.behind (f : Flow) (older : List Flow) (l : Nat) : Bool :=
  older.any fun g => g.cls == f.cls && g.src == f.src && (g.dests.any fun d => f.dests.contains d) &&
    g.tree.any fun b => b.outs.contains l && decide (b.sent < g.flits)

/-- One nanosecond of one flow, given the flows before it and the links already taken: the forks from the last to the first each send a
flit on where every link of theirs is free and holds a credit (R322). -/
def Flow.move (s : State) (f : Flow) (older : List Flow) (used : List Nat) : Flow × List Nat :=
  let r := f.tree.foldr (fun b (r : List Branch × List Nat) =>
    if b.sent < f.ready s b ∧ (b.outs.all fun l => mayCross s f.cls l && !r.2.contains l && !f.behind older l) then
      ({ b with sent := b.sent + 1 } :: r.1, b.outs ++ r.2)
    else (b :: r.1, r.2)) ([], used)
  ({ f with tree := r.1 }, r.2)

/-- The links on which flits of DATA packets wait for a credit (R331). -/
def stalled (s : State) : List Nat :=
  ((s.flows.filter fun f => f.cls = .data).flatMap fun f => f.tree.flatMap fun b =>
    if b.sent < f.ready s b then b.outs.filter fun l => !credit s .data l else []).dedup

def Flow.arrived (f : Flow) : Bool := f.tree.all fun b => b.sent == f.flits

/-- One nanosecond of the fabric: each link sends four flits in five cycles, SYNC before CTRL before DATA and else the oldest first,
and a link that holds DATA flits without credit counts the cycle (R316, R317). -/
def fabricCycle (s : State) : State :=
  if s.flows.isEmpty ∨ s.pwr.held = true then s
  else
    let stop := stalled s
    let flows := if s.flitAt = 4 then s.flows
      else (s.flows.foldl (fun (r : List Flow × List Nat) f => let m := f.move s r.1 r.2; (r.1 ++ [m.1], m.2)) ([], [])).1
    let t := stop.foldl (fun s l => putLink s (linkOf l) { linkAt s (linkOf l) with stall := (linkAt s (linkOf l)).stall + 1 }) s
    { t with flows := flows.filter fun f => !f.arrived, flitAt := (s.flitAt + 1) % 5 }

/-- Whether the packets of a source to some destinations can go now: no link of their tree retrains or lacks a credit, so that the
wait does not spread back to the source unit (R317, R319). -/
def wayOpen (s : State) (c : Cls) (src : Nat) (dests : List Nat) : Bool :=
  (treeOf s src dests).all fun b => b.outs.all fun l => mayCross s c l

/-- Packets go out, behind those of their class (R317, R318). -/
def addFlow (s : State) (c : Cls) (src : Nat) (dests : List Nat) (flits : Nat) (xfer : Option Nat) : State :=
  let f : Flow := ⟨c, src, dests, max flits 1, xfer, treeOf s src dests⟩
  if f.tree.isEmpty then s
  else { s with flows := (s.flows.filter fun g => g.cls.rank ≤ c.rank) ++ [f] ++ s.flows.filter fun g => c.rank < g.cls.rank }

/-- The flits of some bytes, and the packets of some flits (R316, R321). -/
def flitsOf (bytes : Nat) : Nat := ceilDiv bytes 64
def packetsOf (flits : Nat) : Nat := max 1 (ceilDiv flits 64)

/-! ### Transfers (R321, R322) -/

/-- Whether a source may have one more transfer outstanding. -/
def xferRoom (s : State) (src : Nat) : Bool :=
  decide ((s.xfers.filter fun e => match e.2 with | some x => x.src == src | none => false).length <
    if src = 16 then 128 else 32)

/-- Whether a source unit can begin a transfer: it is below its limit, and the ways that remain are open. -/
def mayTransfer (s : State) (src : Nat) (dests : List Nat) : Bool :=
  dests.isEmpty || (xferRoom s src && wayOpen s .data src dests)

/-- The destinations that no route reaches. -/
def lostDests (s : State) (src : Nat) (dests : List Nat) : List Nat := dests.filter fun d => !reaches s src d

/-- Packets that no route carries are discarded at their source and counted, for each destination (R319). -/
def discardPackets (s : State) (dests : List Nat) (flits : Nat) : State :=
  match dests.min? with
  | none => s
  | some d => ev (count s pgTrl 0x5C (packetsOf flits * dests.length)) pgTrl 3 d

/-- Packets that are no transfer: claims and their replies, quantiser posts, acknowledgements and sync messages (R317). -/
def sendPackets (s : State) (c : Cls) (src : Nat) (dests : List Nat) (flits : Nat) : State :=
  let lost := lostDests s src dests
  addFlow (discardPackets s lost flits) c src (dests.filter fun d => !lost.contains d) flits none

/-- One delivery from a source unit to other dies or the Pavilion (R321, R322). -/
def sendXfer (s : State) (src : Nat) (dests : List Nat) (req : Option Nat) (bytes : Nat) : State :=
  let lost := lostDests s src dests
  let go := dests.filter fun d => !lost.contains d
  let s := discardPackets s lost (flitsOf bytes)
  if go.isEmpty then s
  else
    let x := s.nextXfer
    let s := putXfer { s with nextXfer := x + 1 } x (some ⟨src, go, req⟩)
    let s := addFlow s .data src go (flitsOf bytes) (some x)
    if go.any fun d => d != 16 then count s pgTrl 0x54 1 else s

/-- Whether the packets of a flow have all reached a destination. -/
def Flow.reached (m : Member) (f : Flow) (d : Nat) : Bool :=
  f.tree.any fun b => b.sent == f.flits && b.outs.any fun l => farEnd m l == d

/-- Whether packets of a transfer are still on their way to a destination. -/
def onWay (s : State) (x d : Nat) : Bool :=
  s.flows.any fun f => f.xfer == some x && f.dests.contains d && !f.reached s.part.member d

/-- A destination that has all of a transfer acknowledges it in a CTRL packet; the transfer ends when every destination has. -/
def transferAckOp (s : State) (x d : Nat) : State :=
  match xferAt s x with
  | none => s
  | some t =>
    if !t.dest.contains d || onWay s x d || !wayOpen s .ctrl d [t.src] then s
    else
      let l := t.dest.filter fun e => e != d
      sendPackets (putXfer s x (if l.isEmpty then none else some { t with dest := l })) .ctrl d [t.src] 1

/-- What packets that are gone had still to bring does not land any more. -/
def pruneLanding (s : State) : State := { s with landing := s.landing.filter fun g => onWay s g.xfer g.die }

/-- Packets whose way no longer works start again on the way that remains, to the destinations that they have not reached (R319,
log 43). -/
def reroute (s : State) : State :=
  let again := fun (f : Flow) =>
    if f.tree.all fun b => wayWorks s b.outs then some f
    else
      let l := f.dests.filter fun d => !f.reached s.part.member d && reaches s f.src d
      let t := treeOf s f.src l
      if t.isEmpty then none else some { f with dests := l, tree := t }
  pruneLanding { s with flows := s.flows.filterMap again }

/-- The packets from and to a die that leaves the fabric are gone. -/
def dropFlows (s : State) (d : Nat) : State :=
  reroute { s with flows := (s.flows.filter fun f => f.src != d).map fun f => { f with dests := f.dests.filter fun e => e != d } }

/-- A sync message of each microsecond (R217): a die 8 ns or more away is stepped and reported; BLV_ALIGN keeps the worst
skew seen. The skews are what was measured, by die (log 6). -/
def tbSyncOp (s : State) (skews : List Int) : State :=
  if s.belv.syncAt / 1000 < s.belv.tb / 1000 then
    let s := sendPackets s .sync 16 ((List.range s.part.member.dies).filter fun d => (dieAt s d).up) 1
    (skews.zipIdx).foldl (fun s e =>
      if (dieAt s e.2).up = false then s
      else
        let m := min e.1.natAbs 255
        let s := if rfld s pgBlv0 0x68 7 0 < m then rset s pgBlv0 0x68 (put 15 12 e.2 ||| put 7 0 m) else s
        if 8 ≤ e.1.natAbs then ev (modBelv s fun b => { b with skew := tset 0 b.skew e.2 0 }) pgBlv0 6 e.2
        else modBelv s fun b => { b with skew := tset 0 b.skew e.2 e.1 })
      (modBelv s fun b => { b with syncAt := b.tb })
  else s

/-- A write of TRL_LINK_INDEX takes a snapshot of a link (R331). -/
def trlSnapshot (s : State) : State :=
  let l := linkAt s (rfld s pgTrl 0x40 6 0)
  let s := rset s pgTrl 0x44 (put 31 30 l.st.toNat ||| (if l.st = 1 then put 3 0 l.ver.toNat else 0))
  rset (rset (rset s pgTrl 0x48 l.crc) pgTrl 0x4C l.replay) pgTrl 0x50 l.stall

def execTbSyncMessage (skews : List Int) (s : State) : Host.Outcome State Fault Refusal := done (tbSyncOp s skews)
def execTransferAck (xfer dest : Nat) (s : State) : Host.Outcome State Fault Refusal := done (transferAckOp s xfer dest)

end Sys2Proof.Machine
end

