-- ==== Sys2Proof/Machine/Work.lean ====
section
/-! DEFINITION. The work of a request on the cores: layer records and their tiling (R184 to R186, R194), the division of M
(R201), inputs landing in rings (R193), and how a request ends. -/

namespace Sys2Proof.Machine

open Sys2Proof

/-! ### Layer records (R184 to R186, R194, R197) -/

def LayerRec.zero : LayerRec :=
  { task := 0, layer := 0, die := 0, tier := 0, inFmt := 0, outEb := 0, k := 0, n := 0, mMax := 0, mFixed := 0, rg := 0,
    satPol := 0, accClass := 0, loop := 0, mg := 0, dbuf := 0, gridM := 0, gridPos := 0, ctrScope := 0, claimN := 0, sets := 0,
    source := 0, inRing := 0, inSlots := 0, drainProg := 0, endProg := 0, coreFirst := 0, coreCount := 0, plateFirst := 0,
    plateCount := 0, consFirst := 0, consCount := 0 }

/-- K-slices and N-tiles (R184). -/
def LayerRec.kSlices (l : LayerRec) : Nat := ceilDiv l.k 64
def LayerRec.nTiles (l : LayerRec) : Nat := ceilDiv l.n 64

/-- Element sizes in half bytes: of the input (R186), and of the output area (R288). -/
def LayerRec.inHalf (l : LayerRec) : Nat := if l.inFmt < 2 then 2 else 1
def LayerRec.outHalf (l : LayerRec) : Nat := 2 ^ l.outEb

/-- rows_max and R_max (R197). -/
def LayerRec.rowsMax (l : LayerRec) : Nat := if l.mFixed = 0 then l.mMax else l.mFixed
def LayerRec.rMax (l : LayerRec) : Nat := 64 * ceilDiv l.rowsMax 64

/-- G and DBUF′ (R194). -/
def LayerRec.groupSize (l : LayerRec) : Nat := if l.loop = 2 then ceilDiv l.rowsMax 64 else l.mg
def LayerRec.doubling (l : LayerRec) : Nat := if l.loop = 2 then 0 else l.dbuf

/-- The sub-tables that a record addresses (R288). -/
def coreEnts (m : Manifest) (l : LayerRec) : List CoreEnt := (m.cores.drop l.coreFirst).take l.coreCount
def plateEnts (m : Manifest) (l : LayerRec) : List PlateEnt := (m.plates.drop l.plateFirst).take l.plateCount
def consEnts (m : Manifest) (l : LayerRec) : List ConsEnt := (m.cons.drop l.consFirst).take l.consCount

/-- The cores of a set, and the home core of a set (R185). -/
def setCores (m : Manifest) (l : LayerRec) (set : Nat) : List Nat :=
  (((coreEnts m l).filter fun e => e.set == set).map fun e => e.core).dedup
def homeCore (m : Manifest) (l : LayerRec) (set : Nat) : Nat := ((setCores m l set).min?).getD 0

/-- The plates of a set in list order. -/
def setPlates (m : Manifest) (l : LayerRec) (set : Nat) : List PlateEnt :=
  let cs := setCores m l set
  (plateEnts m l).filter fun e => cs.contains e.core

/-- The distinct N-tiles among a core's plates of a layer, rising. -/
def coreTiles (m : Manifest) (l : LayerRec) (core : Nat) : List Nat :=
  (((plateEnts m l).filter fun e => e.core == core).map fun e => e.nt).dedup.insertionSort (· ≤ ·)

/-- T of a core, and the tiles that the layer needs there at once (R194, R196). -/
def tilesPerBlock (m : Manifest) (l : LayerRec) (core : Nat) : Nat := if l.loop = 1 then 1 else (coreTiles m l core).length
def accNeed (m : Manifest) (l : LayerRec) (core : Nat) : Nat := l.groupSize * tilesPerBlock m l core * (1 + l.doubling)

/-- Valid rows of a block of a layer that runs a number of rows. -/
def blockRows (rows mb : Nat) : Nat := min 64 (rows - 64 * mb)

/-- Valid columns of an N-tile. -/
def LayerRec.cols (l : LayerRec) (nt : Nat) : Nat := min 64 (l.n - 64 * nt)

/-- The die's sequence of blocks, and the part of it that falls to a set without a counter (R201). -/
def diePart (l : LayerRec) (blocks : Nat) : List Nat :=
  (List.range blocks).filter fun b => b % (max l.gridM 1) == l.gridPos
def setPart (l : LayerRec) (blocks set : Nat) : List Nat :=
  ((diePart l blocks).zipIdx.filter fun e => e.2 % (max l.sets 1) == set).map fun e => e.1

/-! ### The manifest and the record of a layer work -/

def manOf (s : State) (slot : Nat) : Manifest := (slotAt s slot).man
def recAt (m : Manifest) (i : Nat) : LayerRec := (m.layers[i]?).getD LayerRec.zero
def Run.man (w : Run) (s : State) : Manifest := manOf s w.slot
def Run.rc (w : Run) (s : State) : LayerRec := recAt (w.man s) w.layer

/-! ### Slow-tier weight areas (R328) -/

/-- A number rounded up to a multiple of another. -/
def roundUp (n k : Nat) : Nat := ceilDiv n k * k

/-- Bytes of a column's weights, and of a layer's weight area, for a weight size. -/
def colBytes (k wb : Nat) : Nat := roundUp (k * wb) 64
def areaBytes (k n wb : Nat) : Nat := 0x40 + roundUp (4 * n) 64 + n * colBytes k wb

/-- The slow-tier records of a manifest in ascending (TASK, LAYER) order. -/
def slowLayers (m : Manifest) : List (Nat × LayerRec) :=
  (((m.layers.zipIdx).filter fun e => e.1.tier == 1).map fun e => (e.2, e.1)).insertionSort fun a b =>
    a.2.task < b.2.task ∨ (a.2.task = b.2.task ∧ a.2.layer ≤ b.2.layer)

/-- Weight bytes of a W_FMT. -/
def weightSize (f : Nat) : Nat := if f = 0xB then 2 else 1

/-- IN_FMT, W_FMT and OUT_FMT of a slow-tier layer, as its area held them when it was stored. -/
def fmtsAt (x : Slot) (i : Nat) : Nat × Nat × Nat :=
  let v := tget 0 x.areas i - 1
  (v % 256, v / 256 % 256, v / 65536)

/-- Element sizes in half bytes of a layer's input and output: of a slow-tier layer as its area gives them. -/
def inHalfAt (x : Slot) (i : Nat) (l : LayerRec) : Nat := if l.tier = 1 then fmtWidth (fmtsAt x i).1 / 4 else l.inHalf
def outHalfAt (x : Slot) (i : Nat) (l : LayerRec) : Nat := if l.tier = 1 then fmtWidth (fmtsAt x i).2.2 / 4 else l.outHalf

/-- The address of a slow-tier record's weight area: the areas follow one another, each on a 4 KiB boundary. None where an earlier area
has never been stored. -/
def layerArea (x : Slot) (i : Nat) : Option Nat :=
  ((slowLayers x.man).foldl (fun (r : Option Nat × Option Nat) e => match r.1 with
    | none => r
    | some a =>
      let next := if tget 0 x.areas e.1 = 0 then none
        else some (a + roundUp (areaBytes e.2.k e.2.n (weightSize (fmtsAt x e.1).2.1)) 4096)
      (next, r.2.or (if e.1 = i then some a else none))) (some x.slowAt, none)).2

/-- The listed layer works, with their numbers. -/
def runList (s : State) : List (Nat × Run) := s.runs.filterMap fun e => e.2.map fun w => (e.1, w)

/-- The layer works of a request. -/
def reqRuns (s : State) (id : Nat) : List (Nat × Run) := (runList s).filter fun e => e.2.req == id

def modRun (s : State) (r : Nat) (f : Run → Run) : State :=
  match runAt s r with
  | none => s
  | some w => putRun s r (some (f w))

def modCore (s : State) (c : Nat) (f : Core → Core) : State := putCore s c (f (coreAt s c))

/-- The core of a die as the core tables count it. -/
def coreIdx (die core : Nat) : Nat := die * 16 + core

/-- The home core of a layer work. -/
def Run.home (w : Run) (s : State) : Nat := coreIdx (w.rc s).die (homeCore (w.man s) (w.rc s) w.set)

/-- The layer works of the same layer record and request on all sets of the die. -/
def siblings (s : State) (w : Run) : List (Nat × Run) :=
  (runList s).filter fun e => e.2.req == w.req && e.2.slot == w.slot && e.2.layer == w.layer

/-! ### Programs (R164, R289) -/

/-- The place of a core's program in the manifest's table, by its number. -/
def progIdx (m : Manifest) (die core prog : Nat) : Option Nat :=
  m.progs.findIdx? fun e => e.die == die && e.core == core && e.prog == prog

def progEnt (m : Manifest) (i : Nat) : ProgEnt := (m.progs[i]?).getD ⟨0, 0, 0, []⟩

/-- The quantiser slots that a program uses: those that VQNT, VQEND and VQSCALE name. -/
def progSlots (code : List W64) : List Nat :=
  ((code.filter fun w => decide (0x41 ≤ vOp w ∧ vOp w ≤ 0x43)).map fun w => (vFields w).imm.toNat % 65536).dedup

/-- The quantiser slots of a layer's row program on a core. -/
def drainSlots (m : Manifest) (l : LayerRec) (core : Nat) : List Nat :=
  match progIdx m l.die core l.drainProg with
  | some i => progSlots (progEnt m i).code
  | none => []

/-- The key of a quantiser slot of a core for a session slot. A core has up to 1,024 slots (R173): an index beyond has a key that no slot
bears. -/
def qKey (slot core q : Nat) : Nat := if q < 1024 then (slot * 256 + core) * 1024 + q else 4194304 + q

/-- The scales of a slot: one, one per column, or one per row up to a number of rows (R173). -/
def QSlot.scaleCount (q : QSlot) (rows : Nat) : Nat := if q.cfg.gran = 0 then 1 else if q.cfg.gran = 1 then q.cfg.cols else rows

/-- The larger of two non-negative FP32 words. -/
def maxWord (a b : W32) : W32 := if a.toNat < b.toNat then b else a

/-- The scale of the running pass, taken from the history: none in current mode (R175). -/
def passScale (q : QSlot) (k : Nat) : Option W32 :=
  if q.cfg.gran = 2 then none
  else
    let h := (tget [] q.hist k).foldl maxWord 0
    if h = 0 then none else some (scaleOf q.cfg.fmt h)

/-- Whether output written under the running pass waits for its VQEND: current mode in some scale, or REQUANT (R192). -/
def QSlot.holds (q : QSlot) : Bool :=
  q.cfg.policy == 1 || q.cfg.gran == 2 || (List.range (q.scaleCount 1)).any fun k => (passScale q k).isNone

/-! ### Inputs landing in a ring (R193) -/

/-- The ring slot address of a block, and the bytes of one of its input tiles (log 21). -/
def ringBase (l : LayerRec) (mb : Nat) : Nat := l.inRing + mb % (max l.inSlots 1) * (2048 * l.kSlices * l.inHalf)
def tileBytes (l : LayerRec) : Nat := 2048 * l.inHalf

/-- Whether a block's ring slot is free for it: no other block lies in the slot or is on its way there, of any request (R193). The block is that of the request
that consumes it, if one does yet, and, where an earlier task's request produces it, of that producer's feed. -/
def slotFree (s : State) (slot layer : Nat) (req producer : Option Nat) (mb : Nat) : Bool :=
  let n := max (recAt (manOf s slot) layer).inSlots 1
  ((runList s).all fun e =>
    !(e.2.slot == slot && e.2.layer == layer) ||
    e.2.landed.all fun x => x.1 % n != mb % n || (some e.2.req == req && x.1 == mb)) &&
  (s.feeds.all fun f =>
    !(f.slot == slot && f.layer == layer && f.src == 32) ||
    f.got.all fun x => x.1 % n != mb % n ||
      (((f.taken.isSome && f.taken == req) || some f.key == producer) && x.1 == mb)) &&
  s.landing.all fun g => match g.cargo with
    | .tile id sl ly m _ _ _ => !(sl == slot && ly == layer) || m % n != mb % n || ((some id == req || some id == producer) && m == mb)
    | .out .. | .stripe .. => true

/-- Whether another die has claimed a block of a layer under package scope (R203). -/
def claimedElsewhere (s : State) (w : Run) (mb : Nat) : Bool :=
  if (w.rc s).ctrScope = 2 then
    match ((slotAt s w.slot).ctrs.find? fun e => e.1 == w.layer), reqAt s w.req with
    | some e, some q =>
      let c := ctrAt s e.2
      !c.idle && c.tag.toNat == q.launch % 65536 && decide (mb < c.next)
    | _, _ => false
  else false

/-- Whether some set of the die steps, or may still step, a block of its layer. -/
def wanted (s : State) (w : Run) (mb : Nat) : Bool :=
  (siblings s w).any fun e => tget 0 e.2.left mb != 0 ||
    ((w.rc s).ctrScope != 0 && !e.2.spent && !claimedElsewhere s w mb)

/-- The inputs of a block of a slow-tier layer are ready: it takes its turn (R328). -/
def slowReady (s : State) (r mb : Nat) : State :=
  if s.slow.queue.contains (r, mb) then s else { s with slow := { s.slow with queue := s.slow.queue ++ [(r, mb)] } }

/-- Input tiles of a block have landed for every set of the die, to a number in all (R193). -/
def landTo (s : State) (w : Run) (mb n : Nat) : State :=
  if wanted s w mb then
    (siblings s w).foldl (fun s e =>
      let s := putRun s e.1 (some { e.2 with landed := tset 0 e.2.landed mb n })
      if (w.rc s).tier = 1 ∧ (w.rc s).kSlices ≤ n then slowReady s e.1 mb else s) s
  else s

/-- One more input tile of a block lands. -/
def landTile (s : State) (w : Run) (mb : Nat) : State := landTo s w mb (tget 0 w.landed mb + 1)

/-- A block's ring slot is freed. -/
def freeSlot (s : State) (w : Run) (mb : Nat) : State :=
  let s := (siblings s w).foldl (fun s e => putRun s e.1 (some { e.2 with landed := tdel e.2.landed mb })) s
  { s with feeds := s.feeds.map fun f =>
      if f.slot == w.slot && f.layer == w.layer && f.taken == some w.req then { f with got := tdel f.got mb } else f }

/-- Whether all input tiles of a block have landed. -/
def blockReady (s : State) (w : Run) (mb : Nat) : Bool :=
  let k := (w.rc s).kSlices
  decide (k ≤ tget 0 w.landed mb)

/-- Stripes of a frame that make a block of a stream's binding ready (R289, log 24). -/
def bindNeed (b : BindEnt) (stripes mb : Nat) : Nat := min (max b.spb 1) (stripes - mb * max b.spb 1)

/-- The stripes of a stream's frame (R250). -/
def stripesOf (s : State) (n : Nat) : Nat := ceilDiv (rfld s (pgCam0 (n / 4)) (0x64 + 32 * (n % 4)) 15 0) 16

/-- The binding of a manifest that a layer record takes from a stream. -/
def bindOf (m : Manifest) (l : LayerRec) (stream : Nat) : Option BindEnt :=
  m.binds.find? fun b => b.stream == stream && b.die == l.die && b.task == l.task && b.layer == l.layer

/-- Whether a layer record is bound to some stream. -/
def isBound (m : Manifest) (l : LayerRec) : Bool :=
  m.binds.any fun b => b.die == l.die && b.task == l.task && b.layer == l.layer

/-- A request takes a feed: the tiles landed so far count for its layer works. -/
def takeFeed (s : State) (f : Feed) (id : Nat) : State :=
  let s := { s with feeds := modFirst (fun g => g == f) (fun g => { g with taken := some id }) s.feeds }
  let mine := fun (w : Run) => w.req == id && w.slot == f.slot && w.layer == f.layer
  let s := { s with runs := tmap none (fun w => w.map fun w => if mine w then { w with feedWait := false, slowIn := f.mem } else w) s.runs }
  if f.src = 32 then
    match (runList s).find? fun e => mine e.2 with
    | some e => f.got.foldl (fun s x => landTo s ((runAt s e.1).getD e.2) x.1 x.2) s
    | none => s
  else s

/-- A feed begins; the oldest request that waits for one takes it (log 24). -/
def newFeed (s : State) (f : Feed) : State :=
  let s := { s with feeds := s.feeds ++ [f] }
  match (((runList s).filter fun e => e.2.slot == f.slot && e.2.layer == f.layer && e.2.feedWait).map fun e => e.2.req).min? with
  | some id => takeFeed s f id
  | none => s

/-- The feeds less those that nothing can use any more. -/
def pruneFeeds (s : State) : State :=
  { s with feeds := s.feeds.filter fun f =>
      let gone := match f.taken with
        | some id => (reqAt s id).isNone
        | none => false
      let coming := s.landing.any fun g => match g.cargo with
        | .tile id sl ly _ _ _ _ => sl == f.slot && ly == f.layer && id == f.key
        | .out .. | .stripe .. => false
      !(gone && (f.src != 32 || ((reqAt s f.key).isNone && !coming))) }

/-! ### How a request ends -/

/-- The engines' work of some layer works is taken away (R207). -/
def Engine.forget (e : Engine) (ids : List Nat) : Engine :=
  let steps := e.steps.filter fun x => match x.2 with
    | some r => !ids.contains r.step.run
    | none => false
  let parts := e.parts.filter fun x => match x.2 with
    | some p => steps.any fun y => y.1 == p.step
    | none => false
  { e with
    staged := e.staged.filter fun x => !ids.contains x.run
    steps := steps
    parts := parts
    pend := e.pend.filter fun x => parts.any fun y => y.1 == x.1 }

/-- A core's work of some layer works is taken away. -/
def Core.forget (c : Core) (ids : List Nat) : Core :=
  let gone := fun (t : Nat) => match tget none c.tiles t with
    | some x => ids.contains x.run
    | none => true
  let stop := match c.vrun with
    | some v => ids.contains v.run
    | none => false
  { c with
    fetchQ := c.fetchQ.filter fun e => !ids.contains e.1
    drainQ := c.drainQ.filter fun t => !gone t
    tiles := c.tiles.filter fun e => match e.2 with
      | some x => !ids.contains x.run
      | none => false
    deliver := c.deliver.filter fun e => !ids.contains e.1
    waitDel := c.waitDel && match c.deliver with | e :: _ => !ids.contains e.1 | [] => false
    heldOut := c.heldOut.filter fun e => !ids.contains e.1
    vrun := if stop then none else c.vrun
    loops := if stop then [] else c.loops }

/-- The tiles of some layer works are freed and counted on their cores (R210). -/
def freeTilesOf (s : State) (ids : List Nat) : State :=
  s.cores.foldl (fun s e =>
    let n := (e.2.tiles.filter fun t => match t.2 with | some x => ids.contains x.run | none => false).length
    if n = 0 then s else count s (pgAcc e.1) 0x4C n) s

/-- A counter that still serves a request has no block left for it, so that later requests may claim (R202, R207). -/
def exhaustCtrs (s : State) (id : Nat) : State :=
  match reqAt s id with
  | none => s
  | some q => (reqRuns s id).foldl (fun s e =>
      match (slotAt s e.2.slot).ctrs.find? fun c => c.1 == e.2.layer with
      | none => s
      | some (_, key) =>
        let c := ctrAt s key
        if !c.idle && c.tag == BitVec.ofNat 16 q.launch then putCtr s key { c with next := c.limit } else s) s

/-- Everything in progress for a request is abandoned on every core and engine, what its feeds hold of a ring is freed, and its running passes
end without an entry (R207, log 23). What has gone out on the fabric arrives and is acknowledged (R321), but lands only where it is
for another request. -/
def dropWork (s : State) (id : Nat) : State :=
  let ids := (reqRuns s id).map fun e => e.1
  let s := exhaustCtrs (freeTilesOf s ids) id
  let u := s.slow
  let s := mapEngines s (fun _ => true) fun e => e.forget ids
  let free : Option Xfer → Option Xfer := fun x => x.map fun t => if t.req = some id then { t with req := none } else t
  { s with
    cores := tmap Core.zero (fun c => c.forget ids) s.cores
    runs := s.runs.filter fun e => !ids.contains e.1
    slow := { now := u.now.filter fun r => !ids.contains r, queue := u.queue.filter fun e => !ids.contains e.1
              out := u.out.filter fun e => !ids.contains e.run }
    qslots := tmap none (fun q => q.map fun x => 
      let x := { x with sent := x.sent.filter fun p => p.pass != id, posts := x.posts.filter fun p => p.pass != id }
      let x := { x with startWait := x.startWait.erase id }
      if x.isOpen && x.req == id then { x with isOpen := false, posted := false } else x) s.qslots
    feeds := s.feeds.map fun f => if f.taken == some id then { f with got := [], mem := [] } else f
    xfers := tmap none free s.xfers
    landing := s.landing.filter fun g => match g.cargo with
      | .tile i _ _ _ _ own _ => !(own && i == id)
      | .out i .. => i != id
      | .stripe .. => true
    staging := s.staging.filter fun g => g.req != id
    dies := tmap Die.zero (fun d => { d with sweep := { d.sweep with reqs := d.sweep.reqs.filter fun i => i != id } }) s.dies }

/-- A request ends with an outcome of rank 5 (R279): the first to occur stands, and nothing more of it runs. -/
def failReq (s : State) (id code : Nat) : State :=
  match reqAt s id with
  | none => s
  | some q => if q.phase = .finished then s else finishReq (setStatus (dropWork s id) id code) id

/-- Whether a layer work has nothing left to do: its blocks are stepped, drained and delivered, and its end programs have
ended. -/
def runOver (s : State) (r : Nat) (w : Run) : Bool :=
  let l := w.rc s
  let m := w.man s
  w.spent && w.pool.isEmpty && w.left.isEmpty && w.units.isEmpty && w.phases.isEmpty &&
  (if l.tier = 1 then s.slow.out.all fun x => x.run != r
   else
    ((l.endProg == 0xFFFF || (setCores m l w.set).all fun c => w.ended.contains (coreIdx l.die c)) &&
     s.cores.all fun e =>
       (e.2.fetchQ.all fun x => x.1 != r) && (e.2.deliver.all fun x => x.1 != r) && (e.2.heldOut.all fun x => x.1 != r) &&
       (e.2.tiles.all fun x => match x.2 with | some t => t.run != r | none => true) &&
       (match e.2.vrun with | some v => v.run != r | none => true)))

/-- Whether nothing that a request sends is on its way any more. -/
def allLanded (s : State) (id : Nat) : Bool :=
  s.landing.all fun g => match g.cargo with
    | .tile i .. => i != id
    | .out i .. => i != id
    | .stripe .. => true

/-- A running request is finished when the last output has been written and every core has finished it (R271). -/
def checkDone (s : State) (id : Nat) : State :=
  match reqAt s id with
  | none => s
  | some q =>
    if q.phase = .running ∧ ((reqRuns s id).all fun e => runOver s e.1 e.2) = true ∧ allLanded s id = true then finishReq (dropWork s id) id
    else s

/-- Input of a feed is lost on the fabric: the request that takes it, now or later, ends with INTERNAL (R319). -/
def loseFeed (s : State) (slot layer src key : Nat) : State :=
  let mine := fun (f : Feed) => f.slot == slot && f.layer == layer && f.src == src && f.key == key
  let s := if src = 32 ∧ (s.feeds.any mine) = false then newFeed s ⟨slot, layer, 32, key, [], [], none, false⟩ else s
  match s.feeds.find? mine with
  | none => s
  | some f => match f.taken with
    | some id => failReq s id 0x7F
    | none => { s with feeds := modFirst (fun g => g == f) (fun g => { g with lost := true }) s.feeds }

/-- What no route carries to its destination any more ends every request that it served (R319). -/
def loseCargo (s : State) (c : Cargo) : State :=
  match c with
  | .tile id slot layer _ _ own _ =>
    let s := failReq s id 0x7F
    if own then s else loseFeed s slot layer 32 id
  | .out id .. => failReq s id 0x7F
  | .stripe n d slot layer _ => loseFeed s slot layer n d.key

/-- Packets of a request's data that no route carries end it with INTERNAL (R319). -/
def lostData (s : State) (src : Nat) (dests : List Nat) (id : Nat) : State :=
  if (lostDests s src dests).isEmpty then s else failReq s id 0x7F

end Sys2Proof.Machine
end

