-- ==== Sys2Proof/Machine/Cores.lean ====
section
/-! DEFINITION. FETCH, STEP and DRAIN of a core (R187 to R194), the shared counters (R202, R203), the passing of a step's
result (R190), deliveries (R193), and memory errors of a core (R207). -/

namespace Sys2Proof.Machine

open Sys2Proof

/-- Whether the cores have their clocks: in RUN and READY, while DOZE gates them and a deeper state has the dies off (R367). -/
def coreClocks (s : State) : Bool := s.pwr.st == .run || s.pwr.st == .ready

/-! ### Counters (R202, R203) -/

/-- Whether a tag is newer than another. -/
def newer (t tag : BitVec 16) : Bool := let d := (t - tag).toNat; decide (1 ≤ d ∧ d ≤ 32767)

/-- What a counter answers to a claim: nothing yet, no more blocks, or a first index and the one after the last. -/
inductive Reply where
  | later
  | exhausted
  | took (lo hi : Nat)
  deriving DecidableEq, Repr

/-- The counter after a claim, and its answer (R202). -/
def Ctr.claim (c : Ctr) (t : BitVec 16) (ls n : Nat) : Ctr × Reply :=
  let take := fun (c : Ctr) =>
    if c.limit ≤ c.next then (c, Reply.exhausted)
    else let hi := min (c.next + n) c.limit; ({ c with next := hi }, Reply.took c.next hi)
  if c.idle || (newer t c.tag && decide (c.limit ≤ c.next)) then take ⟨t, 0, ls, false⟩
  else if newer t c.tag then (c, .later)
  else if t ≠ c.tag then (c, .exhausted)
  else take c

/-- The blocks of a layer that a number of rows covers. -/
def blocksOf (rows : Nat) : Nat := ceilDiv rows 64

/-- The steps that a set takes for one block. -/
def blockSteps (m : Manifest) (l : LayerRec) (set rows mb : Nat) : Nat := blockRows rows mb * (setPlates m l set).length

/-- Blocks added to a layer work's share: they wait to be grouped, and their steps are still to come. -/
def addBlocks (m : Manifest) (l : LayerRec) (w : Run) (bs : List Nat) : Run :=
  { w with
    pool := w.pool ++ bs
    left := bs.foldl (fun t b => tset 0 t b (blockSteps m l w.set w.rows b)) w.left }

/-- The dies that hold the layer of a layer work (R203). -/
def layerDies (s : State) (w : Run) : List Nat :=
  let l := w.rc s
  (((w.man s).layers.filter fun k => k.task == l.task && k.layer == l.layer && k.tier == 0).map fun k => k.die).dedup

/-- A claim has reached the Pavilion in a CTRL packet. One that is served is counted, and its reply goes to every die that holds the layer
in one multicast; a die that no route reaches ends the request (R319, R323). -/
def claimReply (s : State) (w : Run) (served : Bool) : State :=
  let s := sendPackets s .ctrl (w.rc s).die [16] 1
  if !served then s
  else
    let ds := layerDies s w
    let lost := lostDests s 16 ds
    let s := sendPackets (count (count s pgTrl 0x58 1) pgTrl 0x54 1) .ctrl 16 ds 1
    if lost.isEmpty then s else failReq s w.req 0x7F

/-- A claim of a layer work on its counter, made while the set holds fewer than G × (1 + DBUF′) claimed blocks that have
not been stepped (R202); blocks claimed under package scope are freed on every other die (R203). A claim on a Pavilion counter waits while its way to the Pavilion is not open (R317),
and with no way left it ends its request (R319, R323). -/
def claimOp (s : State) (r scope : Nat) : State :=
  match runAt s r with
  | none => s
  | some w =>
    let m := w.man s
    let l := w.rc s
    match ((slotAt s w.slot).ctrs.find? fun e => e.1 == w.layer), reqAt s w.req with
    | some (_, key), some q =>
      if l.ctrScope = scope ∧ w.spent = false ∧ w.left.length < l.groupSize * (1 + l.doubling) then
        let seq := if scope = 1 then diePart l (blocksOf w.rows) else List.range (blocksOf w.rows)
        let (c, a) := (ctrAt s key).claim (BitVec.ofNat 16 q.launch) seq.length (max l.claimN 1)
        let home := w.home s
        let s := if w.claimWait then s else count s (pgFetch home) 0x54 1
        if scope = 2 ∧ reaches s l.die 16 = false then failReq (discardPackets s [16] 1) w.req 0x7F
        else if scope = 2 ∧ wayOpen s .ctrl l.die [16] = false then putRun s r (some { w with claimWait := true })
        else
        let s := putCtr s key c
        let s := if scope = 2 then claimReply s w (a != .later) else s
        if (runAt s r).isNone then s else
        match a with
        | .later => putRun (count s (pgFetch home) 0x58 1) r (some { w with claimWait := true })
        | .exhausted => checkDone (putRun s r (some { w with claimWait := false, spent := true })) w.req
        | .took lo hi =>
          let bs := (seq.drop lo).take (hi - lo)
          let s := putRun s r (some { addBlocks m l w bs with claimWait := false })
          if scope = 2 then
            ((reqRuns s w.req).filter fun e =>
              let k := e.2.rc s
              k.task == l.task && k.layer == l.layer && k.die != l.die).foldl (fun s e => bs.foldl (fun s b => freeSlot s e.2 b) s) s
          else s
      else s
    | _, _ => s

/-! ### FETCH (R187, R188) -/

/-- The address from which a request reads a row of its input, rows following one another in whole bytes (log 21). -/
def inputRow (l : LayerRec) (q : Req) (m : Nat) : Nat := q.desc.inAddr.toNat + m * ceilDiv (l.k * l.inHalf) 2

/-- Bytes that a request reads from the host or from package memory. -/
def inputBytes (s : State) (q : Req) (a n : Nat) : List Byte :=
  bytesAt (if q.desc.inDev then s.pkgMem else s.hostMem) a n

/-- The host DMA engine places one block of a task's input in the source core's ring (R193, log 21). -/
def landInput (s : State) (w : Run) (q : Req) (mb : Nat) : State :=
  let l := w.rc s
  let c := coreIdx l.die l.source
  let half := fun n => ceilDiv (n * l.inHalf) 2
  let s := (List.range (blockRows w.rows mb)).foldl (fun s i =>
    (List.range l.kSlices).foldl (fun s ks =>
      let n := min 64 (l.k - 64 * ks)
      corePut s c (ringBase l mb + ks * tileBytes l + i * half 64)
        (inputBytes s q (inputRow l q (64 * mb + i) + half (64 * ks)) (half n))) s) s
  landTo s w mb l.kSlices

/-- Whether any of the package memory that a request reads holds poisoned data (R325). -/
def poisoned (s : State) (a n : Nat) : Bool :=
  s.poison.any fun e => decide (a < e.1 * 64 + 64 ∧ e.1 * 64 < a + n)

/-- Whether a layer work takes its input from its descriptor's IN_ADDR: the first layer of its task (R271, log 22). -/
def fromDesc (w : Run) (s : State) (q : Req) : Bool := (w.rc s).layer == 0 && q.desc.inAddr != 0

/-- The blocks of a group that the descriptor provides land, as far as their ring slots are free. -/
def landInputs (s : State) (r : Nat) (q : Req) (bs : List Nat) : State :=
  bs.foldl (fun s mb =>
    match runAt s r with
    | some w =>
      if blockReady s w mb || !slotFree s w.slot w.layer (some w.req) none mb then s
      else
        let l := w.rc s
        if q.desc.inDev && poisoned s (inputRow l q (64 * mb)) (blockRows w.rows mb * ceilDiv (l.k * l.inHalf) 2)
        then failReq s w.req 0x7F else landInput s w q mb
    | none => s) s

/-- FETCH forms a group, waits until its blocks are ready, and places it whole in the queue to STEP (R187). -/
def fetchGroupOp (s : State) (r : Nat) : State :=
  match runAt s r with
  | none => s
  | some w =>
    match reqAt s w.req with
    | none => s
    | some q =>
      let l := w.rc s
      let n := min l.groupSize w.pool.length
      if l.tier ≠ 0 ∨ n = 0 ∨ (w.pool.length < l.groupSize ∧ w.spent = false) then s
      else
        let bs := w.pool.take n
        let s := if fromDesc w s q then landInputs s r q bs else s
        match runAt s r with
        | none => s
        | some w =>
          let home := w.home s
          if bs.all fun b => blockReady s w b then
            let c := coreAt s home
            let depth := (c.fetchQ.map fun e => e.2.length).sum
            if (n ≤ 8 ∧ depth + n ≤ 8) ∨ depth = 0 then
              let s := putCore s home { c with fetchQ := c.fetchQ ++ [(r, bs)] }
              let s := count s (pgFetch home) 0x44 n
              let s := if l.k % 64 = 0 then s else count s (pgFetch home) 0x5C n
              putRun s r (some { w with pool := w.pool.drop n, readyWait := false })
            else putRun s r (some { w with readyWait := false })
          else if w.readyWait then s
          else count (putRun s r (some { w with readyWait := true })) (pgFetch home) 0x50 1

/-- The valid rows of a unit's blocks, rising. -/
def unitRows (rows : Nat) (u : AUnit) : List Nat :=
  u.blocks.flatMap fun b => (List.range (blockRows rows b)).map fun i => 64 * b + i

/-- The step at a place in an engine's order over the granted units: the plate of its list and the row (R194). -/
def stepAt (rows : Nat) (ps : List PlateEnt) : List AUnit → Nat → Option (PlateEnt × Nat)
  | [], _ => none
  | u :: us, n =>
    let qs := ps.filter fun p => u.nts.contains p.nt
    let rs := unitRows rows u
    if n < qs.length * rs.length then
      match qs[n / rs.length]?, rs[n % rs.length]? with
      | some p, some m => some (p, m)
      | _, _ => none
    else stepAt rows ps us (n - qs.length * rs.length)

/-- The engine of a plate entry, as the engine table counts it. -/
def entEngine (l : LayerRec) (p : PlateEnt) : Nat := coreIdx l.die p.core * 512 + p.engine

/-- The engines of a set. -/
def setEngines (l : LayerRec) (ps : List PlateEnt) : List Nat := (ps.map fun p => entEngine l p).dedup

/-- The step that an engine needs next of a layer work. -/
def nextStep (l : LayerRec) (w : Run) (ps : List PlateEnt) (e : Nat) : Option (PlateEnt × Nat) :=
  stepAt w.rows (ps.filter fun p => entEngine l p == e) w.units (tget 0 w.cursor e)

/-- The physical plate on an engine that holds a plate of a shard for a slot (R139, R157). The plates of an inherited shard bear the
number of the update that took them over, which names the shard by its KIND 2 entry (R304, R305). -/
def findPlate (s : State) : Nat → Nat → Nat → Nat → Nat → Option Nat
  | 0, _, _, _, _ => none
  | fuel + 1, e, slot, shard, inShard =>
    match s.plates.find? fun x => x.1 / 512 == e && x.2.owner == slot && x.2.shard == shard && x.2.inShard == inShard &&
        x.2.st != .free && x.2.st != .bad with
    | some x => some (x.1 % 512)
    | none =>
      match s.slots.find? fun k => k.2.base == slot && k.2.man.flags % 2 == 1 && (k.2.st == .active || k.2.st == .retiring) with
      | none => none
      | some k =>
        match k.2.man.shards.zipIdx.find? fun h => h.1.kind == 2 && h.1.ref == shard with
        | some h => findPlate s fuel e k.1 h.2 inShard
        | none => none

/-- The 64 input codes of a row and K-slice, as the staging buffers hold them: elements beyond K are 0 (R62, R188). -/
def readRow (s : State) (l : LayerRec) (m ks : Nat) : List Int :=
  let c := coreIdx l.die l.source
  let base := ringBase l (m / 64) + ks * tileBytes l + m % 64 * (32 * l.inHalf)
  let fmt := if l.inFmt = 0 then 2 else if l.inFmt = 1 then 3 else if l.inFmt = 2 then 0 else 1
  (List.range 64).map fun i => if 64 * ks + i < l.k then intOf fmt (coreElem s c fmt base i) else 0

/-- One broadcast delivers a row of a K-slice to every engine of the set whose next step needs it; it waits until each of
them has a free staging entry (R188). -/
def rowBroadcastOp (s : State) (r row ks : Nat) : State :=
  match runAt s r with
  | none => s
  | some w =>
    let l := w.rc s
    let ps := setPlates (w.man s) l w.set
    let goals := (setEngines l ps).filterMap fun e =>
      match nextStep l w ps e with
      | some (p, m) => if m = row ∧ p.ks = ks then some (e, p) else none
      | none => none
    if goals.isEmpty || goals.any fun g => decide (16 ≤ (engAt s g.1).staged.length + (engAt s g.1).steps.length) then s
    else
      let x := readRow s l row ks
      let s := goals.foldl (fun s g =>
        let e := engAt s g.1
        let pl := (findPlate s 15 g.1 w.slot g.2.shard g.2.inShard).getD 0
        putEng s g.1 { e with staged := e.staged ++ [⟨r, row, ks, g.2.nt, pl, x⟩] }) s
      let cur := goals.foldl (fun t g => tset 0 t g.1 (tget 0 t g.1 + 1)) w.cursor
      count64 (putRun s r (some { w with cursor := cur })) (pgFetch (w.home s)) 0x48 1

/-! ### STEP: allocation (R189) -/

/-- The unit that a layer work asks for next: the group at the head of the home core's queue, or the next N-tile phase of
the group in progress. -/
def wantUnit (s : State) (r : Nat) (w : Run) : Option AUnit :=
  let m := w.man s
  let l := w.rc s
  let mk := fun bs nts => { blocks := bs, nts := nts, left := 0 : AUnit }
  let nts := ((setPlates m l w.set).map fun p => p.nt).dedup.insertionSort (· ≤ ·)
  match w.phases with
  | nt :: _ => if w.units.isEmpty then some (mk w.phaseBs [nt]) else none
  | [] =>
    match (coreAt s (w.home s)).fetchQ with
    | (q, bs) :: _ =>
      if q ≠ r then none
      else if l.loop = 1 then (if w.units.isEmpty then some (mk bs (nts.take 1)) else none)
      else some (mk bs nts)
    | [] => none

/-- The tiles that a unit needs on a core. -/
def unitTiles (m : Manifest) (l : LayerRec) (u : AUnit) (core : Nat) : List (Nat × Nat) :=
  u.blocks.flatMap fun b => ((coreTiles m l core).filter fun n => u.nts.contains n).map fun n => (b, n)

/-- The free tiles of a core. -/
def freeTiles (c : Core) : List Nat := (List.range 32).filter fun t => (tget none c.tiles t).isNone

/-- The units of a layer and set that hold tiles on a core. -/
def unitsHeld (s : State) (w : Run) (c : Core) : Nat :=
  ((c.tiles.filterMap fun e => e.2.bind fun t =>
    match runAt s t.run with
    | some v => if v.slot == w.slot && v.layer == w.layer && v.set == w.set then some (t.run, t.unit) else none
    | none => none).dedup).length

/-- Whether an earlier allocation waits on a core: of an earlier request, or of an earlier layer of the same one. -/
def earlierWaits (s : State) (r : Nat) (w : Run) (core : Nat) : Bool :=
  (runList s).any fun e =>
    e.1 != r && (e.2.rc s).die == (w.rc s).die &&
    (decide (e.2.req < w.req) || (e.2.req == w.req && decide ((e.2.rc s).layer < (w.rc s).layer))) &&
    match wantUnit s e.1 e.2 with
    | some u => !(unitTiles (e.2.man s) (e.2.rc s) u core).isEmpty && (setCores (e.2.man s) (e.2.rc s) e.2.set).contains core
    | none => false

/-- A core's tiles taken for a unit: which free tiles they are is left open (log 11), and every entry is empty (R190). -/
def takeTiles (s : State) (r unit rows : Nat) (ks : Nat) (c : Nat) (l : List (Nat × Nat)) : State :=
  l.foldl (fun s x =>
    let core := coreAt s c
    let free := freeTiles core
    let t := (free[Config.freeNat s.free % max free.length 1]?).getD 0
    let tile : Tile := ⟨r, unit, x.1, x.2, blockRows rows x.1 * ks, false, false, 0⟩
    let lo := coreKey c (0x400000 + 16384 * t)
    { putCore s c { core with tiles := tset none core.tiles t (some tile) } with
      free := s.free + 1
      coreMem := s.coreMem.filter fun e => !(decide (lo ≤ e.1 ∧ e.1 < lo + 16384)) }) s

/-- STEP allocates the tiles of a unit on every core of the set that needs them, or the allocation waits (R189). A core counts a group
once, with the phase of its lowest N-tile (R210). -/
def accAllocateOp (s : State) (r : Nat) : State :=
  match runAt s r with
  | none => s
  | some w =>
    match wantUnit s r w with
    | none => s
    | some u =>
      let m := w.man s
      let l := w.rc s
      let cores := (setCores m l w.set).filter fun c => !(unitTiles m l u c).isEmpty
      let ok := fun (c : Nat) =>
        let core := coreAt s (coreIdx l.die c)
        decide (unitsHeld s w core < 1 + l.doubling) &&
        decide ((unitTiles m l u c).length ≤ (freeTiles core).length) && !earlierWaits s r w c
      if cores.all ok then
        let s := cores.foldl (fun s c =>
          let k := coreIdx l.die c
          let s := takeTiles s r w.nUnit w.rows l.kSlices k (unitTiles m l u c)
          let s := modCore s k fun x => { x with peak := max x.peak x.tiles.length }
          match (coreTiles m l c).head? with
          | some n => if u.nts.contains n then count s (pgAcc k) 0x48 1 else s
          | none => s) s
        let steps := ((u.blocks.map fun b => blockRows w.rows b).sum) *
          ((setPlates m l w.set).filter fun p => u.nts.contains p.nt).length
        let nts := ((setPlates m l w.set).map fun p => p.nt).dedup.insertionSort (· ≤ ·)
        let inGroup := !w.phases.isEmpty
        let s := if inGroup then s else modCore s (w.home s) fun x => { x with fetchQ := x.fetchQ.tail }
        putRun s r (some { w with
          units := w.units ++ [{ u with left := steps }]
          nUnit := w.nUnit + 1
          phaseBs := u.blocks
          phases := if inGroup then w.phases.tail else if l.loop = 1 then nts.tail else []
          accWait := false })
      else if w.accWait then s
      else
        (cores.filter fun c => !ok c).foldl (fun s c => count s (pgAcc (coreIdx l.die c)) 0x44 1)
          (putRun s r (some { w with accWait := true }))

/-! ### STEP: results (R172, R190) -/

/-- The contribution of one part is added to the entries of a tile's row, for the outputs that are not masked (R171, R172,
R206). -/
def addPart (s : State) (c tile row cols : Nat) (vals : List Int) : State :=
  (vals.zipIdx.take cols).foldl (fun s e =>
    let a := 0x400000 + 4 * (tile * 4096 + row % 64 * 64 + e.2)
    let old := intOf 5 (numAt s.coreMem (coreKey c a) 4)
    let (v, sat) := satAdd32 old e.1
    let s := corePut s c a (leBytes 4 (v % 4294967296).toNat)
    if sat then ev (count s (pgVec c) 0x68 1) (pgVec c) 1 tile else s) s

/-- The units at the head that have been passed whole leave, and the engines' places move with them. -/
def dropPassed (l : LayerRec) (ps : List PlateEnt) (rows : Nat) : List AUnit → Tab Nat → List AUnit × Tab Nat
  | [], c => ([], c)
  | u :: us, c =>
    if u.left = 0 then
      let n := fun e => ((ps.filter fun p => entEngine l p == e && u.nts.contains p.nt).length) * (unitRows rows u).length
      dropPassed l ps rows us (tmapi 0 (fun e k => k - n e) c)
    else (u :: us, c)

/-- The unit whose step has been passed counts it. Units may be passed in any order (R86): one leaves once those before it have. -/
def Run.passed (w : Run) (l : LayerRec) (ps : List PlateEnt) (mb nt : Nat) : Run :=
  let us := modFirst (fun u => u.blocks.contains mb && u.nts.contains nt) (fun u => { u with left := u.left - 1 }) w.units
  let r := dropPassed l ps w.rows us w.cursor
  { w with units := r.1, cursor := r.2 }

/-- A step's result is passed to STEP: each part is added in order, the tile and the block count it, and a block stepped
whole frees its ring slot (R190, R193). -/
def passStep (s : State) (c : Nat) (x : Step) (vals : List (List Int)) : State :=
  match runAt s x.run with
  | none => s
  | some w =>
    let l := w.rc s
    let mb := x.row / 64
    match (coreAt s c).tiles.find? fun e => match e.2 with
        | some t => t.run == x.run && t.mb == mb && t.nt == x.nt
        | none => false with
    | some (t, some tile) =>
      let s := vals.foldl (fun s v => addPart s c t x.row (l.cols x.nt) v) s
      let s := count64 s (pgCstat c) 0x40 1
      let s := modCore s c fun k => { k with tiles := tset none k.tiles t (some { tile with left := tile.left - 1 }) }
      let n := tget 0 w.left mb - 1
      let w := { w.passed l (setPlates (w.man s) l w.set) mb x.nt with left := tset 0 w.left mb n }
      let s := putRun s x.run (some w)
      if n = 0 then freeSlot s w mb else s
    | _ => s

/-- A complete tile is placed in the queue to DRAIN, while it has room (R190). -/
def tileQueueOp (s : State) (c t : Nat) : State :=
  let k := coreAt s c
  match tget none k.tiles t with
  | some x =>
    if x.left = 0 ∧ x.queued = false ∧ k.drainQ.length < 8 then
      putCore s c { k with drainQ := k.drainQ ++ [t], tiles := tset none k.tiles t (some { x with queued := true }) }
    else s
  | none => s

/-! ### DRAIN (R191, R192) -/

/-- A program fault stops the program and ends its request with INTERNAL (R169). -/
def progFault (s : State) (c pc : Nat) : State :=
  let id := match (coreAt s c).vrun with
    | some v => (runAt s v.run).map fun w => w.req
    | none => none
  let s := modCore s c fun k => { k with vrun := none, loops := [], step := false }
  let s := ev (rset s (pgVec c) 0x48 (put 14 0 pc)) (pgVec c) 0 (pc % 65536)
  match id with
  | some r => failReq s r 0x7F
  | none => s

/-- A program begins on a core with every vector register, mask and scalar at 0 but those given (R191, R192); one of no instructions
faults at its first index (R169). -/
def startProg (s : State) (c : Nat) (v : VRun) (sc : Tab W32) (m1 : W64) : State :=
  let s := modCore s c fun k => { k with v := [], m := tset 0 [] 1 m1, sc := sc, pc := v.first, vrun := some v, loops := [] }
  if v.count = 0 then progFault s c v.first else s

/-- The bounds of a core's program in its program store (R164, R289). -/
def progBounds (s : State) (slot die core prog : Nat) : Option (Nat × Nat) :=
  let m := manOf s slot
  match progIdx m die core prog with
  | none => none
  | some i =>
    match (slotAt s slot).bases.find? fun e => e.1 == i with
    | some (_, b) => some (b, (progEnt m i).code.length)
    | none => none

/-- Element (m, 64 × nt) of a core's output area: its N-tiles of the layer lie side by side in rising order (log 21). -/
def outAddr (m : Manifest) (l : LayerRec) (core row nt : Nat) : Nat :=
  let ts := coreTiles m l core
  let area := match (coreEnts m l).find? fun e => e.core == core with
    | some e => e.outArea
    | none => 0
  area + (row * 64 * ts.length + 64 * ts.idxOf nt) * l.outHalf / 2

/-- Whether the vector unit of a core is halted, so that DRAIN waits (R408). -/
def halted (s : State) (c : Nat) : Bool := rbit s (pgCdbg c) 0x40 0

/-- Whether a request launched earlier has still to end its passes on a core, or to be issued: passes run in the order of launch, and each
request ends its pass of a layer's slots in the layer's end program there (R175, R192). -/
def earlierPass (s : State) (w : Run) (c : Nat) : Bool :=
  let l := w.rc s
  let rank : Nat → Nat := fun id => match reqAt s id with | some q => q.launch | none => 0
  l.endProg != 0xFFFF &&
  (((runList s).any fun e =>
      e.2.slot == w.slot && e.2.layer == w.layer && decide (rank e.2.req < rank w.req) &&
      (setCores (w.man s) l e.2.set).contains (c % 16) && !e.2.ended.contains c) ||
    s.reqs.any fun e => match e.2 with
      | some q => (q.phase == .dispatched || q.phase == .checking) && q.desc.opc == 1 && q.slot == w.slot &&
          q.desc.task.toNat == l.task && decide (q.launch < rank w.req)
      | none => false)

/-- A program's quantiser slots whose pass for an earlier request has not been committed on the core: no pass of this request
begins there until then (R175, R178). -/
def busySlots (s : State) (w : Run) (c prog : Nat) : List Nat :=
  let m := w.man s
  let ns := match progIdx m (w.rc s).die (c % 16) prog with
    | some i => progSlots (progEnt m i).code
    | none => []
  ns.filter fun n => match qslotAt s (qKey w.slot c n) with
    | some q => (q.isOpen && q.req != w.req) || earlierPass s w c
    | none => false

/-- A program waits for the commit of passes of earlier requests: in a scale group of more than one core each wait counts
once for its request (R178). -/
def startWaits (s : State) (w : Run) (c : Nat) (ns : List Nat) : State :=
  ns.foldl (fun s n =>
    let key := qKey w.slot c n
    match qslotAt s key with
    | none => s
    | some q =>
      let group := (manOf s w.slot).qslots.any fun e => e.group == q.cfg.group && !(coreIdx e.die e.core == c && e.slot == n)
      if q.startWait.contains w.req || !group then s
      else count (putQSlot s key (some { q with startWait := w.req :: q.startWait })) (pgVec c) 0x70 1) s

/-- Whether the start of a pass of a slot of a core is waiting, for one of the requests whose wait has been counted (R178, R182). -/
def startWaiting (s : State) (slot c n : Nat) (q : QSlot) : Bool :=
  q.startWait.any fun id => (reqRuns s id).any fun e => e.2.slot == slot &&
    ((busySlots s e.2 c (e.2.rc s).drainProg).contains n || (busySlots s e.2 c (e.2.rc s).endProg).contains n)

/-- The quantiser slots that hold a tile's row program back. -/
def tileBusy (s : State) (c t : Nat) : List Nat :=
  match (tget none (coreAt s c).tiles t).bind fun x => runAt s x.run with
  | some w => busySlots s w c (w.rc s).drainProg
  | none => []

/-- The waits of the tiles that DRAIN passes over. -/
def waitTiles (s : State) (c : Nat) (ts : List Nat) : State :=
  ts.foldl (fun s t => match (tget none (coreAt s c).tiles t).bind fun x => runAt s x.run with
    | some w => startWaits s w c (tileBusy s c t)
    | none => s) s

/-- DRAIN runs the row program for the next valid row of the tile it has taken, or takes the first tile of its queue whose
passes may begin (R178, R191, log 27). -/
def drainRowOp (s : State) (c : Nat) : State :=
  let k := coreAt s c
  if k.vrun.isSome || halted s c then s
  else
    let held := k.drainQ.takeWhile fun t => !(tileBusy s c t).isEmpty
    let cur := (k.tiles.find? fun e => match e.2 with
      | some t => t.taken
      | none => false).map fun e => e.1
    let s := if cur.isSome then s else waitTiles s c held
    match cur.or (k.drainQ.drop held.length).head? with
    | none => s
    | some t =>
      match tget none k.tiles t with
      | none => s
      | some x =>
        match runAt s x.run with
        | none => s
        | some w =>
          let m := w.man s
          let l := w.rc s
          match progBounds s w.slot l.die (c % 16) l.drainProg with
          | none => s
          | some (b, n) =>
            let row := 64 * x.mb + x.row
            let q := if x.taken then k.drainQ else k.drainQ.erase t
            let s := putCore s c { k with drainQ := q, tiles := tset none k.tiles t (some { x with taken := true }) }
            let cols := l.cols x.nt
            let sc : Tab W32 := ((List.range 6).zip
              [0x400000 + 4 * (t * 4096 + x.row * 64), row * 64 * l.nTiles + 64 * x.nt, outAddr m l (c % 16) row x.nt, cols,
               x.nt, row]).foldl (fun tb e => tset 0 tb (e.1 + 1) (BitVec.ofNat 32 e.2)) []
            let s := startProg s c ⟨x.run, some t, x.row, b, n⟩ sc (BitVec.ofNat 64 (2 ^ cols - 1))
            dieFlags (count s (pgDrain c) 0x48 1) w.req l.die

/-- Whether a layer work has no row left to drain on a core: its share is stepped, and no tile of it remains there. -/
def drainedOn (s : State) (r : Nat) (w : Run) (c : Nat) : Bool :=
  w.spent && w.pool.isEmpty && w.units.isEmpty && w.phases.isEmpty && w.left.isEmpty &&
  ((coreAt s c).tiles.all fun e => match e.2 with | some t => t.run != r | none => true) &&
  (s.cores.all fun e => e.2.fetchQ.all fun x => x.1 != r)

/-- The end program of a layer runs once on a core, after the last row of the layer of a request there (R192). -/
def endProgOp (s : State) (r c : Nat) : State :=
  match runAt s r with
  | none => s
  | some w =>
    let l := w.rc s
    let sibs := (siblings s w).filter fun e => (setCores (e.2.man s) l e.2.set).contains (c % 16)
    if (coreAt s c).vrun.isSome || halted s c || l.tier != 0 || c / 16 != l.die || sibs.isEmpty ||
        (sibs.any fun e => e.2.ended.contains c || !drainedOn s e.1 e.2 c) then s
    else
      match progBounds s w.slot l.die (c % 16) l.endProg with
      | none => s
      | some (b, n) =>
        let busy := busySlots s w c l.endProg
        if busy.isEmpty then startProg s c ⟨r, none, 0, b, n⟩ [] 0 else startWaits s w c busy

/-! ### Deliveries (R192, R193, R443) -/

/-- A drained tile leaves its place and waits to be delivered: at once, or after the VQEND of a pass in current mode or
under REQUANT that its row program used (R192). -/
def releaseTile (s : State) (c : Nat) (x : Tile) (w : Run) : State :=
  let l := w.rc s
  let hold := (drainSlots (w.man s) l (c % 16)).any fun n =>
    match qslotAt s (qKey w.slot c n) with
    | some q => q.isOpen && q.req == w.req && q.holds
    | none => false
  modCore s c fun k => if hold then { k with heldOut := k.heldOut ++ [(x.run, x.mb, x.nt)] }
    else { k with deliver := k.deliver ++ [(x.run, x.mb, x.nt)] }

/-- Held output of a layer work whose passes have ended is released for delivery. -/
def releaseHeld (s : State) (c : Nat) : State :=
  let ready := fun (e : Nat × Nat × Nat) =>
    match runAt s e.1 with
    | some w => (drainSlots (w.man s) (w.rc s) (c % 16)).all fun n =>
        match qslotAt s (qKey w.slot c n) with
        | some q => !(q.isOpen && q.req == w.req)
        | none => true
    | none => true
  modCore s c fun k => { k with
    deliver := k.deliver ++ k.heldOut.filter ready
    heldOut := k.heldOut.filter fun e => !ready e }

/-- A tile's row as half bytes of its elements in the output area. -/
def outRow (s : State) (m : Manifest) (l : LayerRec) (c row nt : Nat) : List Byte :=
  bytesAt s.coreMem (coreKey c (outAddr m l (c % 16) row nt)) (ceilDiv (l.cols nt * l.outHalf) 2)

/-- Bytes of an output written to the host or to package memory. -/
def destPut (s : State) (id : Nat) (q : Req) (a : Nat) (l : List Byte) : State :=
  let s := if q.desc.outDev then pkgPut s a l else hostPut s a l
  noteOut s id a l

/-- A row of an output written in whole bytes: a byte shared with another row keeps the nibble that the request has
produced, and 0 otherwise (R443). -/
def putRow (s : State) (id : Nat) (l : LayerRec) (row nt : Nat) (bytes : List Byte) : State :=
  match reqAt s id with
  | none => s
  | some q =>
    let first := row * l.n + 64 * nt
    let base := q.desc.outAddr.toNat
    if l.outEb ≠ 0 then destPut s id q (base + first * l.outHalf / 2) bytes
    else
      (List.range (l.cols nt)).foldl (fun s i =>
        match reqAt s id with
        | none => s
        | some q =>
          let nib := (bytes.getD (i / 2) 0).toNat / 16 ^ (i % 2) % 16
          let a := base + (first + i) / 2
          let old := ((tget none q.out a).getD 0).toNat
          let v := if (first + i) % 2 = 0 then old / 16 * 16 + nib else nib * 16 + old % 16
          destPut s id q a (leBytes 1 v)) s

/-- The layer record that a consumer entry names, with its session slot: the same flacon for the same task, and else the
slot that provides the task (R289, log 24). -/
def consRec (s : State) (w : Run) (e : ConsEnt) : Option (Nat × Nat) :=
  let same := e.task == (w.rc s).task
  let slot := if same then w.slot else tget 0 s.prov e.task
  ((manOf s slot).layers.findIdx? fun l => l.task == e.task && l.layer == e.layer &&
    (l.die == e.die || (e.die == 0xFF && l.tier == 1))).map fun i => (slot, i)

/-- The layer work that takes tiles of a consumer's layer for a request. -/
def consRun (s : State) (req slot layer : Nat) : Option (Nat × Run) :=
  (runList s).find? fun e => e.2.req == req && e.2.slot == slot && e.2.layer == layer

/-- Bytes of one input tile of a slow-tier layer, and of all that lie in the unit's SRAM or are on their way there (R328). -/
def slowTile (s : State) (slot layer : Nat) : Nat := 2048 * inHalfAt (slotAt s slot) layer (recAt (manOf s slot) layer)
def slowUse (s : State) : Nat :=
  let tier := fun (slot layer : Nat) => (recAt (manOf s slot) layer).tier
  (((runList s).filter fun e => tier e.2.slot e.2.layer == 1).map fun e =>
    (e.2.landed.map fun x => x.2).sum * slowTile s e.2.slot e.2.layer).sum +
  ((s.feeds.filter fun f => f.taken.isNone && tier f.slot f.layer == 1).map fun f =>
    (f.got.map fun x => x.2).sum * slowTile s f.slot f.layer).sum +
  (s.landing.map fun g => match g.cargo with
    | .tile _ slot layer _ _ _ _ => if tier slot layer = 1 then slowTile s slot layer else 0
    | .out .. | .stripe .. => 0).sum

/-- Whether the unit's 8 MiB SRAM has room for one more input tile of a layer. -/
def slowRoom (s : State) (slot layer : Nat) : Bool := decide (slowUse s + slowTile s slot layer ≤ 8388608)

/-- Whether a consumer can take the tiles of a block now (R193). Of a feed whose request has ended nothing lands any more (R207). -/
def consReady (s : State) (w : Run) (mb : Nat) (e : ConsEnt) : Bool :=
  if e.kind ≠ 0 then true
  else match consRec s w e with
    | none => true
    | some (slot, layer) =>
      if (recAt (manOf s slot) layer).tier = 1 then slowRoom s slot layer
      else if (recAt (manOf s slot) layer).task = (w.rc s).task then
        match consRun s w.req slot layer with
        | some v => !wanted s v.2 mb || slotFree s slot layer (some w.req) none mb
        | none => slotFree s slot layer (some w.req) none mb
      else
        match s.feeds.find? fun f => f.slot == slot && f.layer == layer && f.src == 32 && f.key == w.req with
        | some f => (match f.taken with
          | some id => (match consRun s id slot layer with
            | some v => !wanted s v.2 mb || slotFree s slot layer (some id) (some w.req) mb
            | none => true)
          | none => slotFree s slot layer none (some w.req) mb)
        | none => slotFree s slot layer none (some w.req) mb

/-- A tile, given by its rows, lands as an input tile of a consumer's layer: in its ring, or in the slow-tier unit (R193, R328). A layer
of another task takes it through a feed of the request that produced it (log 24). -/
def landTileRows (s : State) (req slot layer mb nt : Nat) (own : Bool) (rows : List (Nat × List Byte)) : State :=
  let k := recAt (manOf s slot) layer
  let dst := coreIdx k.die k.source
  let store := fun (t : Tab Byte) =>
    rows.foldl (fun t x => putBytes t (((mb * k.kSlices + nt) * 64 + x.1) * 64) x.2) t
  let place := fun (s : State) =>
    if k.tier = 1 then s
    else rows.foldl (fun s x => corePut s dst (ringBase k mb + nt * tileBytes k + x.1 * (32 * k.inHalf)) x.2) s
  let land := fun (s : State) (r : Nat) (v : Run) =>
    if wanted s v mb = false then s
    else
      let v := if k.tier = 1 then { v with slowIn := store v.slowIn } else v
      landTile (putRun (place s) r (some v)) v mb
  if own then
    match consRun s req slot layer with
    | some v => land s v.1 v.2
    | none => s
  else
    match s.feeds.find? fun f => f.slot == slot && f.layer == layer && f.src == 32 && f.key == req with
    | none => newFeed (place s) ⟨slot, layer, 32, req, [(mb, 1)], if k.tier = 1 then store [] else [], none, false⟩
    | some f =>
      match f.taken with
      | none =>
        let s := place s
        let more := fun (g : Feed) => { g with
          got := tset 0 g.got mb (tget 0 g.got mb + 1), mem := if k.tier = 1 then store g.mem else g.mem }
        { s with feeds := modFirst (fun g => g == f) more s.feeds }
      | some id =>
        match consRun s id slot layer with
        | some v => land s v.1 v.2
        | none => s

/-- The flag word of a stripe: its index, and the outcomes of its lines (log 24). -/
def flagWord (d : StripeDue) : Nat :=
  d.stripe % 65536 + (if d.bad then 65536 else 0) + (if d.clip then 131072 else 0) + (if d.rate then 262144 else 0)

/-- A stripe lands in the ring of one bound layer, and marks a block of its input ready once the block is whole (R250, R289). -/
def landStripe (s : State) (n : Nat) (d : StripeDue) (slot layer : Nat) (lines : List (List Byte)) : State :=
  let m := manOf s slot
  let l := recAt m layer
  match bindOf m l n with
  | none => s
  | some b =>
    let dst := coreIdx b.die b.source
    let a := b.land + d.stripe % max b.slots 1 * (b.pitch * 64)
    let s := corePut s dst (a - 64) (leBytes 4 (flagWord d))
    let s := (lines.zipIdx).foldl (fun s x => corePut s dst (a + x.2 * d.pitch) x.1) s
    let mb := d.stripe / max b.spb 1
    match s.feeds.find? fun g => g.slot == slot && g.layer == layer && g.src == n && g.key == d.key with
    | none => s
    | some g =>
      let got := tget 0 g.got mb + 1
      let s := { s with feeds := modFirst (fun x => x == g) (fun x => { x with got := tset 0 x.got mb got }) s.feeds }
      match g.taken with
      | none => s
      | some id =>
        if bindNeed b (stripesOf s n) mb ≤ got then
          match (runList s).find? fun e => e.2.req == id && e.2.slot == slot && e.2.layer == layer with
          | some w => landTo s w.2 mb l.kSlices
          | none => s
        else s

/-- What a transfer brings lands at its destination. -/
def landCargo (s : State) (c : Cargo) : State :=
  match c with
  | .tile id slot layer mb nt own rows => checkDone (landTileRows s id slot layer mb nt own rows) id
  | .out id slot layer eb mb nt rows =>
    let l := { recAt (manOf s slot) layer with outEb := eb }
    checkDone (rows.foldl (fun s o => putRow s id l (64 * mb + o.1) nt o.2) s) id
  | .stripe n d slot layer lines => landStripe s n d slot layer lines

/-- Everything whose flits have all arrived lands, in the order in which it was sent (R317). -/
def landArrivals (s : State) : State :=
  let there := s.landing.filter fun g => !onWay s g.xfer g.die
  (there.map fun g => g.cargo).foldl landCargo (pruneLanding s)

/-- One delivery from a source unit with what it brings to each destination. What goes nowhere beyond the source lands at once; what no route
carries is lost (R317, R319, R321). -/
def sendCargo (s : State) (src : Nat) (dests : List Nat) (req : Option Nat) (bytes : Nat) (cargo : List (Nat × Cargo)) : State :=
  let lost := lostDests s src dests
  let x := s.nextXfer
  let s := if dests.isEmpty then s else sendXfer s src dests req bytes
  let go := cargo.filter fun c => !lost.contains c.1
  let far := go.filter fun c => onWay s x c.1
  let near := go.filter fun c => !onWay s x c.1
  let s := { s with landing := s.landing ++ far.map fun c => ⟨x, c.1, c.2⟩ }
  let s := ((cargo.filter fun c => lost.contains c.1).map fun c => c.2).foldl loseCargo s
  (near.map fun c => c.2).foldl landCargo s

/-- What an output tile of a layer work brings to each entry of CONSUMERS, by destination (R193). -/
def tileCargo (s : State) (w : Run) (mb nt : Nat) (outEb : Nat) (rows : List (Nat × List Byte)) : List (Nat × Cargo) :=
  let l := w.rc s
  (consEnts (w.man s) l).flatMap fun e =>
    if e.kind = 1 then [(16, .out w.req w.slot w.layer outEb mb nt rows)]
    else match consRec s w e with
      | none => []
      | some (slot, layer) =>
        let k := recAt (manOf s slot) layer
        [(if k.tier = 1 then 16 else k.die, .tile w.req slot layer mb nt (k.task == l.task) rows)]

/-- DRAIN delivers the tile at the head of its deliveries to every consumer, once each can take it and the source has room
for a transfer (R193, R321). -/
def tileDeliveryOp (s : State) (c : Nat) : State :=
  let k := coreAt s c
  match k.deliver with
  | [] => s
  | (r, mb, nt) :: rest =>
    match runAt s r with
    | none => putCore s c { k with deliver := rest, waitDel := false }
    | some w =>
      let m := w.man s
      let l := w.rc s
      let cons := consEnts m l
      let far := ((cons.map fun e => if e.kind = 1 ∨ e.die = 0xFF then 16 else e.die).dedup).filter fun d => d != l.die
      let room := cons.all fun e => consReady s w mb e
      if !halted s c && room && mayTransfer s l.die far then
        let s := putCore s c { k with deliver := rest, waitDel := false }
        let bytes := blockRows w.rows mb * ceilDiv (l.cols nt * l.outHalf) 2
        let rows := (List.range (blockRows w.rows mb)).map fun i => (i, outRow s m l c (64 * mb + i) nt)
        checkDone (sendCargo s l.die far (some w.req) bytes (tileCargo s w mb nt l.outEb rows)) w.req
      else if room then putCore s c { k with waitDel := false }
      else if k.waitDel then s
      else count (putCore s c { k with waitDel := true }) (pgDrain c) 0x4C 1

/-! ### Memory errors of a core (R207) -/

/-- A memory error at a byte address of a core's memories; an uncorrectable one ends the request that met it. -/
def sramEccOp (s : State) (c a : Nat) (corrected : Bool) (req : Option Nat) : State :=
  let acc := decide (0x400000 ≤ a)
  let tile := (a - 0x400000) / 16384 % 32
  let code := if acc then tile else a / 64 % 65536
  if corrected then ev (count s (pgCore c) 0x48 1) (pgCore c) 0 code
  else
    let s := ev (count s (pgCore c) 0x4C 1) (pgCore c) (if acc then 2 else 1) code
    match req with
    | some id => failReq s id 0x7F
    | none => s

/-- What FETCH, STEP or DRAIN does, while the cores have their clocks. -/
def clocked (s t : State) : State := if coreClocks s then t else s

def execFetchGroup (run : Nat) (s : State) : Host.Outcome State Fault Refusal := done (clocked s (fetchGroupOp s run))
def execCounterClaim (run : Nat) (s : State) : Host.Outcome State Fault Refusal := done (clocked s (claimOp s run 1))
def execPavilionClaim (run : Nat) (s : State) : Host.Outcome State Fault Refusal := done (clocked s (claimOp s run 2))
def execRowBroadcast (run row ks : Nat) (s : State) : Host.Outcome State Fault Refusal :=
  done (clocked s (rowBroadcastOp s run row ks))
def execAccAllocate (run : Nat) (s : State) : Host.Outcome State Fault Refusal := done (clocked s (accAllocateOp s run))
def execTileQueue (core tile : Nat) (s : State) : Host.Outcome State Fault Refusal := done (clocked s (tileQueueOp s core tile))
def execDrainRow (core : Nat) (s : State) : Host.Outcome State Fault Refusal := done (clocked s (drainRowOp s core))
def execEndProg (run core : Nat) (s : State) : Host.Outcome State Fault Refusal := done (clocked s (endProgOp s run core))
def execTileDelivery (core : Nat) (s : State) : Host.Outcome State Fault Refusal := done (clocked s (tileDeliveryOp s core))
def execSramEccError (core addr : Nat) (corrected : Bool) (req : Option Nat) (s : State) :
    Host.Outcome State Fault Refusal := done (sramEccOp s core addr corrected req)

end Sys2Proof.Machine
end

