-- ==== Sys2Proof/Machine/Engine.lean ====
section
/-! DEFINITION. One engine and one step: driven inputs and the expected reference (R62, R63, R73), the governor's budget
(R372, R373), reads, plate changes and skips (R69 to R71, R88), the confidence check (R74, R75, R107), and what the
saturation decision does (R76 to R87, R170). -/

namespace Sys2Proof.Machine

open Sys2Proof

def modEng (s : State) (e : Nat) (f : Engine → Engine) : State := putEng s e (f (engAt s e))

/-- The die and the core of an engine. -/
def engDie (e : Nat) : Nat := e / 8192
def engCore (e : Nat) : Nat := e / 512

/-! ### Inputs (R62, R63, R73) -/

/-- An input code as the row driver drives it, with its sign. -/
def driven (fmt : Nat) (x : Int) : Int := if fmt = 0 then max x (-127) else if fmt = 1 then min x 254 else x

/-- The input codes of a part's rows. -/
def partRows (x : List Int) (p : PartSt) : List Int := (x.drop p.lo).take p.cnt

/-- The rows of a part with their driven inputs. -/
def partDriven (fmt : Nat) (x : List Int) (p : PartSt) : List (Nat × Int) :=
  ((partRows x p).zipIdx).map fun y => (p.lo + y.2, driven fmt y.1)

/-- E: what the reference pair should read over the rows that a read drives. -/
def expectedRef (fmt : Nat) (xs : List Int) : Int := 32 * (xs.map fun x => driven fmt x).sum

/-! ### The pairs and the converter (R59, R65, R66, R68, R72) -/

/-- The pair that a group's spare replaces, if any (R72). -/
def spareOf (remap : W32) (j : Nat) : Option Nat :=
  let n := remap.toNat / 16 ^ j % 16
  if 8 ≤ n then some (n - 8) else none

/-- The code that pair p of group j holds in a row, from the codes of the row's 64 outputs and of the reference pair: a spare
in use holds the codes of the pair it replaces (R59). -/
def pairCode (out : Nat → Int) (ref : Int) (remap : W32) (j p : Nat) : Int :=
  if p = 9 then ref
  else if p = 8 then (match spareOf remap j with | some q => out (8 * j + q) | none => 0)
  else if spareOf remap j = some p then 0 else out (8 * j + p)

/-- The weight code that a plate holds for output o in row r (R60, R61). -/
def weightAt (s : State) (key r o : Nat) : Int := (tget 0 s.weights (key * 4096 + 64 * r + o)).toInt

/-- The charge differences that a read of a plate leaves on the ten pairs of each group, in pu, from the driven inputs of its
rows (R65). -/
def charges (s : State) (key : Nat) (xs : List (Nat × Int)) : List Int :=
  let x := plateAt s key
  (List.range 80).map fun i =>
    (xs.map fun y => y.2 * pairCode (weightAt s key y.1) (if x.ref then 32 else 0) x.remap (i / 10) (i % 10)).sum

/-- What a group's converter reports of a difference at a range: the ideal code, departed from by a measured number of LSB
(R92, log 40), and held at the converter's limits with SAT (R66). -/
def tdc (g : Nat) (d err : Int) : Meas :=
  let v := divAway d (2 ^ g) + err
  if 2047 < v then ⟨2047, true⟩ else if v < -2048 then ⟨-2048, true⟩ else ⟨v, false⟩

/-- The pair converted at position k of a group: data pair k, or the spare that stands in for it (R68, R72). -/
def pairAt (remap : W32) (j k : Nat) : Nat := if spareOf remap j = some k then 8 else k

/-- The codes of the eight reference pairs of a read. -/
def refCodes (g : Nat) (charge errs : List Int) : List Meas :=
  (List.range 8).map fun j => tdc g (charge.getD (10 * j + 9) 0) (errs.getD j 0)

/-- The codes of the 64 conversion positions of a read, from the departures of the nine pairs of each group. -/
def dataCodes (g : Nat) (remap : W32) (charge errs : List Int) : List Meas :=
  (List.range 64).map fun o =>
    let p := pairAt remap (o / 8) (o % 8)
    tdc g (charge.getD (10 * (o / 8) + p) 0) (errs.getD (9 * (o / 8) + p) 0)

/-- Whether a part has no driven row (R88). -/
def allZero (fmt : Nat) (xs : List Int) : Bool := xs.all fun x => driven fmt x == 0

/-! ### Windows and the governor (R91, R372, R373) -/

/-- Whether an open calibration window covers an engine. -/
def Window.covers (w : Window) (e : Nat) : Bool := w.dies.getLsbD (engDie e) && w.cores.getLsbD (engCore e % 16)
def covered (s : State) (e : Nat) : Bool :=
  s.wins.any fun x => match x.2 with
    | some w => w.isOpen && w.covers e
    | none => false

/-- The latest close of the open windows that cover an engine (R232). -/
def coverEnd (s : State) (e : Nat) : Nat :=
  s.wins.foldl (fun t x => match x.2 with
    | some w => if w.isOpen && w.covers e then max t w.closeAt else t
    | none => t) 0

/-- The budget of a die for one microsecond (R371, R372). -/
def budget (s : State) (d : Nat) : Nat :=
  let p := rfld s pgPwr 0x44 1 0
  let b := if p = 0 then 12800 else if p = 1 then 30720 else 64000
  if (dieAt s d).rise then b * 3 / 4 else b

/-- The engines of a die that are listed, with their numbers. -/
def dieEngines (s : State) (d : Nat) : List (Nat × Engine) := s.engines.filter fun x => engDie x.1 == d

/-- When read i of a calibration begins that ends at a TB value (R103). -/
def calStart (last i : Nat) : Nat := last + 128 * i - 4288

/-- The reads of a calibration that begin in a microsecond, by their place among its 32: the calibration ends at a TB value, and
the first of its reads stand apart where a later one has had to wait (R103, R104). -/
def calReads (done last us : Nat) : List Nat :=
  (List.range 32).filter fun i => decide (done ≤ i) && calStart last i / 1000 == us

/-- Whether writes of a die are held: by MODE, by temperature, or by a supply warning and the time after it (R131, R132). -/
def supHeld (s : State) (d : Nat) : Bool :=
  let x := dieAt s d
  x.warn != 0 || s.pwr.live.getLsbD 0 || (match x.holdTill with | some t => decide (s.belv.tb < t) | none => false)
/-- Writes are held by temperature while the die's HOT condition holds: from a reading at T_WARN until one below T_WARN − 2 K
(R379; DEDUCED against the words "above T_WARN" of R132 and R150, log 41). -/
def hotHeld (s : State) (d : Nat) : Bool := (dieAt s d).hot
def prgMode (s : State) (d : Nat) : Nat := rfld s (pgPrg0 d) 0x40 1 0
def writeHeld (s : State) (d : Nat) : Bool := prgMode s d == 2 || supHeld s d || hotHeld s d

/-- Whether the engines are biased and clocked: they are in RUN alone (R367). -/
def awake (s : State) : Bool := s.pwr.st == .run

/-- Whether the dies are off by the power state (R367). -/
def asleep (s : State) : Bool :=
  match s.pwr.st with
  | .run | .ready | .doze => false
  | .nap | .sleep | .vigil => true

/-- Whether an engine has a step or a pending read that it may issue: no window bars it (R91, R131, R133). -/
def readReady (s : State) (k : Nat) (e : Engine) : Bool :=
  !covered s k && ((match e.pend with | p :: _ => decide (p.2 ≤ s.belv.tb) | [] => false) || !e.staged.isEmpty)

/-- Whether an engine's write operation gives way to a read: in every MODE but FOREGROUND (R131). -/
def givesWay (s : State) (k : Nat) (e : Engine) : Bool := prgMode s (engDie k) != 0 && readReady s k e

/-- Whether a segment, a pulse-verify pair or a touch-up of an engine is in progress: it is, unless writes are held, or
the engine is giving way to reads (R131), or the module has left RUN. -/
def opRunning (s : State) (k : Nat) (e : Engine) : Bool :=
  awake s && e.prog.isSome && !writeHeld s (engDie k) && !givesWay s k e

/-- Slots of the present microsecond that reads of steps and sweeps have used (R372). -/
def slotsUsed (s : State) (d : Nat) : Nat :=
  let x := dieAt s d
  if x.govUs = s.belv.tb / 1000 then x.used else 0

/-- Whether an engine's write operation takes slots of the present microsecond: it is in progress, or was at its charge. -/
def writeSlots (s : State) (k : Nat) (e : Engine) : Nat :=
  if opRunning s k e ∨ e.charged = s.belv.tb / 1000 + 1 then 8 else 0

/-- Slots that programming and begun calibrations take from the present microsecond ahead of reads (R373). -/
def slotsAhead (s : State) (d : Nat) : Nat :=
  ((dieEngines s d).map fun x => writeSlots s x.1 x.2 +
    (match x.2.calEnd with | some t => (calReads x.2.calDone t (s.belv.tb / 1000)).length | none => 0)).sum

/-- Whether an engine would begin a read now but for the budget. -/
def wantsRead (s : State) (k : Nat) (e : Engine) : Bool :=
  awake s && decide (e.freeAt ≤ s.belv.tb) && e.calEnd.isNone && !(prgMode s (engDie k) == 0 && e.prog.isSome) && readReady s k e

/-- A die's governor in a microsecond: a new one begins with its count at 0, and the rotation of reads starts one engine later
for each microsecond that has passed (R372, R373). -/
def Die.govAt (us : Nat) (x : Die) : Die :=
  if x.govUs = us then x
  else { x with govUs := us, used := 0, waited := false, rotor := (x.rotor + (us - x.govUs)) % 8192 }

/-- The state with one slot taken. -/
def takeSlot (s : State) (d : Nat) : State :=
  let x := (dieAt s d).govAt (s.belv.tb / 1000)
  count64 (putDie s d { x with used := x.used + 1 }) (pgDie d) 0x44 1

/-- Something waits for the budget: DIE_GOV_LIMIT_CNT counts the microsecond once. -/
def noteWait (s : State) (d : Nat) : State :=
  let x := (dieAt s d).govAt (s.belv.tb / 1000)
  if x.waited then s else count (putDie s d { x with waited := true }) (pgDie d) 0x4C 1

/-- Whether the budget lets a segment, pair or touch-up of an engine begin: the die's count, less the engine's own charge, is
below it (R372). -/
def writeFits (s : State) (k : Nat) : Bool :=
  let d := engDie k
  decide (slotsUsed s d + slotsAhead s d - writeSlots s k (engAt s k) < budget s d)

/-- The engine's write operation is charged 8 slots, once in a microsecond (R372). -/
def chargeWrite (s : State) (k : Nat) : State :=
  let us := s.belv.tb / 1000
  if (engAt s k).charged = us + 1 then s else count64 (modEng s k fun e => { e with charged := us + 1 }) (pgDie (engDie k)) 0x44 8

/-! ### Reads (R69 to R71, R78, R88) -/

/-- The layer record of a step's layer work. -/
def stepRec (s : State) (x : Step) : LayerRec :=
  match runAt s x.run with
  | some w => w.rc s
  | none => LayerRec.zero

/-- The class in force for a step: the descriptor's, and else the layer's (R77). -/
def stepClass (s : State) (x : Step) : Nat :=
  match runAt s x.run with
  | some w => match reqAt s w.req with
    | some q => if q.desc.acc = 0 then (w.rc s).accClass else q.desc.acc.toNat
    | none => (w.rc s).accClass
  | none => 1

/-- Reads of a part after its first, by class and the first read's check (R76). -/
def furtherReads (cls : Nat) (failed : Bool) : Nat :=
  let n := if cls = 2 ∨ cls = 5 then 1 else if cls = 3 ∨ cls = 6 then 3 else if cls = 4 ∨ cls = 7 then 7 else 0
  if 5 ≤ cls ∨ failed = true then n else 0

/-- The request of a step. -/
def stepReq (s : State) (x : Step) : Option Nat := (runAt s x.run).map fun w => w.req

def onReq (s : State) (r : Option Nat) (f : State → Nat → State) : State :=
  match r with
  | some id => f s id
  | none => s

/-- A part contributes its values; with its step's last part, the step's result is passed to STEP, its parts in row order
(R79, R86, R190). -/
def partDone (s : State) (k id pid : Nat) (p : PartSt) (vals : List Int) (sats : List Bool) : State :=
  let e := engAt s k
  let e := { e with parts := tdel e.parts pid, pend := e.pend.filter fun x => x.1 != pid }
  match tget none e.steps id with
  | none => putEng s k e
  | some r =>
    let r := { r with left := r.left - 1, done := tins r.done p.lo (vals, sats) }
    if r.left = 0 then
      let n := ((List.range 64).filter fun o => r.done.any fun d => d.2.2.getD o false).length
      let s := putEng s k { e with steps := tdel e.steps id }
      let s := onReq s (stepReq s r.step) fun s q => addSat s q n
      passStep s (engCore k) r.step (r.done.map fun d => d.2.1)
    else putEng s k { e with steps := tset none e.steps id (some r) }

/-- The part that the engine reads next: a placed read whose instant has come, and else the next staged step (R86). -/
def nextRead (s : State) (e : Engine) : Option (Nat ⊕ Step) :=
  match e.pend with
  | p :: _ => if p.2 ≤ s.belv.tb then some (.inl p.1) else e.staged.head?.map .inr
  | [] => e.staged.head?.map .inr

/-- The step and the part that a next read is of; a staged step's part is all of its rows. -/
def readOf (s : State) (e : Engine) : Nat ⊕ Step → Option (Step × PartSt)
  | .inr x => some (x, ⟨0, 0, 64, (stepRec s x).rg, 0, 1, []⟩)
  | .inl pid =>
    match tget none e.parts pid with
    | some p => (tget none e.steps p.step).map fun r => (r.step, p)
    | none => none

/-- Whether a read of a part would be skipped (R88). -/
def skips (s : State) (x : Step) (p : PartSt) : Bool := allZero (stepRec s x).inFmt (partRows x.x p)

/-- The plate that an engine sweeps: the first of its plates that await examination. -/
def sweepPlate (l : List Nat) (k : Nat) : Option Nat := l.find? fun p => p / 512 == k

/-- Whether an engine may take a sweep read of a plate, or the plate change for it: a window covers it and leaves the time, and it is
not due, calibrating or programming (R142). -/
def sweepOpen (s : State) (k p : Nat) (e : Engine) : Bool :=
  awake s && covered s k && !e.due && e.calEnd.isNone && e.prog.isNone && decide (e.freeAt ≤ s.belv.tb) &&
  decide (s.belv.tb + (if e.sel = p % 512 then 0 else 192) + 128 ≤ coverEnd s k) && (dieAt s (engDie k)).up

/-- Whether an engine's next act now, but for the budget, is to begin a read, of a step or of a sweep: not a skip and not a plate
change, which take no slot (R71, R88, R372). -/
def wantsSlot (s : State) (k : Nat) (e : Engine) : Bool :=
  (wantsRead s k e && match (nextRead s e).bind (readOf s e) with
    | some (x, p) => !skips s x p && e.sel == x.plate
    | none => false) ||
  match sweepPlate (dieAt s (engDie k)).sweep.todo k with
  | some p => sweepOpen s k p e && e.sel == p % 512
  | none => false

/-- The engines that come before one in this microsecond's rotation and want a slot too (R373). -/
def slotsBefore (s : State) (k : Nat) : Nat :=
  let from_ := ((dieAt s (engDie k)).govAt (s.belv.tb / 1000)).rotor
  let place := fun (n : Nat) => (n % 8192 + 8192 - from_ % 8192) % 8192
  ((dieEngines s (engDie k)).filter fun x => decide (place x.1 < place k) && wantsSlot s x.1 x.2).length

/-- Whether the die's budget grants an engine a read. -/
def granted (s : State) (k : Nat) : Bool :=
  decide (slotsUsed s (engDie k) + slotsAhead s (engDie k) + slotsBefore s k < budget s (engDie k))

/-- A staged step begins: it becomes a step in progress with one part, all of its rows. -/
def openStep (s : State) (k : Nat) (x : Step) : State × Nat :=
  let e := engAt s k
  let n := e.nextId
  let p : PartSt := ⟨n, 0, 64, (stepRec s x).rg, 0, 1, []⟩
  (putEng s k { e with
    staged := e.staged.tail
    nextId := n + 2
    steps := tset none e.steps n (some ⟨x, 1, []⟩)
    parts := tset none e.parts (n + 1) (some p) }, n + 1)

/-- An all-zero part is skipped in 16 ns and contributes exact zeros (R88). -/
def skipPart (s : State) (k pid : Nat) (p : PartSt) : State :=
  let s := modEng s k fun e => { e with freeAt := s.belv.tb + 16 }
  partDone (count64 s (pgCstat (engCore k)) 0x50 1) k p.step pid p (List.replicate 64 0) (List.replicate 64 false)

/-- A read of a part begins to integrate, with the coefficients and tolerance in force (R69, R75, R106, R372); a stale engine and a
DRIFTED plate mark the request (R113, R149). -/
def beginRead (s : State) (k pid : Nat) (p : PartSt) (x : Step) : State :=
  let d := engDie k
  let e := engAt s k
  let first := p.reads.isEmpty && e.flights.all fun f => f.part != pid
  let f : Flight :=
    { part := pid, start := s.belv.tb, tol := rfld s (pgCal0 d) 0x44 3 0, offs := e.coef.map fun c => c.off,
      gains := e.coef.map fun c => c.gain, lim := rfld s (pgCal0 d) 0x44 15 8
      remap := (plateAt s (k * 512 + x.plate)).remap, charge := charges s (k * 512 + x.plate) (partDriven (stepRec s x).inFmt x.x p)
      refs := none, failed := false, first := first }
  let pend := if first then e.pend.filter fun y => y.1 != pid
    else e.pend.eraseP fun y => y.1 == pid
  let s := putEng s k { e with flights := e.flights ++ [f], freeAt := s.belv.tb + 128, pend := pend }
  let s := count64 (takeSlot s d) (pgCstat (engCore k)) 0x48 1
  onReq s (stepReq s x) fun s q =>
    let s := if (first && p.depth != 0) || (!first && decide (stepClass s x < 5)) then addRepeat s q 1 else s
    let s := if e.stale then setQual s q qCalStale else s
    let s := if (plateAt s (k * 512 + x.plate)).st = .drifted then setQual s q qDrifted else s
    dieFlags s q d

/-- An engine begins its next read, or the plate change that the read needs, or skips the part (R70, R71, R88). It waits
while a window covers it (R91), while it calibrates or programs in the foreground, and while the budget is used up. -/
def readIntegrateOp (s : State) (k : Nat) : State :=
  let e := engAt s k
  let d := engDie k
  if wantsRead s k e = false ∨ (dieAt s d).up = false then s
  else
    match nextRead s e with
    | none => s
    | some c =>
      match readOf s e c with
      | none => s
      | some (x, p) =>
        let opened := fun (s : State) => match c with
          | .inr x => let r := openStep s k x
                      (r.1, r.2, { p with step := r.2 - 1 })
          | .inl pid => (s, pid, p)
        if skips s x p then
          let (s, pid, p) := opened s
          skipPart s k pid p
        else if e.sel ≠ x.plate then
          count (putEng s k { e with sel := x.plate, freeAt := s.belv.tb + 192 }) (pgCstat (engCore k)) 0x64 1
        else if granted s k then
          let (s, pid, p) := opened s
          beginRead s k pid p x
        else noteWait s d

/-! ### The confidence check (R74, R75, R107 to R109) -/

/-- Whether E lies within the limits of R67 at a range; the check is not made otherwise. -/
def refInRange (g : Nat) (e : Int) : Bool := decide (-2048 * 2 ^ g ≤ e ∧ e ≤ 2047 * 2 ^ g)

/-- The check of a group over the reads of a part, evaluated exactly (R107): each read's reference code with the offset
and gain in force for it. -/
def refPasses (tol g : Nat) (e : Int) (l : List (Meas × Int × Nat)) : Bool :=
  let n : Int := l.length
  let sum : Int := (l.map fun r => (16 * r.1.code - r.2.1) * (r.2.2 : Int) * 2 ^ g).sum
  (l.all fun r => !r.1.sat) && decide (((sum - 2 ^ 18 * n * e).natAbs : Int) ≤ 2 ^ 18 * n * tol * 2 ^ g)

/-- The groups that fail the check over some reads, each given by its reference codes, offsets and gains. -/
def failGroups (tol g : Nat) (e : Int) (l : List (List Meas × List Int × List Nat)) : List Bool :=
  (List.range 8).map fun j =>
    !refPasses tol g e (l.map fun r => (r.1.getD j ⟨0, true⟩, r.2.1.getD j 0, r.2.2.getD j 0))

/-- The codes of the causes (R120). -/
def Cause.code : Cause → Nat
  | .none => 0 | .confidence => 1 | .temperature => 2 | .bringUp => 3 | .host => 4 | .period => 5

/-- The calibration plate of an engine: the plate last programmed or touched up among those that hold a programmed
reference pair, the lowest index of several (R105). -/
def calPlateOf (s : State) (k : Nat) : Option Nat :=
  let l := s.plates.filter fun x => x.1 / 512 == k && x.2.ref
  match (l.map fun x => x.2.tb).max? with
  | none => none
  | some t => (l.find? fun x => x.2.tb == t).map fun x => x.1 % 512

/-- The stale state of an engine is judged (R113). The temperature condition compares a reading of the die with the temperature
at the last calibration, or at the production trim: it needs a reading since the die came up (log 18). -/
def judgeStale (s : State) (k : Nat) : State :=
  let e := engAt s k
  let d := engDie k
  let dt := ((dieAt s d).lastTemp - e.calTemp).natAbs
  let lim := rfld s (pgCal0 d) 0x4C 15 8 * 4
  let st := e.never || (e.due && decide (e.dueAt + rfld s (pgCal0 d) 0x50 15 0 * 1000000 < s.belv.tb)) ||
    (decide (lim ≠ 0 ∧ lim ≤ dt) && !(dieAt s d).temps.isEmpty)
  let s := putEng s k { e with stale := st }
  if st && !e.stale then ev s (pgCal0 d) 0 (k % 8192) else s

/-- The stale state of the engines of a die that are not listed, which are alike and never due, is judged: where they become stale the
first of them is named (R113). -/
def judgeRest (s : State) (d : Nat) : State :=
  let x := dieAt s d
  let first := (keysOf (dieEngines s d)).foldl (fun i k => if k = 8192 * d + i then i + 1 else i) 0
  let lim := rfld s (pgCal0 d) 0x4C 15 8 * 4
  let st := x.proto.never || (decide (lim ≠ 0 ∧ lim ≤ (x.lastTemp - x.proto.calTemp).natAbs) && !x.temps.isEmpty)
  let e := { x.proto with stale := st }
  let s := putDie { s with engines := s.engines.filter fun y => engDie y.1 != d || y.2 != e } d { x with proto := e }
  if st && !x.proto.stale && decide (first < 8192) then ev s (pgCal0 d) 0 first else s

/-- An engine becomes due for a cause; the first condition met stays its cause, and of several first met at one TB the one
with the lowest code (R108). An engine with no calibration plate is never due (R105). -/
def markDue (s : State) (k : Nat) (c : Cause) : State :=
  let e := engAt s k
  if (calPlateOf s k).isNone then s
  else if e.due then
    if e.dueAt = s.belv.tb ∧ c.code < e.cause.code then putEng s k { e with cause := c } else s
  else judgeStale (putEng s k { e with due := true, cause := c, dueAt := s.belv.tb }) k

/-- The end of a group's block of 4,096 checked first reads: the confidence cause is judged and the counters begin again
(R108, R109), under the limit in force when the read that ends it began (R235). -/
def blockEnd (s : State) (k j lim : Nat) : State :=
  let e := engAt s k
  let d := engDie k
  let c := e.coef.getD j Coef.zero
  let fires := decide (lim ≠ 0 ∧ lim ≤ c.failed) && rbit s (pgCal0 d) 0x40 0
  let below := decide (c.failed < lim)
  let set := fun (e : Engine) (c : Coef) => { e with coef := e.coef.set j c }
  let c0 := { c with failed := 0, checked := 0 }
  if fires then
    let s := count s (pgCal0 d) 0x6C 1
    if c.cured then ev (putEng s k (set e c0)) (pgCal0 d) 3 (k % 8192)
    else
      let s := markDue (putEng s k (set e c0)) k .confidence
      modEng s k fun e =>
        if e.due ∧ e.cause = .confidence then { e with confGrp := (e.confGrp ++ [j]).dedup } else e
  else if below then
    putEng s k { (set e c0) with coef := (e.coef.set j c0).map fun x => { x with cured := false } }
  else putEng s k (set e c0)

/-- A checked first read counts in each group, and a failing group counts as such (R75). -/
def countChecks (s : State) (k lim : Nat) (fails : List Bool) : State :=
  (fails.zipIdx).foldl (fun s f =>
    let e := engAt s k
    let c := e.coef.getD f.2 Coef.zero
    let c := { c with checked := c.checked + 1, failed := if f.1 then c.failed + 1 else c.failed }
    let s := putEng s k { e with coef := e.coef.set f.2 c }
    if 4096 ≤ c.checked then blockEnd s k f.2 lim else s) s

/-- The confidence decision of the oldest read whose reference pairs have been converted, 145 ns after its start (R75): `errs`
holds the departures of the eight reference pairs from their ideal codes, in LSB. -/
def confidenceOp (s : State) (k : Nat) (errs : List Int) : State :=
  let e := engAt s k
  match e.flights.find? fun f => f.refs.isNone with
  | none => s
  | some f =>
    if s.belv.tb < f.start + 145 then s
    else
      let put := fun (s : State) (refs : List Meas) (bad : Bool) => modEng s k fun e =>
        { e with flights := modFirst (fun g => g.refs.isNone) (fun g => { g with refs := some refs, failed := bad }) e.flights }
      match tget none e.parts f.part with
      | none => put s [] false
      | some p =>
        match tget none e.steps p.step with
        | none => put s [] false
        | some r =>
          let refs := refCodes p.range f.charge errs
          let er := expectedRef (stepRec s r.step).inFmt (partRows r.step.x p)
          let cs := pgCstat (engCore k)
          if refInRange p.range er then
            let fails := failGroups f.tol p.range er [(refs, f.offs, f.gains)]
            let bad := fails.any id
            let s := put s refs bad
            let s := if bad then count s cs 0x58 1 else s
            if f.first then countChecks s k f.lim fails else s
          else count (put s refs false) cs 0x5C 1

/-! ### The saturation decision (R78 to R87, R170) -/

/-- The contribution of one output of a part from its reads (R170). -/
def contribution (g : Nat) (reads : List ReadRes) (o : Nat) : Int :=
  let p : Int := (reads.map fun r =>
    (16 * (r.codes.getD o ⟨0, false⟩).code - r.offs.getD (o / 8) 0) * (r.gains.getD (o / 8) 0 : Int) * 2 ^ g).sum
  divAway p (2 ^ 18 * reads.length)

/-- All reads of a part are taken: its averaged check is made, and it contributes (R78, R79). -/
def finishPart (s : State) (k pid : Nat) (p : PartSt) (r : StepRun) (tol : Nat) : State :=
  let er := expectedRef (stepRec s r.step).inFmt (partRows r.step.x p)
  let fails := failGroups tol p.range er (p.reads.map fun q => (q.refs, q.offs, q.gains))
  let cs := pgCstat (engCore k)
  let s := if refInRange p.range er && fails.any id then count s cs 0x60 1 else s
  let sats := (List.range 64).map fun o => p.reads.any fun q => (q.codes.getD o ⟨0, false⟩).sat
  let s := if sats.any id then count s cs 0x6C 1 else s
  partDone s k p.step pid p ((List.range 64).map fun o => contribution p.range p.reads o) sats

/-- A part is replaced by other parts, whose first reads are placed in the pending list in order (R82, R83, R86). -/
def replacePart (s : State) (k pid : Nat) (p : PartSt) (new : List PartSt) : State :=
  let e := engAt s k
  let ids := (List.range new.length).map fun i => e.nextId + i
  let parts := (ids.zip new).foldl (fun t x => tset none t x.1 (some x.2)) (tdel e.parts pid)
  let at_ := s.belv.tb + 2
  putEng s k { e with
    nextId := e.nextId + new.length
    parts := parts
    pend := (e.pend.filter fun x => x.1 != pid) ++ ids.map fun i => (i, at_)
    steps := (match tget none e.steps p.step with
      | some r => tset none e.steps p.step (some { r with left := r.left + new.length - 1 })
      | none => e.steps) }

/-- The saturation decision of the oldest read whose conversion has ended, 256 ns after its start (R81 to R86): `errs`
holds the departures of the nine pairs of each group, data pairs and spare, from their ideal codes, in LSB. -/
def saturationOp (s : State) (k : Nat) (errs : List Int) : State :=
  let e := engAt s k
  match e.flights with
  | [] => s
  | f :: rest =>
    match f.refs with
    | none => s
    | some refs =>
      if s.belv.tb < f.start + 256 then s
      else
        let s := putEng s k { e with flights := rest }
        match tget none e.parts f.part with
        | none => s
        | some p0 =>
          match tget none e.steps p0.step with
          | none => s
          | some r =>
            let l := stepRec s r.step
            let q := stepReq s r.step
            let codes := dataCodes p0.range f.remap f.charge errs
            let p := { p0 with reads := p0.reads ++ [⟨codes, refs, f.offs, f.gains⟩] }
            let sat := codes.any fun c => c.sat
            let s := if sat then onReq s q fun s id => setQual s id qSat else s
            let put := fun (s : State) (p : PartSt) => modEng s k fun e => { e with parts := tset none e.parts f.part (some p) }
            if f.first ∧ sat = true ∧ l.satPol = 0 ∧ p.depth < 2 then
              let h := p.cnt / 2
              let half := fun (lo : Nat) => { p with lo := lo, cnt := h, depth := p.depth + 1, reads := [] }
              let s := onReq s q fun s id => setQual s id qSplit
              replacePart (count s (pgCstat (engCore k)) 0x68 1) k f.part p [half p.lo, half (p.lo + h)]
            else if f.first ∧ sat = true ∧ l.satPol = 2 ∧ p.depth = 0 ∧ p.range < 8 then
              let s := onReq s q fun s id => setQual s id qRepeat
              replacePart s k f.part p [{ p with range := p.range + 1, depth := 2, reads := [] }]
            else if f.first then
              let cls := stepClass s r.step
              let n := furtherReads cls f.failed
              let p := { p with want := 1 + n }
              let s := if n ≠ 0 ∧ cls < 5 then onReq s q fun s id => setQual s id qRepeat else s
              if n = 0 then finishPart s k f.part p r f.tol
              else
                let at_ := s.belv.tb + 2
                modEng (put s p) k fun e => { e with pend := e.pend ++ List.replicate n (f.part, at_) }
            else if p.reads.length = p.want then finishPart s k f.part p r f.tol
            else put s p

def execReadIntegrate (eng : Nat) (s : State) : Host.Outcome State Fault Refusal := done (readIntegrateOp s eng)
def execConfidenceDecision (eng : Nat) (errs : List Int) (s : State) : Host.Outcome State Fault Refusal :=
  done (confidenceOp s eng errs)
def execSaturationDecision (eng : Nat) (errs : List Int) (s : State) : Host.Outcome State Fault Refusal :=
  done (saturationOp s eng errs)

end Sys2Proof.Machine
end

