-- ==== Sys2Proof/Machine/Calib.lean ====
section
/-! DEFINITION. Engine calibration: coefficients and their acceptance (R100 to R103), the governor's share (R104), tracking
(R106), causes and windows (R108 to R111), saving (R112), CALIBRATE (R114) and the CAL1 snapshot (R119, R120). -/

namespace Sys2Proof.Machine

open Sys2Proof

/-- The engines of a die with a state or a plate of their own, rising. -/
def liveEngines (s : State) (d : Nat) : List Nat :=
  let a := keysOf (dieEngines s d)
  let b := ((keysOf s.plates).map fun p => p / 512).filter fun k => engDie k == d
  (a ++ b).dedup.insertionSort (· ≤ ·)

/-! ### Coefficients (R101, R102) -/

/-- The 144 codes of a group's offset reads: no row is driven, so every pair's difference is 0 (R100). -/
def offsetCodes (m : CalMeas) : List Meas := (List.range 144).map fun i => tdc 7 0 (m.offs.getD i 0)

/-- The 144 codes of a group's gain reads, nine to a read with the reference pair first, from the charge differences that the
calibration vector leaves (R68, R100). -/
def gainCodes (remap : W32) (charge : List Int) (j : Nat) (m : CalMeas) : List Meas :=
  (List.range 144).map fun i =>
    let p := if i % 9 = 0 then 9 else pairAt remap j (i % 9 - 1)
    tdc 7 (charge.getD (10 * j + p) 0) (m.gains.getD i 0)

/-- The results of one group from its codes: OFF, GAIN_CAL, and whether they are accepted (R101, R102). -/
def coefOf (offs gains : List Meas) : Int × Nat × Bool :=
  let off := divAway (16 * (offs.map fun c => c.code).sum) 144
  let sg := ((gains.zipIdx).map fun c => if c.2 % 9 = 0 then c.1.code else 0).sum
  let den := sg - off
  let gain := if den ≤ 0 then 0 else (divAway (2 ^ 28) den).toNat
  (off, gain, !((offs ++ gains).any fun c => c.sat) && decide (off.natAbs ≤ 256) && decide (12288 ≤ gain ∧ gain ≤ 24576))

/-- The calibration vector: every row driven at +64 (R100). -/
def calVector : List (Nat × Int) := (List.range 64).map fun r => (r, 64)

/-- The results of the eight groups of an engine on its calibration plate. -/
def calResults (s : State) (k : Nat) (groups : List CalMeas) : List (Int × Nat × Bool) :=
  let key := k * 512 + (engAt s k).calPlate
  let charge := charges s key calVector
  (List.range 8).map fun j =>
    let m := groups.getD j ⟨[], []⟩
    coefOf (offsetCodes m) (gainCodes (plateAt s key).remap charge j m)

/-- The active gain of a group at a difference of temperature in 1/16 K (R106). -/
def trackedGain (kt : Nat) (dt : Int) (gainCal : Nat) : Nat :=
  (clampInt 0 0xFFFF (gainCal + divAway (gainCal * kt * dt) (2 ^ 24))).toNat

/-- CAL_KT of a die: fixed in production, and the typical value where none is given (R118, log 1). -/
def ktOf (s : State) (d : Nat) : Nat := (tget 1887 s.part.kt d).toNat

/-- The gains of an engine at a diode reading (R106). -/
def Engine.track (on : Bool) (kt : Nat) (temp : Int) (e : Engine) : Engine :=
  { e with coef := e.coef.map fun c =>
      { c with gain := if on then trackedGain kt (temp - e.calTemp) c.gainCal else c.gainCal } }

/-- Whether an engine is in the implicit window: its bring-up calibration runs, and none has been rejected since (R111). -/
def Engine.inBringUp (e : Engine) : Bool := e.calEnd.isSome && e.cause == .bringUp && !e.never

/-! ### Beginning in a window (R103, R104, R110) -/

/-- The time that an engine's calibration takes (R103). -/
def calTime (e : Engine) (plate : Nat) : Nat := if e.sel = plate then 4288 else 4480

/-- The calibrations begun and not ended on a die. -/
def begunCals (s : State) (d : Nat) : Nat := ((dieEngines s d).filter fun x => x.2.calEnd.isSome).length

/-- Whether one more calibration fits the die's budget at the rate of R103, one read in 128 ns (R104). -/
def calFits (s : State) (d : Nat) : Bool := decide ((begunCals s d + 1) * 1000 ≤ budget s d * 128)

/-- DIE_SLOTS counts the reads of an engine's calibration that have begun and that it has not counted yet (R372, R385). -/
def chargeCal (s : State) (k : Nat) : State :=
  let e := engAt s k
  match e.calEnd with
  | none => s
  | some last =>
    let n := ((List.range 32).filter fun i => decide (e.calDone ≤ i ∧ s.belv.tb < calStart last i)).length
    count64 (putEng s k { e with calSlots := 32 - n }) (pgDie (engDie k)) 0x44 (32 - n - e.calSlots)

/-- As the clock goes on, the calibration reads that begin are counted. -/
def chargeCals (s : State) : State := (keysOf (s.engines.filter fun e => e.2.calEnd.isSome)).foldl chargeCal s

/-- An engine calibration begins when its read in flight has integrated (R103, R105). -/
def beginCal (s : State) (k : Nat) : State :=
  match calPlateOf s k with
  | none => s
  | some p =>
    let e := engAt s k
    let c := max e.freeAt s.belv.tb
    let last := c + calTime e p
    let d := engDie k
    chargeCal (putEng s k { e with calPlate := p, sel := p, calBegin := c, calEnd := some last, calDone := 0, calSlots := 0,
                                   freeAt := last, calDirty := (dieAt s d).warn != 0 }) k

/-- A due engine's turn in its window: it begins if it fits the window and the budget, is deferred if only the budget is
short, until a later microsecond, and else stays due and is counted (R104, R110, R373). The answer says whether it is
deferred. -/
def tryCal (s : State) (k : Nat) : State × Bool :=
  let e := engAt s k
  match calPlateOf s k with
  | none => (s, false)
  | some p =>
    if e.due = false ∨ e.calEnd.isSome ∨ e.prog.isSome then (s, false)
    else if coverEnd s k < max e.freeAt s.belv.tb + calTime e p then
      (ev (count s (pgCal0 (engDie k)) 0x64 1) (pgCal0 (engDie k)) 2 (k % 8192), false)
    else if awake s && calFits s (engDie k) then (beginCal s k, false)
    else
      let s := if awake s then noteWait s (engDie k) else s
      (putDie s (engDie k) { dieAt s (engDie k) with tickUs := s.belv.tb / 1000 }, true)

/-- The place of an engine in the order of R104: by cause, and then by index. -/
def calKey (s : State) (k : Nat) : Nat := (engAt s k).cause.code * 131072 + k

/-- Due engines take their turns by cause and then by index; those that the governor defers remain (R104). -/
def tryCals (s : State) (l : List Nat) : State × List Nat :=
  (l.insertionSort fun a b => calKey s a ≤ calKey s b).foldl (fun r k =>
    let x := tryCal r.1 k
    (x.1, if x.2 then r.2 ++ [k] else r.2)) (s, [])

/-- The due engines that a window covers when it opens. -/
def dueIn (s : State) (w : Window) : List Nat :=
  (bitsOf w.dies).flatMap fun d => if dieUp s d then
    (liveEngines s d).filter fun k => w.covers k && (engAt s k).due && (engAt s k).prog.isNone else []

/-- A window opens on the dies of its mask that are online then (R232): its due engines begin, or are deferred or counted
(R110). -/
def openWindow (s : State) (n : Nat) : State :=
  match winAt s n with
  | none => s
  | some w =>
    let w := { w with isOpen := true, dies := ofBits 16 ((bitsOf w.dies).filter fun d => dieUp s d) }
    let s := putWin s n (some w)
    let r := tryCals s (dueIn s w)
    match winAt r.1 n with
    | some w => putWin r.1 n (some { w with defer := r.2 })
    | none => r.1

/-- Deferred engines of a die try again (R104, R110). -/
def retryCals (s : State) (d : Nat) : State :=
  (keysOf s.wins).foldl (fun s n =>
    match winAt s n with
    | some w =>
      if w.isOpen then
        let mine := w.defer.filter fun k => engDie k == d
        let r := tryCals s mine
        putWin r.1 n (some { w with defer := (w.defer.filter fun k => engDie k != d) ++ r.2 })
      else s
    | none => s) s

/-- The begun calibrations that the governor holds to the budget, in the order of R104; an implicit window is not governed
(R373). -/
def governedCals (s : State) (d : Nat) : List Nat :=
  (keysOf ((dieEngines s d).filter fun x => x.2.calEnd.isSome && !x.2.inBringUp)).insertionSort fun a b => calKey s a ≤ calKey s b

/-- An engine's calibration takes its reads of this microsecond from the slots that are left; the first read that finds none
waits for the next microsecond, and all that follow come as much later (R104); those granted before it stay charged to this
microsecond. The answer says what is left. -/
def grantCal (s : State) (k left : Nat) : State × Nat :=
  let e := engAt s k
  let us := s.belv.tb / 1000
  match e.calEnd with
  | none => (s, left)
  | some last =>
    let l := calReads e.calDone last us
    match l.drop left with
    | [] => (s, left - l.length)
    | i :: _ =>
      let late := (us + 1) * 1000 - calStart last i
      let s := putEng s k { e with calEnd := some (last + late), freeAt := last + late, calDone := i }
      let x := (dieAt s (engDie k)).govAt us
      (noteWait (putDie s (engDie k) { x with used := x.used + left }) (engDie k), 0)

/-- The begun calibrations of a die take their reads of this microsecond, after the write operations (R373). They keep the timeline
of R103 while their reads fit, at its rate, what is left of the budget, and are held to it in each microsecond once a cut has left
them fewer slots than that (R104). -/
def grantCals (s : State) (d : Nat) : State :=
  let writes := ((dieEngines s d).map fun x => writeSlots s x.1 x.2).sum
  let l := governedCals s d
  if l.length * 1000 ≤ (budget s d - writes) * 128 then s
  else (l.foldl (fun (r : State × Nat) k => grantCal r.1 k r.2) (s, budget s d - writes)).1

/-- A new microsecond of the governor (R372, R373): the count begins again and the rotation moves on; write operations in
progress are charged, begun calibrations take their reads, and deferred ones try again. -/
def governorTickOp (s : State) (d : Nat) : State :=
  let x := dieAt s d
  let us := s.belv.tb / 1000
  if x.up = false ∨ us ≤ x.tickUs then s
  else
    let s := putDie s d { x.govAt us with tickUs := us }
    let s := (keysOf ((dieEngines s d).filter fun e => opRunning s e.1 e.2)).foldl chargeWrite s
    retryCals (chargeCals (grantCals s d)) d

/-! ### The end of a calibration (R102, R103, R109, R113, R114) -/

/-- A CALIBRATE request that waits for nothing more completes (R114). -/
def calibrateDone (s : State) (id : Nat) : State :=
  match reqAt s id with
  | some q => if q.desc.opc = 0x20 ∧ q.phase = .running ∧ q.waitFor = [] then finishReq s id else s
  | none => s

/-- An accepted calibration serves the CALIBRATE requests dispatched before it began. -/
def serveCalibrate (s : State) (k from_ : Nat) : State :=
  let s := mapReqs s fun r =>
    if r.desc.opc == 0x20 && decide (r.at_ ≤ from_) then { r with waitFor := r.waitFor.filter fun x => x != k } else r
  (keysOf s.reqs).foldl calibrateDone s

/-- An engine that has lost its last plate with a programmed reference pair is due no more, and nothing waits for its calibration
(R105). -/
def dropDue (s : State) (k : Nat) : State :=
  if (calPlateOf s k).isSome ∨ (engAt s k).due = false then s
  else
    let s := judgeStale (modEng s k fun e => { e with due := false, cause := .none, confGrp := [] }) k
    let s := mapReqs s fun r => if r.desc.opc == 0x20 then { r with waitFor := r.waitFor.filter fun x => x != k } else r
    (keysOf s.reqs).foldl calibrateDone s

/-- An engine that a CALIBRATE dispatched meanwhile still names is due with cause host from that dispatch (R108, R114). -/
def dueAgain (s : State) (k : Nat) : State :=
  let ts := s.reqs.filterMap fun r => r.2.bind fun q =>
    if q.desc.opc == 0x20 && q.phase == .running && q.waitFor.contains k then some q.at_ else none
  match ts.min? with
  | some t => judgeStale (modEng s k fun e => { e with due := true, cause := .host, dueAt := t }) k
  | none => s

/-- The end of an engine calibration, with what its groups' conversions measured (R101 to R103, R109, R113, R114). The diode
temperature that it records is the die's latest reading, also one of before its last bring-up, and 0 where there has been none
since the power-on reset (DESIGN CHOICE, log 18). -/
def engineCalEndOp (s : State) (k : Nat) (groups : List CalMeas) : State :=
  let e := engAt s k
  let d := engDie k
  match e.calEnd with
  | none => s
  | some last =>
    if s.belv.tb < last then s
    else
      let s := chargeCal s k
      let res := calResults s k groups
      let e : Engine := { engAt s k with calEnd := none, freeAt := s.belv.tb }
      let conf := fun (v : Bool) (l : List Coef) => if e.cause = Cause.confidence then
        (l.zipIdx).map fun c => if e.confGrp.contains c.2 then { c.1 with cured := v } else c.1 else l
      if e.calDirty || (dieAt s d).warn != 0 || res.any fun r => !r.2.2 then
        let s := putEng s k { e with rejects := min (e.rejects + 1) 255, never := e.never || decide (e.cause = .bringUp),
                                     coef := conf false e.coef }
        judgeStale (ev (count s (pgCal0 d) 0x68 1) (pgCal0 d) 1 (k % 8192)) k
      else
        let coef := (e.coef.zip res).map fun c =>
          { c.1 with gainCal := c.2.2.1, gain := c.2.2.1, off := c.2.1, failed := 0, checked := 0 }
        let s := putEng s k { e with
          coef := conf true coef, calTb := s.belv.tb, calFrom := s.belv.tb, calTemp := (dieAt s d).lastTemp, due := false,
          stale := false, never := false, cause := .none, rejects := 0, confGrp := [] }
        dueAgain (serveCalibrate (count s (pgCal0 d) 0x60 1) k e.calBegin) k

/-! ### The housekeeping round's part (R106, R108, R113) -/

/-- The temperature and period causes of an engine (R108). -/
def judgeCauses (s : State) (k : Nat) : State :=
  let e := engAt s k
  let d := engDie k
  let p := pgCal0 d
  let trig := rfld s p 0x4C 7 0 * 4
  let per := rfld s p 0x48 15 0
  let s := if trig ≠ 0 ∧ trig ≤ ((dieAt s d).lastTemp - e.calTemp).natAbs then markDue s k .temperature else s
  if per ≠ 0 ∧ e.calFrom + per * 1000000 ≤ s.belv.tb then markDue s k .period else s

/-- Gains are tracked, causes judged, and the stale states of every engine judged. -/
def calRound (s : State) (d : Nat) : State :=
  let s := mapEngines s (fun x => x == d) (Engine.track (rbit s (pgCal0 d) 0x40 1) (ktOf s d) (dieAt s d).lastTemp)
  let l := liveEngines s d
  let s := if rbit s (pgCal0 d) 0x40 0 then l.foldl judgeCauses s else s
  judgeRest (l.foldl judgeStale s) d

/-! ### Saving, loading and bring-up (R111, R112, R368) -/

/-- What is saved of an engine. -/
def Engine.saved (e : Engine) : Saved :=
  { gains := e.coef.map fun c => c.gainCal, offs := e.coef.map fun c => c.off, tb := e.calTb, temp := e.calTemp, plate := e.calPlate }

/-- Every engine of a die saved to a store. -/
def saveAll (s : State) (d : Nat) (t : Tab Saved) : Tab Saved :=
  (liveEngines s d).foldl (fun t k => tset Saved.zero t k (engAt s k).saved) t

/-- The die's coefficients written to its SLC region. -/
def saveCoefs (s : State) (d : Nat) : State :=
  let s := { s with slc := saveAll s d s.slc }
  putDie s d { dieAt s d with savedAt := s.belv.tb }

/-- The periodic write, at most once in 10 minutes (R112). -/
def calCoefSaveOp (s : State) (d : Nat) : State :=
  if (dieAt s d).up ∧ (dieAt s d).savedAt + 600000000000 ≤ s.belv.tb then saveCoefs s d else s

/-- An engine with stored coefficients. -/
def Engine.load (e : Engine) (v : Saved) : Engine :=
  { e with
    coef := (v.gains.zip v.offs).map fun c => { Coef.zero with gainCal := c.1, gain := c.1, off := c.2 }
    calTb := v.tb, calTemp := v.temp, calPlate := v.plate }

/-- An engine is due with cause bring-up, as always when its die comes up (R108); its stale state is judged with it (R113). -/
def dueBringUp (s : State) (k : Nat) (never : Bool) : State :=
  judgeStale (modEng s k fun e => { e with due := true, cause := .bringUp, dueAt := s.belv.tb, never := never }) k

/-- The engines of a die that are listed or have stored coefficients. -/
def storedEngines (s : State) (d : Nat) (t : Tab Saved) : List Nat :=
  (liveEngines s d ++ (t.filter fun x => engDie x.1 == d).map fun x => x.1).dedup

/-- The engines of a die load their coefficients from a store (step 0x08 of R410, R368). -/
def loadCoefs (s : State) (d : Nat) (t : Tab Saved) : State :=
  (storedEngines s d t).foldl (fun s k => modEng s k fun e => { e.load (tget Saved.zero t k) with calFrom := s.belv.tb }) s

/-- The implicit window (R111): every engine of the die has its stored coefficients, and those with a calibration plate
are due with cause bring-up and begin at once; the governor defers none. -/
def implicitWindow (s : State) (d : Nat) (t : Tab Saved) : State :=
  (storedEngines s d t).foldl (fun s k => if (calPlateOf s k).isSome then beginCal (dueBringUp s k false) k else s) (loadCoefs s d t)

/-! ### CALIBRATE (R114) -/

/-- CALIBRATE marks the engines it names as due, and waits for them; in NAP it first waits for the exit (R370). -/
def calibrateOp (s : State) (id : Nat) : State :=
  match if asleep s then none else takeReq s id 0x20 with
  | none => s
  | some q =>
    let cores := fld q.desc.param 31 16
    let dies := (bitsOf (BitVec.ofNat 16 (fld q.desc.param 15 0))).filter fun d => (dieAt s d).online
    let l := dies.flatMap fun d => (liveEngines s d).filter fun k =>
      cores.testBit (engCore k % 16) && (calPlateOf s k).isSome
    let s := modReq s id fun q => { q with phase := .running, ran := true, waitFor := l }
    calibrateDone (l.foldl (fun s k => markDue s k .host) s) id

/-! ### CAL1 (R119, R120) -/

/-- A write of CAL_ENG_INDEX takes a snapshot of an engine. -/
def calSnapshot (s : State) (d : Nat) : State :=
  let p := pgCal1 d
  let e := engAt s (8192 * d + rfld s p 0x40 12 0)
  let s := rset s p 0x44 (putBit 31 e.due ||| putBit 30 e.stale ||| putBit 29 e.never ||| put 28 26 e.cause.code |||
    put 23 16 e.rejects ||| put 8 0 e.calPlate)
  let s := rset (rset64 s p 0x48 e.calTb) p 0x50 (put16 e.calTemp)
  (e.coef.zipIdx).foldl (fun s c =>
    let o := 4 * c.2
    let s := rset s p (0x60 + o) (put 31 16 c.1.gain ||| put 11 0 (c.1.off % 4096).toNat)
    rset (rset s p (0x80 + o) (put 28 16 c.1.checked ||| put 12 0 c.1.failed)) p (0xA0 + o) (put 31 16 c.1.gainCal)) s

def execCalCoefSave (die : Nat) (s : State) : Host.Outcome State Fault Refusal := done (calCoefSaveOp s die)
def execGovernorTick (die : Nat) (s : State) : Host.Outcome State Fault Refusal := done (governorTickOp s die)
def execCalibrate (req : Nat) (s : State) : Host.Outcome State Fault Refusal := done (calibrateOp s req)

end Sys2Proof.Machine
end

