-- ==== Sys2Proof/Machine/Plates.lean ====
section
/-! DEFINITION. Plate programming: levels and verify (R121 to R126), spares and bad plates (R127 to R129), concurrency and
holds (R130 to R133), wear (R134 to R136), the choice of plates (R137 to R139), the PRG2 and PLM windows (R155 to R157), and
what a warning or a reset does to programming (R150). -/

namespace Sys2Proof.Machine

open Sys2Proof

/-! ### Levels (R61, R122, R123) -/

/-- A measured level times 127 × 2^18, from a raw code and the group's coefficients (R122). -/
def levelNum (c : Coef) (code : Int) : Int := (16 * code - c.off) * c.gain * 4

/-- 127 × 2^18: one level on that scale. -/
def levelOne : Int := 127 * 2 ^ 18

/-- Whether a measured level is above a target by more than 0.10, or reaches it less 0.08 or less 0.10 (R123, R148). -/
def levelOver (t v : Int) : Bool := decide ((100 * t + 10) * levelOne < 100 * v)
def levelPass (t v : Int) : Bool := decide ((100 * t - 8) * levelOne ≤ 100 * v)
def levelLow (t v : Int) : Bool := decide (100 * v < (100 * t - 10) * levelOne)

/-- The target level of a column of a row, from a plate's codes and its remap entries (R59, R61, R124, R127). -/
def target (codes : List Int) (remap : W32) (r col : Nat) : Int :=
  let w := pairCode (fun o => codes.getD (64 * r + o) 0) 32 remap (col / 20) (col % 20 / 2)
  if col % 2 = 0 then max w 0 else max (-w) 0

/-- Whether a column belongs to a pair that a spare has replaced: its cells keep what levels they reached (R127). -/
def replacedCol (remap : W32) (col : Nat) : Bool := spareOf remap (col / 20) == some (col % 20 / 2)

/-- Whether a cell of a row reads above its target by more than 0.10 (R148, R150). -/
def cellOver (codes : List Int) (remap : W32) (r col : Nat) (v : Int) : Bool :=
  !replacedCol remap col && levelOver (target codes remap r col) v

/-- The measured levels of some rows of 160 columns, from raw codes, which the converter holds at its limits (R66). -/
def levels (e : Engine) (codes : List Int) : List Int :=
  (codes.zipIdx).map fun c => levelNum (e.coef.getD (c.2 % 160 / 20) Coef.zero) (clampInt (-2048) 2047 c.1)

/-! ### Wear (R134 to R136) -/

/-- A charge on a bank: WEAR_WARN and RETIRED where the count first reaches a limit. -/
def chargeBank (s : State) (b n : Nat) (f : Bank → Bank) : State :=
  let x := bankAt s b
  let d := b / 65536
  let old := x.wear
  let new := old + n
  let p := pgPrg0 d
  let lim := rfld s p 0x4C 15 0 * 16
  let s := putBank s b { f x with wear := new }
  let code := b / 8 % 8192
  let s := if old < lim ∧ lim ≤ new then ev s p 5 code else s
  if old < 160000 ∧ 160000 ≤ new then ev s p 6 code else s

def retired (s : State) (b : Nat) : Bool := decide (160000 ≤ (bankAt s b).wear)

/-- The charge of an erase for a job: 16, once per bank per session, sweep pass or repair (R135). -/
def chargeErase (s : State) (k : Nat) (j : Job) : State :=
  let b := k * 8 + j.plate / 64
  let x := bankAt s b
  if j.tag = 0 then
    if x.session.contains j.slot then s else chargeBank s b 16 fun x => { x with session := j.slot :: x.session }
  else if x.pass.contains j.tag then s else chargeBank s b 16 fun x => { x with pass := j.tag :: x.pass }

/-- The charge of a touch-up: 1, once per bank per sweep pass or repair (R135). -/
def chargeTouch (s : State) (k : Nat) (j : Job) : State :=
  let b := k * 8 + j.plate / 64
  if (bankAt s b).touch.contains j.tag then s else chargeBank s b 1 fun x => { x with touch := j.tag :: x.touch }

/-! ### The choice of a plate (R137 to R139) -/

/-- Whether a plate is free and no job of its engine is for it. -/
def plateFree (s : State) (k p : Nat) (retiredToo : Bool) : Bool :=
  let x := plateAt s (k * 512 + p)
  let e := engAt s k
  (x.st == .free || x.st == .incomplete) && (retiredToo || !retired s (k * 8 + p / 64)) &&
  (e.jobs.all fun j => j.plate != p) && (match e.prog with | some g => g.job.plate != p | none => true)

/-- The free plates of an engine (R137). -/
def freePlates (s : State) (k : Nat) (retiredToo : Bool) : List Nat :=
  (List.range 512).filter fun p => plateFree s k p retiredToo

/-- The plate that the loader picks: the lowest bank count at FLACON_BEGIN, then the lowest bank and plate (R139). -/
def pickPlate (s : State) (slot k : Nat) : Option Nat :=
  let rank := fun (p : Nat) => tget 0 (slotAt s slot).wear (k * 8 + p / 64)
  (freePlates s k false).foldl (fun (b : Option Nat) p => match b with
    | none => some p
    | some q => if rank p < rank q then some p else b) none

/-- A program job is queued behind the program jobs of its engine, ahead of touch-ups (R145). -/
def queueProgram (s : State) (k : Nat) (j : Job) : State :=
  modEng s k fun e => { e with jobs := (e.jobs.filter fun x => !x.touch) ++ [j] ++ e.jobs.filter fun x => x.touch }
def queueTouch (s : State) (k : Nat) (j : Job) : State := modEng s k fun e => { e with jobs := e.jobs ++ [j] }

/-! ### Replicas (R129, R144, R299) -/

/-- The plates of a replica on a die, in the order of the shard. -/
def replicaPlates (s : State) (d slot shard : Nat) : List Nat :=
  let l := s.plates.filter fun x => x.1 / 512 / 8192 == d && x.2.owner == slot && x.2.shard == shard &&
    (x.2.st == .valid || x.2.st == .drifted || x.2.st == .programming || x.2.st == .unverified)
  keysOf (l.insertionSort fun a b => a.2.inShard ≤ b.2.inShard)

def shardEnt (m : Manifest) (i : Nat) : ShardEnt := (m.shards[i]?).getD ⟨0, 0, 0, 0, 0, []⟩

def modShard (s : State) (slot shard : Nat) (f : ShardSt → ShardSt) : State :=
  let x := slotAt s slot
  putSlot s slot { x with shards := tset ShardSt.zero x.shards shard (f (tget ShardSt.zero x.shards shard)) }

/-- Whether a replica is programmed on a die: every plate of it is VALID (R299). -/
def replicaDone (s : State) (d slot shard : Nat) : Bool :=
  let l := replicaPlates s d slot shard
  decide ((shardEnt (slotAt s slot).man shard).plates ≤ l.length) && l.all fun p => (plateAt s p).st == .valid

/-- A replica reported as PROGRAM_FAIL: the slot records it (R129, R299). -/
def programFail (s : State) (d slot shard : Nat) : State :=
  let s := modShard s slot shard fun x => { x with failed := x.failed ||| (1#16 <<< d) }
  putSlot s slot { slotAt s slot with progFail := true }

/-- An engine with no sweep reads taken of its present plate. -/
def Engine.sweepIdle (e : Engine) : Engine :=
  { e with swRow := 0, swLow := 0, swData := 0, swMin := 128, swRef := true, swCodes := [] }

/-- The plates that await examination on a die become `l`: an engine keeps its reads only where it stays at its plate, and that
plate is not one of `again`. -/
def setTodo (s : State) (d : Nat) (l again : List Nat) : State :=
  let old := (dieAt s d).sweep.todo
  let keeps := fun (k : Nat) => sweepPlate l k == sweepPlate old k &&
    match sweepPlate old k with | some p => !again.contains p | none => true
  let s := (keysOf ((dieEngines s d).filter fun x => x.2.swRow != 0)).foldl (fun s k =>
    if keeps k then s else modEng s k Engine.sweepIdle) s
  let x := dieAt s d
  putDie s d { x with sweep := { x.sweep with todo := l } }

/-- Plates await examination once more: they no longer count as examined by the pass. -/
def Sweep.again (w : Sweep) (l : List Nat) : Sweep := { w with done := w.done.filter fun p => !l.contains p }

/-- A swept replica one of whose plates is programmed or touched up is examined again from its first plate, in the same pass
(R146). -/
def reexamine (s : State) (d slot shard : Nat) : State :=
  let x := (dieAt s d).sweep
  let l := replicaPlates s d slot shard
  let begun := (x.buf.any fun b => b.slot == slot && b.shard == shard) ||
    l.any fun p => sweepPlate x.todo (p / 512) == some p && (engAt s (p / 512)).swRow != 0
  if begun then
    let s := setTodo s d ((x.todo.filter fun p => !l.contains p) ++ l) l
    let y := dieAt s d
    putDie s d { y with sweep := { y.sweep.again l with buf := x.buf.filter fun b => !(b.slot == slot && b.shard == shard) } }
  else s

def modSweep (s : State) (d : Nat) (f : Sweep → Sweep) : State :=
  let x := dieAt s d
  putDie s d { x with sweep := f x.sweep }

/-- The VERIFY_SWEEP requests that waited for a die, when its pass has ended. -/
def sweepServe (s : State) (d : Nat) : State :=
  let s := mapReqs s fun r => if r.desc.opc == 0x21 then { r with waitFor := r.waitFor.filter fun x => x != d } else r
  (keysOf s.reqs).foldl (fun s id => match reqAt s id with
    | some q => if q.desc.opc = 0x21 ∧ q.phase = .running ∧ q.waitFor = [] then finishReq s id else s
    | none => s) s

/-- The end of a pass: its statistics become those of the last pass, with the TB of completion (R147). -/
def endPass (s : State) (d : Nat) : State :=
  let now := s.belv.tb
  let s := modSweep s d fun w => { w with
    active := false, passes := min (w.passes + 1) 0xFFFF, since := now, lastTb := now, lExam := w.exam, lLow := w.low,
    lMin := w.minM, lDrift := w.drift, lHist := w.hist }
  sweepServe s d

/-- Plates leave the sweep unexamined, with what was read of their replica; a pass with nothing left ends (R128, R146). -/
def leaveSweep (s : State) (d slot shard : Nat) (ks : List Nat) : State :=
  let s := setTodo s d ((dieAt s d).sweep.todo.filter fun p => !ks.contains p) ks
  let s := modSweep s d fun w => { w with
    buf := w.buf.filter fun b => !(b.slot == slot && b.shard == shard)
    plates := w.plates.filter fun p => !ks.contains p
    done := w.done.filter fun p => !ks.contains p
    repair := w.repair.filter fun r => r != (slot, shard) }
  let w := (dieAt s d).sweep
  if w.active && w.todo.isEmpty then endPass s d else s

/-! ### Program-and-verify (R124 to R129) -/

/-- A plate whose programming or touch-up completes (R124, R148, R109). -/
def plateDone (s : State) (k p : Nat) (touch : Bool) (codes : List Int) (remap : W32) : State :=
  let key := k * 512 + p
  let d := engDie k
  let x := plateAt s key
  let st := if touch then x.st else .valid
  let s := putPlate s key { x with st := st, remap := remap, tb := s.belv.tb, ref := true, lowFlag := touch && x.lowFlag }
  let s := if codes = [] then s else
    { s with weights := (codes.zipIdx).foldl (fun t c => tset 0 t (key * 4096 + c.2) (BitVec.ofInt 8 c.1)) s.weights }
  let s := modEng s k fun e => { e with coef := e.coef.map fun c => { c with cured := false } }
  reexamine s d x.owner x.shard

/-- The first state of a job's operation. -/
def Prog.start (j : Job) : Prog :=
  { job := j, attempt := 1, seg := 0, erased := false, row := 0, pulse := 0, inhibit := [], fails := [], remap := 0,
    spareGo := [], left := [], touched := [], aborted := false }

/-- The engine's selector goes to the plate of a write operation, which costs a plate change where it stood elsewhere (R71,
R131). -/
def selectPlate (s : State) (k p : Nat) : State :=
  let e := engAt s k
  if e.sel = p then s else count (putEng s k { e with sel := p }) (pgCstat (engCore k)) 0x64 1

/-- The cells of a plate return to level 0 (R121). -/
def eraseCells (s : State) (key : Nat) : State :=
  { s with weights := s.weights.filter fun w => w.1 / 4096 != key }

/-- A row of a plate holds its codes (R124). -/
def writeRow (s : State) (key r : Nat) (codes : List Int) : State :=
  { s with weights := (List.range 64).foldl (fun t o =>
      tset 0 t (key * 4096 + 64 * r + o) (BitVec.ofInt 8 (codes.getD (64 * r + o) 0))) s.weights }

/-- A job begins to program its plate: the plate map shows PROGRAMMING, and the bank is charged (R124); a replica under sweep is
examined again (R146). -/
def beginProgram (s : State) (k : Nat) (j : Job) : State :=
  let key := k * 512 + j.plate
  let s := putPlate s key { Plate.zero with st := .programming, owner := j.slot, inShard := j.inShard, shard := j.shard,
                                            tb := (plateAt s key).tb }
  reexamine (dropDue (modEng (chargeErase s k j) k fun e => { e with prog := some (Prog.start j) }) k) (engDie k) j.slot j.shard

/-- Whether a touch-up job has lost its plate: the plate is VALID or DRIFTED no more. -/
def touchGone (s : State) (k : Nat) (j : Job) : Bool :=
  let x := plateAt s (k * 512 + j.plate)
  j.touch && x.st != .valid && x.st != .drifted

/-- A job begins to touch up its plate, which keeps its state; its bank is charged (R135, R148), and a replica under sweep is
examined again (R146). -/
def beginTouch (s : State) (k : Nat) (j : Job) : State :=
  reexamine (modEng (chargeTouch s k j) k fun e => { e with prog := some (Prog.start j) }) (engDie k) j.slot j.shard

/-- Plates in progress on a die, 128 at most (R130). -/
def plateCount (s : State) (d : Nat) : Nat := ((dieEngines s d).filter fun x => x.2.prog.isSome).length

/-- Whether an engine may begin a new program or touch-up (R130 to R133). -/
def mayWrite (s : State) (k : Nat) : Bool :=
  let e := engAt s k
  let d := engDie k
  awake s && (dieAt s d).up && e.prog.isNone && !e.due && e.calEnd.isNone && !writeHeld s d && decide (plateCount s d < 128)

/-- The head job of an engine begins, within the die's budget (R372); where a program's bank has retired meanwhile, the loader
takes another free plate of the engine, or the replica is reported (R129, R136, R139); a touch-up whose plate is VALID or DRIFTED no
more is dropped. -/
def programBeginOp (s : State) (k : Nat) : State :=
  match (engAt s k).jobs with
  | j :: rest =>
    if !mayWrite s k then s
    else if touchGone s k j then modEng s k fun e => { e with jobs := rest }
    else if !writeFits s k then noteWait s (engDie k)
    else
      let s := chargeWrite (modEng s k fun e => { e with jobs := rest }) k
      if j.touch then beginTouch s k j
      else if retired s (k * 8 + j.plate / 64) then
        match pickPlate s j.slot k with
        | some p => beginProgram s k { j with plate := p }
        | none => programFail s (engDie k) j.slot j.shard
      else beginProgram s k j
  | [] => s

/-- A plate becomes BAD (R128), and leaves the sweep. A replica of a session gets one retry on another plate, and else is reported (R129). -/
def markBad (s : State) (k : Nat) (j : Job) : State :=
  let d := engDie k
  let key := k * 512 + j.plate
  let s := putPlate s key { Plate.zero with st := .bad, tb := (plateAt s key).tb }
  let s := ev (count (dropDue s k) (pgPrg0 d) 0x64 1) (pgPrg0 d) 1 (k % 8192)
  let s := leaveSweep (modEng s k fun e => { e with prog := none }) d j.slot j.shard [key]
  if j.tag ≠ 0 then s
  else if j.retry then programFail s d j.slot j.shard
  else match pickPlate s j.slot k with
    | none => programFail s d j.slot j.shard
    | some p => modEng s k fun e => { e with jobs := { j with plate := p, retry := true } :: e.jobs }

/-- The 160 targets of the row operation in progress: of the row, or of a spare's two cells alone (R127). -/
def rowTargets (g : Prog) : List Int :=
  match g.spareGo with
  | (j, r) :: _ => (List.range 160).map fun c => if c / 20 = j ∧ c % 20 / 2 = 8 then target g.job.codes g.remap r c else 0
  | [] => (List.range 160).map fun c => target g.job.codes g.remap g.row c

/-- The first group of a row that still has a failed pair gets its spare, whose rows up to this one are then programmed (R127).
The answer is none where the plate is BAD: a reference or spare cell failed, a second pair, or the spare is taken (R128). -/
def assignSpare (g : Prog) : Option Prog :=
  match (g.left.map fun c => c / 20).min? with
  | none => some g
  | some j =>
    match ((g.left.filter fun c => c / 20 == j).map fun c => c % 20 / 2).dedup with
    | [p] =>
      if 8 ≤ p ∨ (spareOf g.remap j).isSome then none
      else
        let n := g.remap.toNat / 16 ^ j % 16
        some { g with
          remap := BitVec.ofNat 32 (g.remap.toNat + (8 + p - n) * 16 ^ j)
          spareGo := (List.range (g.row + 1)).map fun r => (j, r)
          left := g.left.filter fun c => c / 20 != j }
    | _ => none

/-- A repair's last touch-up has completed: its replica is examined again at the next windows (R149). -/
def repairDone (s : State) (d slot shard tag : Nat) : State :=
  let busy := (dieEngines s d).any fun x => (x.2.jobs.any fun j => j.tag == tag) ||
    match x.2.prog with | some g => g.job.tag == tag | none => false
  if tag = 0 ∨ tag % 2 = 1 ∨ busy = true then s
  else
    let l := replicaPlates s d slot shard
    let s := setTodo s d (((dieAt s d).sweep.todo.filter fun p => !l.contains p) ++ l) l
    let x := dieAt s d
    let w := x.sweep
    putDie s d { x with sweep := { w with
      repair := (w.repair.filter fun r => r != (slot, shard)) ++ [(slot, shard)]
      done := w.done.filter fun p => !l.contains p
      buf := w.buf.filter fun b => !(b.slot == slot && b.shard == shard) } }

/-- The row holds its codes, and the next row operation comes, or the end of the plate. -/
def nextRow (s : State) (k : Nat) (g : Prog) : State :=
    let s := writeRow s (k * 512 + g.job.plate) g.row g.job.codes
    if g.row + 1 < 64 then modEng s k fun e => { e with prog := some { g with row := g.row + 1, pulse := 0, inhibit := [], fails := [] } }
    else
      let s := modEng s k fun e => { e with prog := none }
      let s := count s (pgPrg0 (engDie k)) 0x5C 1
      let s := plateDone s k g.job.plate false g.job.codes g.remap
      repairDone s (engDie k) g.job.slot g.job.shard g.job.tag

/-- What follows a row operation: the rest of a spare's rows, the next group with a failed pair, or the next row (R124, R127). -/
def serveFails (s : State) (k : Nat) (g : Prog) : State :=
  let go := fun (s : State) (g : Prog) => modEng s k fun e => { e with prog := some { g with pulse := 0, inhibit := [], fails := [] } }
  if !g.spareGo.isEmpty then go s g
  else if g.left.isEmpty then nextRow s k g
  else
    match assignSpare g with
    | none => markBad s k g.job
    | some h =>
      let p := pgPrg0 (engDie k)
      go (ev (count s p 0x60 1) p 0 (k % 8192)) h

/-- The end of a row operation. -/
def endRow (s : State) (k : Nat) (g : Prog) : State :=
  match g.spareGo with
  | _ :: rest => if g.fails.isEmpty then serveFails s k { g with spareGo := rest } else markBad s k g.job
  | [] => serveFails s k { g with left := g.fails }

/-- One erase segment ends; after the eighth, erase verify reads every cell: the plate is erased, or a further attempt
begins, up to three (R124, R128). -/
def eraseSegmentOp (s : State) (k : Nat) (codes : List Int) : State :=
  let e := engAt s k
  match e.prog with
  | none => s
  | some g =>
    if g.job.touch || g.erased || !opRunning s k e then s
    else if !writeFits s k then noteWait s (engDie k)
    else
      let s := eraseCells (selectPlate (chargeWrite s k) k g.job.plate) (k * 512 + g.job.plate)
      let put := fun (g : Prog) => modEng s k fun e => { e with prog := some g }
      if g.seg < 7 then put { g with seg := g.seg + 1 }
      else if (levels e codes).all fun v => !levelOver 0 v then
        put { g with seg := 0, erased := true, row := 0, pulse := 0, inhibit := [], fails := [], aborted := false }
      else if g.attempt < 3 then put { g with seg := 0, attempt := g.attempt + 1 }
      else markBad s k g.job

/-- The row that a row operation works on. -/
def Prog.at_ (g : Prog) : Nat := match g.spareGo with | (_, r) :: _ => r | [] => g.row

/-- After an aborted pulse on row r, rows 0 to r − 1 are verified again, from the levels that a pair leaves: a cell above its
target restarts the plate from erase; cells below L − 0.10 are touched up with further pairs, up to 16, until they pass, and
one that does not restarts the plate as a touch-up does (R148); then row r begins again from its first pair, its cells
inhibited where they still pass (R150). Where the pulse was one of a spare, row r is the row that the spare's operation had reached
(DESIGN CHOICE, log 31). -/
def reverify (s : State) (k : Nat) (g : Prog) (lv : List Int) : State :=
  let r := g.at_
  let cells := List.range (160 * r)
  let t := fun (i : Nat) => target g.job.codes g.remap (i / 160) (i % 160)
  let v := fun (i : Nat) => lv.getD i 0
  let over_ := cells.any fun i => cellOver g.job.codes g.remap (i / 160) (i % 160) (v i)
  let low := cells.filter fun i => decide (0 < t i) && levelLow (t i) (v i)
  let touched := (g.touched ++ low).dedup
  let left := touched.any fun i => !levelPass (t i) (v i)
  let g' := if over_ || (left && decide (16 ≤ g.pulse)) then Prog.start g.job
    else if left then { g with pulse := g.pulse + 1, touched := touched }
    else
      let ts := rowTargets g
      { g with pulse := 0, aborted := false, touched := []
               inhibit := g.inhibit.filter fun c =>
                 let t := ts.getD c 0
                 t == 0 || g.fails.contains c || levelPass t (lv.getD (160 * r + c) 0) }
  modEng s k fun e => { e with prog := some g' }

/-- One pulse-verify pair ends: cells that pass are inhibited, cells above their target fail, and after 32 pairs the rest
fail (R123 to R125). -/
def pulsePairOp (s : State) (k : Nat) (codes : List Int) : State :=
  let e := engAt s k
  match e.prog with
  | none => s
  | some g =>
    if g.job.touch || !g.erased || !opRunning s k e then s
    else if !writeFits s k then noteWait s (engDie k)
    else
      let s := selectPlate (chargeWrite s k) k g.job.plate
      let lv := levels e codes
      if g.aborted then reverify s k g lv
      else
        let ts := rowTargets g
        let inh := if g.pulse = 0 then g.inhibit ++ (List.range 160).filter fun c => ts.getD c 0 == 0 && !g.inhibit.contains c
          else g.inhibit
        let live := (List.range 160).filter fun c => !inh.contains c
        let bad := live.filter fun c => levelOver (ts.getD c 0) (lv.getD c 0)
        let good := live.filter fun c => levelPass (ts.getD c 0) (lv.getD c 0) && !bad.contains c
        let left := live.filter fun c => !bad.contains c && !good.contains c
        let g := { g with pulse := g.pulse + 1, inhibit := inh ++ bad ++ good, fails := g.fails ++ bad }
        if left.isEmpty then endRow s k g
        else if 32 ≤ g.pulse then endRow s k { g with fails := g.fails ++ left }
        else modEng s k fun e => { e with prog := some g }

/-! ### Touch-up (R148) -/

/-- Whether a column takes part in a touch-up: the reference pairs alone, or every pair (R145). -/
def touches (j : Job) (c : Nat) : Bool := !j.refOnly || c % 20 / 2 == 9

/-- A touch-up ends, with the levels read before and after its pulses: it completes, or the plate is erased and programmed in
full with the same targets (R148). -/
def finishTouch (s : State) (k : Nat) (j : Job) (before after : List Int) : State :=
  let e := engAt s k
  let d := engDie k
  let x := plateAt s (k * 512 + j.plate)
  let b := levels e before
  let a := levels e after
  let cells := (List.range 10240).filter fun i => touches j (i % 160)
  let t := fun (i : Nat) => target j.codes x.remap (i / 160) (i % 160)
  let low := cells.filter fun i => decide (0 < t i) && levelLow (t i) (b.getD i 0)
  let high := fun (v : List Int) (i : Nat) => cellOver j.codes x.remap (i / 160) (i % 160) (v.getD i 0)
  let over_ := cells.any fun i => high b i || high a i
  let s := modEng s k fun e => { e with prog := none }
  if (over_ || low.any fun i => !levelPass (t i) (a.getD i 0)) && !retired s (k * 8 + j.plate / 64) then
    beginProgram s k { j with touch := false, refOnly := false }
  else
    let s := count s (pgPrg0 d) 0x6C 1
    let s := plateDone s k j.plate true (if j.refOnly then [] else j.codes) x.remap
    repairDone s d j.slot j.shard j.tag

/-- A touch-up of an engine: the one in progress, or else the head job's, which begins with it. It waits for reads in
BACKGROUND, while writes are held, and for the budget, as a segment or pair does (R131, R132, R148, R372). -/
def touchUpOp (s : State) (k : Nat) (before after : List Int) : State :=
  let s := match (engAt s k).jobs with
    | j :: _ => if j.touch && !givesWay s k (engAt s k) then programBeginOp s k else s
    | [] => s
  let e := engAt s k
  match e.prog with
  | none => s
  | some g =>
    if !g.job.touch || !opRunning s k e then s
    else if !writeFits s k then noteWait s (engDie k)
    else finishTouch (selectPlate (chargeWrite s k) k g.job.plate) k g.job before after

/-! ### Warnings and resets (R150) -/

/-- A supply warning aborts the segment, pair or touch-up pair in progress on an engine: a touch-up starts again from its
verify reads, and its plate's state is unchanged. -/
def abortOp (s : State) (k : Nat) : State :=
  let e := engAt s k
  match e.prog with
  | none => s
  | some g =>
    let p := pgPrg0 (engDie k)
    let g := if g.erased then { g with aborted := true, pulse := 0, touched := [] } else { g with seg := 0 }
    let s := putEng s k { e with prog := some g }
    let key := k * 512 + g.job.plate
    let s := if g.job.touch then s else putPlate s key { plateAt s key with st := .unverified }
    let s := count s p 0x68 1
    if rbit s p 0x18 2 then s else ev s p 2 (k % 8192)

/-- Every operation in progress on a die is aborted. -/
def abortOps (s : State) (d : Nat) : State :=
  (keysOf ((dieEngines s d).filter fun x => opRunning s x.1 x.2)).foldl abortOp s

/-- A die reset or a loss of power cuts the touch-ups in progress of some engines: their plates keep their state, with LOW_FLAG
(R150). -/
def cutTouches (s : State) (l : List (Nat × Engine)) : State :=
  l.foldl (fun s x => match x.2.prog with
    | some g =>
      let key := x.1 * 512 + g.job.plate
      if g.job.touch then putPlate s key { plateAt s key with lowFlag := true } else s
    | none => s) s

/-- The plate map as a bring-up restores it after a reset (R150): plates being programmed become INCOMPLETE and have no
owner. -/
def restorePlates (s : State) (d : Nat) : State :=
  let cut := s.plates.filter fun x => x.1 / 512 / 8192 == d && (x.2.st == .programming || x.2.st == .unverified)
  cut.foldl (fun s x =>
    let s := putPlate s x.1 { Plate.zero with st := .incomplete, tb := x.2.tb }
    let s := modShard s x.2.owner x.2.shard fun h =>
      { h with kept := h.kept &&& ~~~(1#16 <<< d) }
    if rbit s (pgPrg0 d) 0x18 3 || s.evq.any (fun v => v.page == pgPrg0 d && v.bit == 3) then s
    else ev s (pgPrg0 d) 3 (x.1 / 512 % 8192)) s

/-! ### PRG2 and PLM (R155 to R157) -/

def PlateSt.code : PlateSt → Nat
  | .free => 0 | .programming => 1 | .valid => 2 | .unverified => 3 | .drifted => 4 | .incomplete => 5 | .bad => 6

/-- A write of WEAR_INDEX takes a snapshot of a bank; a count above the 18 bits of its field shows as the field's top (DESIGN CHOICE,
log 31). -/
def wearSnapshot (s : State) (d : Nat) : State :=
  let p := pgPrg2 d
  let b := 65536 * d + rfld s p 0x40 15 0
  let k := b / 8
  let ps := (List.range 64).map fun i => 64 * (b % 8) + i
  let free := (ps.filter fun i =>
    let x := (plateAt s (k * 512 + i)).st
    !retired s b && (x == .free || x == .incomplete)).length
  let bad := (ps.filter fun i => (plateAt s (k * 512 + i)).st == .bad).length
  rset (rset s p 0x44 (putBit 31 (retired s b) ||| put 30 24 free ||| put 17 0 (min (bankAt s b).wear 0x3FFFF))) p 0x48
    (put 6 0 bad)

/-- PLM_ENTRY0, PLM_ENTRY1 and PLM_REMAP of a plate (R157). -/
def Plate.words (x : Plate) : List W32 :=
  let own := if x.st = .free ∨ x.st = .incomplete ∨ x.st = .bad then 0 else x.owner
  [put 31 29 x.st.code ||| put 27 24 own ||| put 15 8 x.inShard, put 17 0 x.shard, x.remap]

/-- A write of PLM_INDEX takes a snapshot of a plate-map entry. -/
def plmSnapshot (s : State) (d : Nat) : State :=
  let p := pgPlm d
  let x := plateAt s (4194304 * d + rfld s p 0x40 21 0)
  let s := (x.words.zipIdx).foldl (fun s e => rset s p (0x44 + 4 * e.2) e.1) s
  let s := rset64 s p 0x50 x.tb
  rset s p 0x58 (putBit 31 x.lowFlag ||| put 28 16 x.low ||| put 7 0 x.minM)

def execPlateProgramBegin (eng : Nat) (s : State) : Host.Outcome State Fault Refusal := done (programBeginOp s eng)
def execEraseSegment (eng : Nat) (codes : List Int) (s : State) : Host.Outcome State Fault Refusal :=
  done (eraseSegmentOp s eng codes)
def execPulseVerifyPair (eng : Nat) (codes : List Int) (s : State) : Host.Outcome State Fault Refusal :=
  done (pulsePairOp s eng codes)
def execTouchUp (eng : Nat) (before after : List Int) (s : State) : Host.Outcome State Fault Refusal :=
  done (touchUpOp s eng before after)

end Sys2Proof.Machine
end

