-- ==== Sys2Proof/Machine/Sweep.lean ====
section
/-! DEFINITION. The verify sweep: passes and what starts them (R140), sweep reads inside windows (R141 to R143), the digest
of a replica (R144, R149), touch-ups queued (R145), the end of a pass (R146, R147, R154), and the drift list (R155). -/

namespace Sys2Proof.Machine

open Sys2Proof

/-! ### Passes (R140, R147) -/

/-- A pass ends without a result (R146, R369). -/
def cutPass (s : State) (d : Nat) : State :=
  sweepServe (modSweep (setTodo s d [] []) d fun w => { w with active := false, buf := [], repair := [] }) d

/-- The plates that a pass examines: those of replicas with LOW_FLAG first (R140, R150). -/
def sweepPlates (s : State) (d : Nat) : List Nat :=
  let l := s.plates.filter fun x => x.1 / 512 / 8192 == d && (x.2.st == .valid || x.2.st == .drifted)
  let first := fun (x : Nat × Plate) => l.any fun y => y.2.lowFlag && y.2.owner == x.2.owner && y.2.shard == x.2.shard
  keysOf (l.filter first) ++ keysOf (l.filter fun x => !first x)

/-- A pass starts, unless one is active; with nothing to examine it completes at once (R140, R147). -/
def startPass (s : State) (d cause : Nat) : State :=
  let w := (dieAt s d).sweep
  if w.active then s
  else
    let l := sweepPlates s d
    let s := mapEngines s (fun x => x == d) Engine.sweepIdle
    let s := modSweep s d fun w => { w with
      active := true, seq := w.seq + 1, cause := cause, todo := l, plates := l, done := [], total := l.length, exam := 0, low := 0, minM := 128, drift := 0,
      hist := List.replicate 8 0, buf := [] }
    if l.isEmpty then endPass s d else s

/-- The automatic start: powered time since the last completed pass reaches INTERVAL days (R140). -/
def sweepIntervalOp (s : State) (d : Nat) : State :=
  let n := rfld s (pgPrg1 d) 0x40 31 16
  let x := dieAt s d
  if x.up ∧ n ≠ 0 ∧ x.sweep.since + n * 86400000000000 ≤ s.belv.tb then startPass s d 3 else s

/-- VERIFY_SWEEP starts a pass on each named online die, and waits for the passes to end (R140, R271). -/
def verifySweepOp (s : State) (id : Nat) : State :=
  match if asleep s then none else takeReq s id 0x21 with
  | none => s
  | some q =>
    let dies := (bitsOf (BitVec.ofNat 16 (fld q.desc.param 15 0))).filter fun d => (dieAt s d).online
    let s := modReq s id fun q => { q with phase := .running, ran := true, waitFor := dies }
    let s := dies.foldl (fun s d => startPass s d 1) s
    let idle := dies.filter fun d => !(dieAt s d).sweep.active
    let s := modReq s id fun q => { q with waitFor := q.waitFor.filter fun d => !idle.contains d }
    match reqAt s id with
    | some q => if q.phase = .running ∧ q.waitFor = [] then finishReq s id else s
    | none => s

/-! ### One read (R141 to R143) -/

/-- The re-quantised code of a measured level, ties away from zero, held within −63 to +63 (R143). -/
def requant (v : Int) : Int := clampInt (-63) 63 (divAway v levelOne)

/-- The margin of a measured level times 2 × 127 × 2^18 (R143). -/
def marginNum (v : Int) : Int := levelOne - 2 * ((v - requant v * levelOne).natAbs : Int)

/-- A margin in whole units of one part in n of a level, held at 0 and above (R154, R157). -/
def marginIn (n : Nat) (m : Int) : Nat := (max 0 (m * n / (2 * levelOne))).toNat

/-- Whether a pair is low-margin: m < 0.25 (R143). -/
def lowMargin (m : Int) : Bool := decide (2 * m < levelOne)

/-! ### Replicas (R144, R145, R149) -/

/-- The drift list with a replica appended; one that does not fit sets OVERFLOW (R155). -/
def driftAdd (x : Die) (r : Nat × Nat) : Die :=
  if x.drift.contains r then x
  else if x.drift.length < 16384 then { x with drift := x.drift ++ [r] } else { x with driftOv := true }

def driftDrop (x : Die) (r : Nat × Nat) : Die :=
  let l := x.drift.filter fun y => y != r
  { x with drift := l, driftOv := x.driftOv && !l.isEmpty }

/-- The plates of a replica take a state. -/
def setReplica (s : State) (l : List Nat) (st : PlateSt) : State :=
  l.foldl (fun s p => putPlate s p { plateAt s p with st := st }) s

/-- Touch-ups are queued for a replica's plates (R145); outside a pass they are charged by themselves (R135). -/
def queueTouches (s : State) (d : Nat) (l : List SweepEnt) (codesToo : Bool) : State :=
  if rbit s (pgPrg0 d) 0x40 2 then
    let n := rfld s (pgPrg1 d) 0x40 15 8
    let s := modSweep s d fun w => if w.active then w else { w with seq := w.seq + 1 }
    let tag := 2 * (dieAt s d).sweep.seq + 1
    l.foldl (fun s b =>
      let job : Job := { plate := b.plate % 512, slot := b.slot, shard := b.shard, inShard := b.inShard, codes := b.codes,
                         touch := true, retry := false, refOnly := false, tag := tag }
      if codesToo && decide (n ≤ b.low) then queueTouch s (b.plate / 512) job
      else if b.refBad then queueTouch s (b.plate / 512) { job with refOnly := true }
      else s) s
  else s

/-- Every plate of a replica has been examined: its codes are hashed and compared with the signed digest (R144, R149). A replica that
has lost a plate has no digest, and only its reference pairs may ask for a touch-up (R145). -/
def replicaEnd (s : State) (d slot shard : Nat) : State :=
  let w := (dieAt s d).sweep
  let l := (w.buf.filter fun b => b.slot == slot && b.shard == shard).insertionSort fun a b => a.inShard ≤ b.inShard
  let s := modSweep s d fun w => { w with buf := w.buf.filter fun b => !(b.slot == slot && b.shard == shard) }
  let ent := shardEnt (slotAt s slot).man shard
  let rep := w.repair.contains (slot, shard)
  if l.length < ent.plates then queueTouches s d l false
  else
    let ok := Config.sha384 (l.flatMap fun b => b.codes.map fun c => BitVec.ofInt 8 c) == ent.digest
    let ps := l.map fun b => b.plate
    let s := modSweep s d fun w => { w with repair := w.repair.filter fun r => r != (slot, shard) }
    if ok then
      let s := if rep then
        let s := putDie s d (driftDrop (dieAt s d) (slot, shard))
        modShard (setReplica s ps .valid) slot shard fun x => { x with drifted := x.drifted &&& ~~~(1#16 <<< d) }
        else s
      queueTouches s d l true
    else if rep then queueTouches (setReplica s ps .drifted) d l false
    else
      let s := setReplica s ps .drifted
      let s := putDie s d (driftAdd (dieAt s d) (slot, shard))
      let s := modSweep s d fun w => { w with drift := w.drift + 1 }
      let s := modShard s slot shard fun x => { x with drifted := x.drifted ||| (1#16 <<< d) }
      let k := (ps.headD 0) / 512
      queueTouches (ev s (pgPrg0 d) 4 (k % 8192)) d l false

/-- A plate's 64 reads are complete: its margins are kept, and its replica or its pass may have ended with it (R143,
R157). -/
def plateExamined (s : State) (d k p : Nat) (e : Engine) : State :=
  let x := plateAt s p
  let s := putPlate s p { x with lowFlag := decide (0 < e.swLow), low := e.swLow, minM := e.swMin }
  let s := putEng s k e.sweepIdle
  let b : SweepEnt := ⟨x.owner, x.shard, x.inShard, p, e.swData, !e.swRef, e.swCodes⟩
  let s := modSweep s d fun w => { w with
    todo := w.todo.filter fun y => y != p
    buf := w.buf ++ [b]
    done := if w.active && w.plates.contains p && !w.done.contains p then w.done ++ [p] else w.done }
  let w := (dieAt s d).sweep
  let more := w.todo.any fun y => (plateAt s y).owner == x.owner && (plateAt s y).shard == x.shard
  let s := if more then s else replicaEnd s d x.owner x.shard
  let w := (dieAt s d).sweep
  if w.active && w.todo.isEmpty then endPass s d else s

/-- One sweep read of an engine: row r of its next plate alone at +127, at RG 2, converted as an ordinary read (R141); the
operands are the departures of the reference pairs and of the other pairs from their ideal codes. It runs only in a window that
covers the engine, and only where it can end before the close; one taken while a supply warning is live is discarded
(R142). On another plate than the selected one, the plate change comes first, and takes no slot (R71, R372). -/
def sweepReadOp (s : State) (k : Nat) (refErrs errs : List Int) : State :=
  let d := engDie k
  let e := engAt s k
  match sweepPlate (dieAt s d).sweep.todo k with
  | none => s
  | some p =>
    if sweepOpen s k p e = false then s
    else if e.sel ≠ p % 512 then putEng s k { e with sel := p % 512, freeAt := s.belv.tb + 192 }
    else if !granted s k then noteWait s d
    else
      let s := takeSlot (putEng s k { e with freeAt := s.belv.tb + 128 }) d
      if (dieAt s d).warn ≠ 0 then s
      else
        let e := engAt s k
        let charge := charges s p [(e.swRow, 127)]
        let refs := refCodes 2 charge refErrs
        let codes := dataCodes 2 (plateAt s p).remap charge errs
        let lv := fun (j : Nat) (m : Meas) => levelNum (e.coef.getD j Coef.zero) m.code
        let data := (codes.zipIdx).map fun c => lv (c.2 / 8) c.1
        let ref := (refs.zipIdx).map fun c => lv c.2 c.1
        let ms := data.map marginNum
        let all := ms ++ ref.map marginNum
        let lows := (all.filter lowMargin).length
        let least := (all.map fun m => marginIn 256 m).foldl min 128
        let e := { e with
          swRow := e.swRow + 1
          swLow := e.swLow + lows
          swData := e.swData + (ms.filter lowMargin).length
          swMin := min e.swMin least
          swRef := e.swRef && ref.all fun v => requant v == 32 && !lowMargin (marginNum v)
          swCodes := e.swCodes ++ data.map requant }
        let s := putEng s k e
        let s := if (dieAt s d).sweep.active then modSweep s d fun w => { w with
            exam := w.exam + all.length
            low := w.low + lows
            minM := min w.minM least
            hist := (w.hist.zipIdx).map fun h => h.1 + (all.filter fun m => min (marginIn 16 m) 7 == h.2).length }
          else s
        if e.swRow = 64 then plateExamined s d k p e else s

/-- Plates are freed: a replica in the sweep is abandoned for the pass, and its drift-list entry leaves (R137, R146,
R155). -/
def freeReplica (s : State) (d slot shard : Nat) : State :=
  let l := (s.plates.filter fun x => x.1 / 512 / 8192 == d && x.2.owner == slot && x.2.shard == shard && x.2.st != .bad)
  let s := l.foldl (fun s x => putPlate s x.1 { x.2 with st := .free, owner := 0 }) s
  leaveSweep (putDie s d (driftDrop (dieAt s d) (slot, shard))) d slot shard (keysOf l)

/-- A write of DRIFT_INDEX takes a snapshot of an entry (R155). -/
def driftSnapshot (s : State) (d : Nat) : State :=
  let p := pgPrg3 d
  match (dieAt s d).drift[rfld s p 0x44 13 0]? with
  | some r => rset s p 0x48 (put 31 31 1 ||| put 25 22 r.1 ||| put 17 0 r.2)
  | none => rset s p 0x48 0

def execSweepInterval (die : Nat) (s : State) : Host.Outcome State Fault Refusal := done (sweepIntervalOp s die)
def execVerifySweep (req : Nat) (s : State) : Host.Outcome State Fault Refusal := done (verifySweepOp s req)
def execSweepRead (eng : Nat) (refErrs errs : List Int) (s : State) : Host.Outcome State Fault Refusal :=
  done (sweepReadOp s eng refErrs errs)

end Sys2Proof.Machine
end

