-- ==== Sys2Proof/Machine/Task.lean ====
section
/-! DEFINITION. RUN_TASK: what a request fixes at its dispatch (R204, R205, R252, R277, R304, R442), the checks of its cores
(R195 to R200), and the layer works that an issued request begins (R201, R271). -/

namespace Sys2Proof.Machine

open Sys2Proof

/-! ### What dispatch fixes -/

/-- The provider of a task: the slot that is ACTIVE for it, if any (R304). -/
def provider (s : State) (task : Nat) : Option Nat :=
  let k := tget 0 s.prov task
  if k = 0 then none else some k

def taskEnt (m : Manifest) (task : Nat) : Option TaskEnt := m.tasks.find? fun e => e.task == task

/-- The layer records of a task, with their places. -/
def taskLayers (m : Manifest) (task : Nat) : List (Nat × LayerRec) :=
  ((m.layers.zipIdx).filter fun e => e.1.task == task).map fun e => (e.2, e.1)

/-- Rows that a layer runs for a length (R204). -/
def layerRows (l : LayerRec) (len : Nat) : Nat := if len = 0 then 0 else if l.mFixed = 0 then len else l.mFixed

/-- The address of a request's length word: under versions 1 and 2 it counts as 0 (R204). -/
def lenAddrOf (s : State) (d : Desc) : Nat := if version s < 3 then 0 else d.lenAddr.toNat

/-- The length of a request before any clamp (R204). -/
def rawLen (s : State) (d : Desc) (mMax : Nat) : Nat :=
  if lenAddrOf s d ≠ 0 then numAt s.pkgMem d.lenAddr.toNat 4 else if d.lenM ≠ 0 then d.lenM.toNat else mMax

/-- Whether the word at LEN_ADDR cannot be read (R205). -/
def lenLost (s : State) (d : Desc) : Bool := lenAddrOf s d != 0 && poisoned s d.lenAddr.toNat 4

/-- Whether a span of package memory lies within what is usable. -/
def spanOk (s : State) (dev : Bool) (a n : Nat) : Bool := !dev || a == 0 || decide (a + n ≤ hostTop s)

/-- The task-dependent part of check 0x53 (R442); the elements of a slow-tier layer are as its weight area gives them (R288, R328). -/
def addrCheck (s : State) (d : Desc) (x : Slot) (len : Nat) : Bool :=
  let m := x.man
  let ls := taskLayers m d.task.toNat
  let toHost := ls.filter fun e => (consEnts m e.2).any fun c => c.kind == 1
  !(d.outAddr == 0 && !toHost.isEmpty) &&
  (ls.all fun e => e.2.layer != 0 ||
    spanOk s d.inDev d.inAddr.toNat (layerRows e.2 len * ceilDiv (e.2.k * inHalfAt x e.1 e.2) 2)) &&
  (toHost.all fun e => spanOk s d.outDev d.outAddr.toNat (ceilDiv (layerRows e.2 len * e.2.n * outHalfAt x e.1 e.2) 2)) &&
  spanOk s d.auxDev d.auxAddr.toNat (((taskEnt m d.task.toNat).map fun t => t.auxBytes).getD 0)

/-- Whether a stream bound to a task is LOST (R252). -/
def boundLost (s : State) (m : Manifest) (task : Nat) : Bool :=
  m.binds.any fun b => b.task == task && (streamAt s b.stream).lost

/-- The cores that hold a layer of a task: those with an entry for it, and its source core. -/
def layerCores (m : Manifest) (l : LayerRec) : List Nat := ((coreEnts m l).map fun e => e.core) ++ [l.source]
def taskCores (m : Manifest) (task : Nat) : List Nat :=
  ((taskLayers m task).flatMap fun e => if e.2.tier = 0 then (layerCores m e.2).map fun c => coreIdx e.2.die c else []).dedup.insertionSort
    (· ≤ ·)

/-- What a RUN_TASK fixes at its dispatch: its length, which its cores record whatever the outcome, also where its descriptor has failed a
check (R272), and then, rank by rank, an outcome that ends it, or its epoch and launch number (R204, R279, R304). A LEN_ADDR word that
cannot be read fixes no length (DEDUCED, log 24). -/
def pinTask (s : State) (id : Nat) : State :=
  match (reqAt s id).filter fun q => q.desc.opc == 1 with
  | none => s
  | some q =>
    let d := q.desc
    let task := d.task.toNat
    match provider s task with
    | none => if q.phase = .finished then s else refuseReq s id 0x21 0
    | some slot =>
      let x := slotAt s slot
      let m := x.man
      let mMax := ((taskEnt m task).map fun t => t.mMax).getD 0
      let raw := rawLen s d mMax
      let len := min raw mMax
      let e := d.epoch
      let s := if lenLost s d then s else (taskCores m task).foldl (fun s c =>
        let s := rset s (pgSeq c) 0x50 (BitVec.ofNat 32 len)
        if mMax < raw then ev (count s (pgSeq c) 0x54 1) (pgSeq c) 1 0 else s) s
      if q.phase = .finished then s
      else if addrCheck s d x len = false then refuseRange s id q.ring
      else if e ≠ 0 ∧ x.epoch.toNat < e.toNat then refuseReq s id 0x21 0
      else if e ≠ 0 ∧ e.toNat < x.epoch.toNat then refuseReq s id 0x20 0
      else if s.suspended.contains task then refuseReq s id 0x22 0
      else if boundLost s m task then refuseReq s id 0x41 0
      else if q.late ∧ feature s 4 ∧ d.policy.getLsbD 0 then refuseReq s id 0x40 0
      else
        let n := tget 0 s.taskRuns task
        let s := { s with taskRuns := tset 0 s.taskRuns task (n + 1) }
        let s := modReq s id fun q => { q with epoch := x.epoch, slot := slot, len := len, clamped := decide (mMax < raw), launch := n }
        if lenLost s d then refuseReq s id 0x7F 0 else s

/-- DISPATCH: the request of the ring that arbitration serves begins, and a RUN_TASK fixes its epoch and length (R269,
R304). -/
def dispatchAll (s : State) : State :=
  let id := s.nextReq
  pinTask (dispatchOp s) id

/-! ### The checks at issue (R196 to R199) -/

/-- A failure of a layer on a core: its reason with NEED and LIMIT of SEQ_LAST_NEED (R200). -/
abbrev Failure := Nat × Nat × Nat

/-- A region of a core's SRAM: which it is, its first byte and its length (R198). -/
structure Region where
  what : Nat
  at_  : Nat
  len  : Nat
  deriving DecidableEq, Repr

/-- Bytes of elements of a quantiser slot's target format, in half bytes each. -/
def fmtHalf (fmt : Nat) : Nat := fmtWidth fmt / 4

/-- The quantiser slots that a program of a core uses, by number and as the manifest defines them. -/
def slotNums (m : Manifest) (die core prog : Nat) : List Nat :=
  match progIdx m die core prog with
  | some i => progSlots (progEnt m i).code
  | none => []
def slotEnts (m : Manifest) (die core : Nat) (ns : List Nat) : List QSlotEnt :=
  ns.filterMap fun n => m.qslots.find? fun e => e.die == die && e.core == core && e.slot == n

/-- The quantiser slots that a layer's programs use on a core. -/
def usedSlots (m : Manifest) (l : LayerRec) (core : Nat) : List QSlotEnt :=
  let b := if l.endProg = 0xFFFF then [] else slotNums m l.die core l.endProg
  slotEnts m l.die core (slotNums m l.die core l.drainProg ++ b).dedup

/-- The regions of a layer on a core (R198): 1 the ring, 2 the output area, and for slot n, counted 16 + 8n, its codes,
scales, history and spill. -/
def regions (m : Manifest) (l : LayerRec) (core : Nat) : List Region :=
  let ntc := (coreTiles m l core).length
  let r := l.rMax
  (if core = l.source then [⟨1, l.inRing, l.inSlots * 2048 * l.kSlices * l.inHalf⟩] else []) ++
  (((coreEnts m l).filter fun e => e.core == core).map fun e => ⟨2, e.outArea, e.outBytes⟩) ++
  (if (coreEnts m l).any fun e => e.core == core then usedSlots m l core else []).flatMap fun q =>
    let k := 16 + 8 * q.slot
    let n := if q.gran = 0 then 1 else if q.gran = 1 then q.cols else r
    [⟨k, q.codes, r * 32 * ntc * fmtHalf q.fmt⟩, ⟨k + 1, q.scale, 4 * n⟩,
     ⟨k + 2, q.hist, if q.gran = 2 then 0 else 4 * q.depth * n⟩, ⟨k + 3, q.spill, q.spillBytes⟩]

def Region.meets (a b : Region) : Bool :=
  decide (0 < a.len ∧ 0 < b.len ∧ a.at_ < b.at_ + b.len ∧ b.at_ < a.at_ + a.len)

/-- Whether a region is a slot's codes lying wholly within an output area of the same layer. -/
def Region.nested (a b : Region) : Bool :=
  decide (16 ≤ a.what ∧ a.what % 8 = 0 ∧ b.what = 2 ∧ b.at_ ≤ a.at_ ∧ a.at_ + a.len ≤ b.at_ + b.len)

/-- Whether two regions of layers of a task overlap on a core: `a` of layer i, `b` of layer j. The equal regions of one quantiser slot that two
layers use are one region, and do not overlap (DESIGN CHOICE, log 45). -/
def clash (i j : Nat) (a b : Region) : Bool :=
  if 16 ≤ a.what ∧ a = b then false
  else if i = j ∧ a.what = b.what then false
  else a.meets b && !(i == j && (a.nested b || b.nested a))

/-- Whether the plates of one N-tile of a set lie on two cores, a plate of a tile is missing, or one lies off the layer's
K-slices, N-tiles and cores (reason 0x06). -/
def platesBad (m : Manifest) (l : LayerRec) : Bool :=
  let ps := plateEnts m l
  let own := (coreEnts m l).map fun e => e.core
  ps.any (fun p => decide (l.kSlices ≤ p.ks ∨ l.nTiles ≤ p.nt) || !own.contains p.core) ||
  (List.range (max l.sets 1)).any fun set =>
    let qs := setPlates m l set
    ((qs.map fun p => p.nt).dedup).any fun nt =>
      let ts := qs.filter fun p => p.nt == nt
      decide (1 < (ts.map fun p => p.core).dedup.length) || (List.range l.kSlices).any fun ks => ts.all fun p => p.ks != ks

/-- Whether a field lies outside its range in R186 (reason 0x04). -/
def rangesBad (m : Manifest) (l : LayerRec) : Bool :=
  decide (l.loop < 2 ∧ (l.mg < 1 ∨ 32 < l.mg)) || decide (l.claimN < 1 ∨ 8 < l.claimN) || decide (l.sets < 1 ∨ 16 < l.sets) ||
  decide (15 < l.source) || decide (l.inSlots < 2 ∨ 256 < l.inSlots) ||
  ((coreEnts m l).any fun e => decide (l.sets ≤ e.set)) ||
  (List.range l.sets).any fun n => (coreEnts m l).all fun e => e.set != n

/-- Ring slots needed on the source core (reason 0x32). -/
def slotsNeed (l : LayerRec) : Nat := l.sets * l.groupSize * (1 + l.doubling)

def kib (n : Nat) : Nat := ceilDiv n 1024

/-- The failures of a layer on a core in ascending order of reason (R196 to R199). Reason 0x33 cannot arise: the ring's size
is the product it is compared with (R198). -/
def failures (s : State) (m : Manifest) (q : Req) (i : Nat) (l : LayerRec) (core : Nat) : List Failure :=
  let ls := taskLayers m l.task
  let prog := fun (p : Nat) => (progIdx m l.die core p).isSome
  let has := (coreEnts m l).any fun e => e.core == core
  let ntc := (coreTiles m l core).length
  let rs := regions m l core
  let area := (((coreEnts m l).find? fun e => e.core == core).map fun e => e.outBytes).getD 0
  let areaNeed := l.rMax * 32 * ntc * l.outHalf
  let spillNeed := 4 * l.rMax * 64 * ntc
  let drainQs := if has then slotEnts m l.die core (slotNums m l.die core l.drainProg) else []
  let others := ls.flatMap fun e => if e.2.die = l.die ∧ e.2.tier = 0 then (regions m e.2 core).map fun r => (e.1, r) else []
  let f := fun (b : Bool) (x : Failure) => if b then [x] else []
  f (decide (l.k < 1 ∨ 65536 < l.k ∨ l.n < 1 ∨ 65536 < l.n)) (1, 0, 0) ++
  f (decide (l.mMax < 1 ∨ 1048576 < l.mMax ∨ l.mMax < l.mFixed) || ls.any fun e => e.2.mMax != l.mMax) (2, 0, 0) ++
  f (decide (l.loop = 3 ∨ l.ctrScope = 3)) (3, 0, 0) ++
  f (rangesBad m l) (4, 0, 0) ++
  f (decide (l.gridM ≤ l.gridPos ∨ (l.ctrScope = 2 ∧ 1 < l.gridM))) (5, 0, 0) ++
  f (platesBad m l) (6, 0, 0) ++
  f (decide (8 ≤ q.desc.acc.toNat)) (7, 0, 0) ++
  f (q.desc.lenAddr != 0 && (decide (q.desc.lenAddr.toNat % 4 ≠ 0) || decide (hostTop s < q.desc.lenAddr.toNat + 4))) (8, 0, 0) ++
  f (has && (!prog l.drainProg || (l.endProg != 0xFFFF && !prog l.endProg))) (9, 0, 0) ++
  f (!drainQs.isEmpty && decide (2 ^ 32 < l.rowsMax * 64 * l.nTiles)) (10, 0, 0) ++
  f (decide (32 < accNeed m l core)) (0x20, accNeed m l core, 32) ++
  f (rs.any fun r => decide (0x400000 < r.at_ + r.len)) (0x30, 0, 0) ++
  f (rs.any fun r => others.any fun o => clash i o.1 r o.2) (0x31, 0, 0) ++
  f (decide (core = l.source ∧ l.inSlots < slotsNeed l)) (0x32, slotsNeed l, l.inSlots) ++
  f (has && decide (area < areaNeed)) (0x34, kib areaNeed, kib area) ++
  (match drainQs.find? fun e => decide (e.spillBytes < spillNeed) with
    | some e => [(0x35, kib spillNeed, kib e.spillBytes)]
    | none => [])

/-- The STATUS of a refusal reason (R200). -/
def reasonStatus (r : Nat) : Nat := if r < 0x20 then 0x12 else if r = 0x20 then 0x10 else 0x11

/-- The failures of a task on a core, layer by layer. -/
def coreFailures (s : State) (m : Manifest) (q : Req) (c : Nat) : List (Nat × Failure) :=
  let ls := (taskLayers m q.desc.task.toNat).filter fun e =>
    e.2.tier == 0 && e.2.die == c / 16 && (layerCores m e.2).contains (c % 16)
  let ls := ls.insertionSort fun a b => a.2.layer ≤ b.2.layer
  ls.flatMap fun e => (failures s m q e.1 e.2 (c % 16)).map fun x => (e.2.layer, x)

/-- RUN_TASK reaches its cores: each makes its checks, and a refusing core records its first failure (R195, R200, R209). A reserved
class refuses a task of slow-tier layers alone, too, which no core holds (R77). A NEED above 65,535 leaves its low 16 bits in
SEQ_LAST_NEED (DESIGN CHOICE, log 45). -/
def runTaskOp (s : State) (id : Nat) : State :=
  match takeReq s id 1 with
  | none => s
  | some q =>
    let m := manOf s q.slot
    let cs := taskCores m q.desc.task.toNat
    let bad := cs.map fun c => (c, coreFailures s m q c)
    let s := bad.foldl (fun s b => match b.2 with
      | (layer, r, need, lim) :: _ =>
        let p := pgSeq b.1
        let s := rset s p 0x48 (put 31 24 (reasonStatus r) ||| put 23 16 r ||| put 15 0 layer)
        ev (count (rset s p 0x4C (put 31 16 need ||| put 15 0 lim)) p 0x44 1) p 0 r
      | [] => count s (pgSeq b.1) 0x40 1) s
    let bare := if cs = [] ∧ 8 ≤ q.desc.acc.toNat then [(0, 0, 7, 0, 0)] else []
    let refs := bare ++ bad.flatMap fun b => b.2.map fun f => (b.1, f.1, f.2.1, f.2.2.1, f.2.2.2)
    modReq s id fun q => { q with phase := .checking, refusals := refs }

/-! ### The verdict (R195, R200, R201) -/

/-- A layer work of an issued request, with the blocks that the static division gives its set (R201). -/
def newRun (m : Manifest) (q : Req) (id i : Nat) (l : LayerRec) (set : Nat) : Run :=
  let rows := layerRows l q.len
  let w : Run :=
    { req := id, slot := q.slot, layer := i, set := set, rows := rows, pool := [], spent := l.tier == 1 || l.ctrScope == 0,
      left := [], landed := [], units := [], nUnit := 0, cursor := [], phaseBs := [], phases := [],
      feedWait := l.layer == 0 && q.desc.inAddr == 0, accWait := false, readyWait := false, claimWait := false, ended := [],
      slowIn := [] }
  if l.tier = 1 then
    { w with pool := List.range (blocksOf rows), left := (List.range (blocksOf rows)).map fun b => (b, 1) }
  else if l.ctrScope = 0 then addBlocks m l w (setPart l (blocksOf rows) set) else w

/-- The host DMA engine places one block of a task's input in the slow-tier unit's SRAM, tile by tile (R193, R328). Poisoned data ends
the request (R325). -/
def landSlowBlock (s : State) (r : Nat) (w : Run) (q : Req) (mb : Nat) : State :=
  let l := w.rc s
  let half := inHalfAt (slotAt s w.slot) w.layer l
  let bytes := fun (n : Nat) => ceilDiv (n * half) 2
  let at_ := fun (i ks : Nat) => q.desc.inAddr.toNat + (64 * mb + i) * bytes l.k + bytes (64 * ks)
  let n := blockRows w.rows mb
  if q.desc.inDev && poisoned s (at_ 0 0) (n * bytes l.k) then failReq s w.req 0x7F
  else
    let mem := (List.range n).foldl (fun t i => (List.range l.kSlices).foldl (fun t ks =>
      putBytes t (((mb * l.kSlices + ks) * 64 + i) * 64) (inputBytes s q (at_ i ks) (bytes (min 64 (l.k - 64 * ks))))) t) w.slowIn
    let w := { w with slowIn := mem }
    landTo (putRun s r (some w)) w mb l.kSlices

/-- The blocks of a slow-tier layer whose input the descriptor gives land in their order, as far as the unit's SRAM has room (R328). While
the layer's formats are not known its blocks take their turn without: they land, or meet the loss of the area, when it comes. -/
def landSlow (s : State) (r : Nat) : State :=
  match runAt s r with
  | none => s
  | some w => w.pool.foldl (fun s mb => match runAt s r with
    | none => s
    | some w => match reqAt s w.req with
      | none => s
      | some q =>
        let l := w.rc s
        let there := fun (b : Nat) => decide (l.kSlices ≤ tget 0 w.landed b)
        if tget 0 (slotAt s w.slot).areas w.layer = 0 then slowReady s r mb
        else if there mb || !((w.pool.takeWhile fun b => b != mb).all there) ||
            decide (8388608 < slowUse s + l.kSlices * slowTile s w.slot w.layer) then s
        else landSlowBlock s r w q mb) s

/-- A run is listed; the blocks of a slow-tier layer whose input the descriptor gives begin to land (R328). -/
def addRun (s : State) (w : Run) : State :=
  let r := s.nextRun
  let s := putRun { s with nextRun := r + 1 } r (some w)
  if (w.rc s).tier = 1 ∧ (w.rc s).layer = 0 ∧ w.feedWait = false then landSlow s r else s

/-- The blocks of a feed whose input has landed whole: every stripe of a stream's block, or every tile of an earlier task's
(R193, R289). -/
def feedReady (s : State) (f : Feed) : List Nat :=
  let m := manOf s f.slot
  let l := recAt m f.layer
  if f.src = 32 then (f.got.filter fun e => decide (l.kSlices ≤ e.2)).map fun e => e.1
  else match bindOf m l f.src with
    | none => []
    | some b => (f.got.filter fun e => decide (bindNeed b (stripesOf s f.src) e.1 ≤ e.2)).map fun e => e.1

/-- A request takes a feed, and what has landed of it counts for its layer works (R193, log 24); one that has lost input on the fabric ends
it (R319). -/
def takeFeedAll (s : State) (f : Feed) (id : Nat) : State :=
  let s := takeFeed s f id
  if f.lost then failReq s id 0x7F
  else if f.src = 32 then s
  else
    let k := (recAt (manOf s f.slot) f.layer).kSlices
    (feedReady s f).foldl (fun s mb =>
      match (runList s).find? fun e => e.2.req == id && e.2.slot == f.slot && e.2.layer == f.layer with
      | some e => landTo s e.2 mb k
      | none => s) s

/-- The layer works of a request that wait for a feed take the oldest one not taken. -/
def takeFeeds (s : State) (id : Nat) : State :=
  let recs := ((reqRuns s id).filter fun e => e.2.feedWait).map fun e => (e.2.slot, e.2.layer)
  recs.dedup.foldl (fun s r =>
    match s.feeds.find? fun f => f.slot == r.1 && f.layer == r.2 && f.taken.isNone && !(reqRuns s id).isEmpty with
    | some f => takeFeedAll s f id
    | none => s) s

/-- Every core has answered: the request is refused whole, or runs (R195, R200). With L = 0 it runs nothing (R205). -/
def verdictOp (s : State) (id : Nat) : State :=
  match reqAt s id with
  | none => s
  | some q =>
    if q.phase ≠ .checking then s
    else
      let st := q.refusals.map fun r => reasonStatus r.2.2.1
      match q.refusals with
      | r :: _ => refuseReq s id (if st.contains 0x12 then 0x12 else if st.contains 0x10 then 0x10 else 0x11) r.2.2.1
      | [] =>
        let s := modReq s id fun q => { q with phase := .running, ran := true }
        let s := if q.clamped then setQual s id qLenClamp else s
        if q.len = 0 then finishReq s id
        else
          let m := manOf s q.slot
          let s := (taskLayers m q.desc.task.toNat).foldl (fun s e =>
            if e.2.tier = 1 then addRun s (newRun m q id e.1 e.2 0)
            else (List.range (max e.2.sets 1)).foldl (fun s set => addRun s (newRun m q id e.1 e.2 set)) s) s
          checkDone (takeFeeds s id) id

def execRunTask (req : Nat) (s : State) : Host.Outcome State Fault Refusal := done (runTaskOp s req)

end Sys2Proof.Machine
end

