-- ==== Sys2Proof/Machine/Memory.lean ====
section
/-! DEFINITION. Package memory: regions (R326), errors and the patrol scrub (R325), the validity of slow-tier areas (R327);
and the slow-tier unit (R328, R329). -/

namespace Sys2Proof.Machine

open Sys2Proof

/-! ### Slow-tier areas (R326 to R328) -/

/-- Whether an address lies in the slow-tier area of a slot. -/
def inArea (x : Slot) (a : Nat) : Bool := decide (x.slowAt ≤ a ∧ a < x.slowAt + x.man.slowBytes)

/-- The slow-tier area of an ACTIVE slot becomes invalid: none of its KIND 1 shards is stored any more. -/
def loseArea (s : State) (k : Nat) : State :=
  let x := slotAt s k
  if x.st = .active ∧ (x.man.shards.any fun e => e.kind == 1) = true then
    let sh := (x.man.shards.zipIdx).foldl (fun t e => if e.1.kind = 1 then
      tset ShardSt.zero t e.2 { tget ShardSt.zero t e.2 with stored := false } else t) x.shards
    ev (putSlot s k { x with shards := sh }) pgMem 2 k
  else s

/-- The invalid KIND 1 shards of every ACTIVE slot (MEM_SLOW_INVALID). -/
def slowInvalid (s : State) : Nat :=
  (s.slots.map fun x => if x.2.st = .active then
    ((x.2.man.shards.zipIdx).filter fun e => e.1.kind == 1 && !(tget ShardSt.zero x.2.shards e.2).stored).length else 0).sum

/-- A write of MEM_SLOW_SIZE takes effect only while every slot is EMPTY and no ring is enabled (R326). -/
def memSlowSize (s : State) (v : Nat) : State :=
  if (s.slots.all fun x => x.2.st == .empty) ∧ ringsActive s = false then
    { s with nv := { s.nv with slowSize := BitVec.ofNat 6 (min v 59) } }
  else ev s pgMem 3 0

/-! ### Errors (R325, R205) -/

/-- An error found at an address of package memory: a corrected one is counted; another poisons its block, is latched, and
makes a slow-tier area that it hits invalid. -/
def memError (s : State) (a : Nat) (corrected : Bool) : State :=
  let code := a / 2 ^ 20 % 65536
  if corrected then ev (count s pgMem 0x48 1) pgMem 0 code
  else
    let s := ev (rset64 (count s pgMem 0x4C 1) pgMem 0x50 a) pgMem 1 code
    let s := { s with poison := tset false s.poison (a / 64) true }
    (keysOf s.slots).foldl (fun s k => if inArea (slotAt s k) a then loseArea s k else s) s

/-- An error met by an access; a request that consumes the poisoned data completes with INTERNAL. -/
def memEccOp (s : State) (a : Nat) (corrected : Bool) (req : Option Nat) : State :=
  let s := memError s a corrected
  match req with
  | some id => if corrected then s else failReq s id 0x7F
  | none => s

/-- The patrol scrub reads every block once per 24 hours of RUN (R325). -/
def patrolOp (s : State) (found : List EccFind) : State :=
  if s.pwr.st = .run ∧ s.scrubAt + 86400000000000 ≤ s.belv.tb then
    found.foldl (fun s f => memError s f.addr f.corrected) { s with scrubAt := s.belv.tb }
  else s

/-! ### The slow-tier unit (R328, R329) -/

/-- Whether a KIND 1 shard that holds part of an area is not stored (R327). -/
def areaInvalid (x : Slot) (a n : Nat) : Bool :=
  (x.man.shards.zipIdx).any fun e =>
    let b := x.slowAt + e.1.ref * 4096
    e.1.kind == 1 && decide (b < a + n ∧ a < b + e.1.bytes) && !(tget ShardSt.zero x.shards e.2).stored

/-- One element of a row of input. -/
def rowElem (fmt : Nat) (row : List Byte) (i : Nat) : Int :=
  let half := fmtWidth fmt / 4
  if half = 1 then intOf fmt ((row.getD (i / 2) 0).toNat / 16 ^ (i % 2) % 16) else intOf fmt (leAt row (i * half / 2) (half / 2))

/-- The products of a row with a column, summed exactly in INT32, or in FP32 in ascending order of k (R329). -/
def dotRow (s : State) (wfmt base : Nat) (xs : List Int) : W32 :=
  if wfmt = 0xB then
    (xs.zipIdx).foldl (fun acc x =>
      fpAdd (f32v acc) (f32v (fpMul (f32v (f32Int false x.1 0)) (fpDecode 0xB (numAt s.pkgMem (base + 2 * x.2) 2))))) 0
  else
    let v : Int := ((xs.zipIdx).map fun x => x.1 * intOf 2 (numAt s.pkgMem (base + x.2) 1)).sum
    BitVec.ofInt 32 v

/-- One output element: acc × S[n] with one rounding, then converted to OUT_FMT (R329). -/
def slowOut (wfmt ofmt : Nat) (acc : W32) (scale : W32) : Nat :=
  let y := if wfmt = 0xB then fpMul (f32v acc) (f32v scale)
    else match f32v scale with
      | .fin sg m e => f32Dy (decide (acc.toInt < 0) != sg) (acc.toInt.natAbs * m) e
      | v => fpMul (f32v (f32Int false acc.toInt 0)) v
  if fmtIsInt ofmt then ((fpToInt ofmt (f32v y)) % 2 ^ fmtWidth ofmt).toNat
  else if ofmt = 0xC then y.toNat else fpNarrow ofmt (f32v y)

/-- Elements of a row packed into bytes, little-endian, two to a byte at 4 bits (R159). -/
def packRow (fmt : Nat) (l : List Nat) : List Byte :=
  if fmtWidth fmt = 4 then
    (List.range (ceilDiv l.length 2)).map fun i => BitVec.ofNat 8 (l.getD (2 * i) 0 + 16 * l.getD (2 * i + 1) 0)
  else l.flatMap fun v => leBytes (fmtWidth fmt / 8) v

/-- The input row of a slow-tier layer as it landed in the unit. -/
def slowRow (s : State) (w : Run) (ifmt m : Nat) : List Int :=
  let l := w.rc s
  let half := fmtWidth ifmt / 4
  (List.range l.kSlices).flatMap fun ks =>
    let row := bytesAt w.slowIn (((m / 64 * l.kSlices + ks) * 64 + m % 64) * 64) (32 * half)
    (List.range (min 64 (l.k - 64 * ks))).map fun i => rowElem ifmt row i

/-- The formats of the weight areas that have been stored, walked in their order as far as they are known (R328). -/
def noteAreas (s : State) (k : Nat) : State :=
  let x := slotAt s k
  let go := (slowLayers x.man).foldl (fun (x : Slot) e => match layerArea x e.1 with
    | none => x
    | some a =>
      if areaInvalid x a 3 then x
      else { x with areas := tset 0 x.areas e.1 (1 + numAt s.pkgMem a 3) }) x
  putSlot s k go

/-- The dies among a layer's consumers. -/
def farDies (cons : List ConsEnt) : List Nat :=
  ((cons.map fun e => if e.kind = 1 ∨ e.die = 0xFF then 16 else e.die).dedup).filter fun d => d != 16

/-- The unit's oldest output tile is delivered to every consumer of its layer in one transfer, as DRAIN does, or waits (R193, R328). -/
def slowDeliver (s : State) : State :=
  match s.slow.out with
  | [] => s
  | x :: rest =>
    let rows := x.rows.zipIdx.map fun e => (e.2, e.1)
    match runAt s x.run with
    | none => { s with slow := { s.slow with out := rest } }
    | some w =>
      let cons := consEnts (w.man s) (w.rc s)
      let far := farDies cons
      if (cons.all fun e => consReady s w x.mb e) && mayTransfer s 16 far then
        let s := { s with slow := { s.slow with out := rest } }
        let eb := Nat.log2 (outHalfAt (slotAt s w.slot) w.layer (w.rc s))
        checkDone (sendCargo s 16 far (some w.req) ((rows.map fun o => o.2.length).sum) (tileCargo s w x.mb x.nt eb rows)) w.req
      else s

/-- Every output tile that can go is delivered, oldest first. -/
def slowDrain (s : State) : State := (List.range s.slow.out.length).foldl (fun s _ => slowDeliver s) s

/-- The block that the unit runs next: of the layer begun, if one of its blocks is ready, and else the first to have become ready
(R328, R330). -/
def slowNext (s : State) : Option (Nat × Nat) :=
  (s.slow.queue.find? fun e => s.slow.now == some e.1).or s.slow.queue.head?

/-- One M-block of a layer is computed, and its output tiles wait to be delivered (R328, R329). -/
def slowCompute (s : State) (r mb : Nat) (w : Run) : State :=
  let l := w.rc s
  let x := slotAt s w.slot
  let (ifmt, wfmt, ofmt) := fmtsAt x w.layer
  let wb := weightSize wfmt
  match layerArea x w.layer with
  | none => failReq s w.req 0x31
  | some a =>
    if areaInvalid x a (areaBytes l.k l.n wb) then failReq s w.req 0x31
    else if poisoned s a (areaBytes l.k l.n wb) then failReq s w.req 0x7F
    else
      let out := (List.range (blockRows w.rows mb)).map fun i =>
        let xs := slowRow s w ifmt (64 * mb + i)
        (List.range l.n).map fun n =>
          slowOut wfmt ofmt (dotRow s wfmt (a + 0x40 + roundUp (4 * l.n) 64 + n * colBytes l.k wb) xs)
            (BitVec.ofNat 32 (numAt s.pkgMem (a + 0x40 + 4 * n) 4))
      let tiles : List SlowTile := (List.range l.nTiles).map fun nt =>
        ⟨r, mb, nt, out.map fun o => packRow ofmt ((o.drop (64 * nt)).take 64)⟩
      let s := count s pgMem 0x5C 1
      let s := if s.pwr.live.getLsbD 2 then setQual s w.req qLowsup else s
      let pool := w.pool.filter fun b => b != mb
      let u := s.slow
      let s := { s with slow := { now := if pool.isEmpty then none else some r, queue := u.queue.erase (r, mb), out := u.out ++ tiles } }
      let kept := w.slowIn.filter fun e => e.1 / (4096 * max l.kSlices 1) != mb
      let w := { w with pool := pool, left := tdel w.left mb, slowIn := kept }
      freeSlot (putRun s r (some w)) w mb

/-- A block whose turn came before its input could land has it land now. -/
def slowLand (s : State) (r mb : Nat) (w : Run) (q : Req) : State :=
  if fromDesc w s q && decide (tget 0 w.landed mb < (w.rc s).kSlices) then landSlowBlock s r w q mb else s

/-- The unit runs the M-block whose turn it is, once the tiles of the last have been delivered, and delivers its output tiles to the
layer's consumers (R328, R330). The room that a block leaves takes input that waits. A command for another layer work finds the unit at
work on what comes first. -/
def slowBlockOp (s : State) (r : Nat) : State :=
  let s := slowDrain s
  if !s.slow.out.isEmpty then s
  else
    match slowNext s, runAt s r with
    | some (n, mb), some w =>
      if n ≠ r then s
      else match reqAt s w.req with
        | some q =>
          let s := if (layerArea (slotAt s w.slot) w.layer).isSome then slowLand s r mb w q else s
          match runAt s r with
          | some w =>
            let s := slowDrain (slowCompute s r mb w)
            (runList s).foldl (fun s e =>
              if (e.2.rc s).tier = 1 ∧ (e.2.rc s).layer = 0 ∧ (match reqAt s e.2.req with
                | some q => q.desc.inAddr != 0
                | none => false) = true then landSlow s e.1 else s) s
          | none => s
        | none => s
    | _, _ => s

def execMemEccError (addr : Nat) (corrected : Bool) (req : Option Nat) (s : State) : Host.Outcome State Fault Refusal :=
  done (memEccOp s addr corrected req)
def execPatrolScrub (found : List EccFind) (s : State) : Host.Outcome State Fault Refusal := done (patrolOp s found)
def execSlowTierBlock (run : Nat) (s : State) : Host.Outcome State Fault Refusal := done (slowBlockOp s run)

end Sys2Proof.Machine
end

