-- ==== Sys2Proof/Machine/Dies.lean ====
section
/-! DEFINITION. The dies as units that go off and come back: what a reset does to register contents (R48), how work on a die
ends (R376, R380, R409), bring-up and rejoining (R111, R150, R368), the dies that a request needs (R376, R380, R413), and the
links' errors (R319). -/

namespace Sys2Proof.Machine

open Sys2Proof

def modDie (s : State) (d : Nat) (f : Die → Die) : State := putDie s d (f (dieAt s d))

/-! ### Register contents (R48) -/

/-- The register row that a DW address belongs to, for its active or its shadow copy. -/
def rowOfAddr (a : Nat) : Option RegRow :=
  match kindOf (a / 1024) with
  | none => none
  | some (k, _) =>
    let off := 4 * (a % 1024)
    rowAt k (if 0x800 ≤ off ∧ k ≠ .rng then off - 0x800 else off)

/-- The bits of a register that a per-die reset keeps: PAGE_LOCK, and the RWL fields (R48). -/
def keptBits (a : Nat) : W32 :=
  if a % 1024 = 3 then 0xFFFFFFFF
  else match rowOfAddr a with
    | some r => if 0x200 ≤ a % 1024 then 0 else r.lm
    | none => 0

/-- The registers of the pages that a test selects return to their reset values, less the bits that are kept. -/
def resetPages (s : State) (p : Nat → Bool) (keep : Nat → W32) : State :=
  let out := fun (a : Nat) => p (a / 1024)
  { s with
    regs := (s.regs.map fun e => if out e.1 then (e.1, (e.2 &&& keep e.1) ||| (regDef e.1 &&& ~~~keep e.1)) else e).filter fun e =>
      decide (e.2 ≠ regDef e.1)
    hiShadow := s.hiShadow.filter fun e => !out e.1
    loStage := s.loStage.filter fun e => !out e.1 }

/-- A per-die reset of that die's pages. -/
def resetDiePages (s : State) (d : Nat) : State := resetPages s (fun p => pageDie p == some d) keptBits

/-! ### Work on a die ends (R48, R150, R376, R380, R409) -/

/-- Whether a request waits for something of a die: an engine's calibration (R114), a sweep pass (R140), or a shard's
verification there (R298). -/
def waitsOn (s : State) (d id : Nat) : Bool :=
  (match reqAt s id with
    | some q => q.phase == .running && ((q.desc.opc == 0x20 && q.waitFor.any fun k => engDie k == d) ||
        (q.desc.opc == 0x21 && q.waitFor.contains d))
    | none => false) ||
  s.staging.any fun g => g.req == id && g.sent && g.wait.getLsbD d

/-- The requests with work issued on a die. -/
def workOn (s : State) (d : Nat) : List Nat :=
  ((((runList s).filter fun e => (e.2.rc s).die == d && (e.2.rc s).tier == 0).map fun e => e.2.req) ++
    (keysOf s.reqs).filter fun id => waitsOn s d id).dedup

/-- Every request with work on a die completes with a status. -/
def failWork (s : State) (d code : Nat) : State :=
  let s := (workOn s d).foldl (fun s id => failReq s id code) s
  { s with staging := s.staging.filter fun g => !(g.sent && g.wait.getLsbD d) }

/-- A die that loses its queued and unfinished session programs no longer keeps the shards that they are of: those are to be
delivered again (R299). -/
def dropUnwritten (s : State) (d : Nat) : State :=
  let l := (dieEngines s d).flatMap fun e =>
    ((e.2.jobs ++ (match e.2.prog with | some g => [g.job] | none => [])).filter fun j => j.tag == 0 && !j.touch).map
      fun j => (j.slot, j.shard)
  l.dedup.foldl (fun s r => modShard s r.1 r.2 fun h =>
    { h with kept := h.kept &&& ~~~(1#16 <<< d) }) s

/-- What a die holds outside its plates, its SLC region and its retention store is lost: engines' work and targets, cores,
SRAM, histories (R179), and its counters become IDLE (R202). -/
def clearDie (s : State) (d : Nat) : State :=
  let gone := fun (c : Nat) => c / 16 == d
  let s := dropUnwritten (cutTouches (cutPass s d) (dieEngines s d)) d
  let s := putDie { s with engines := s.engines.filter fun e => engDie e.1 != d } d { dieAt s d with proto := Engine.zero }
  let fq : Nat → Option QSlot → Option QSlot := fun k q =>
    if gone (k / 1024 % 256) then q.map fun x => { x with hist := [], passes := 0, isOpen := false, posted := false, startWait := [], sent := [], posts := [], clear := true } else q
  let fx : Option Xfer → Option Xfer := fun x => x.bind fun t =>
    let l := t.dest.filter fun e => e != d
    if t.src = d ∨ l = [] then none else some { t with dest := l }
  { s with
    cores := s.cores.filter fun e => !gone e.1
    coreMem := s.coreMem.filter fun e => !gone (e.1 / 2 ^ 23)
    qslots := tmapi none fq s.qslots
    ctrs := s.ctrs.filter fun e => !(e.1 / 64 == d && decide (e.1 < 1024))
    xfers := tmap none fx s.xfers }

/-- A die goes off or into a per-die reset: its requests complete with a status, its work is lost, its pages take their reset
values, and it leaves the fabric. The statistics of its last completed sweep pass, which R48 does not name, stay (DESIGN CHOICE,
log 31). -/
def dieOff (s : State) (d code : Nat) (st : DieSt) : State :=
  let s := clearDie (failWork s d code) d
  let s := rset s pgPwr (0x80 + 4 * d) (put16 (dieAt s d).lastTemp)
  let s := modDie (resetDiePages s d) d fun x =>
    { x with st := st, up := false, online := false, temps := [], hkNext := none, hot := false, rise := false, trips := 0, slope := 0, holdTill := none,
             fell := false }
  let t := dropFlows (dropLinks s d) d
  ((s.landing.filter fun g => !t.landing.contains g).map fun g => g.cargo).foldl loseCargo t

/-- The session slot that a descriptor names (R271). -/
def Desc.flcSlot (d : Desc) : Nat := d.task.toNat % 16

/-- The dies that a SHARD of a slot has to reach: those that do not keep the shard yet, or, for a slot in service, those whose
replica has drifted (R149, R297). -/
def shardNeeds (s : State) (slot i : Nat) : BitVec 16 :=
  let x := slotAt s slot
  let e := shardEnt x.man i
  let h := tget ShardSt.zero x.shards i
  if slot = 0 ∨ x.st = .empty ∨ e.kind ≠ 0 then 0
  else if x.st = .active ∨ x.st = .retiring then h.drifted
  else e.dies &&& ~~~h.kept

/-- Whether the range of a SHARD in package memory, its header and the payload that the manifest gives, extends beyond what the host may
use (R272, R296). -/
def shardRangeBad (s : State) (d : Desc) : Bool :=
  let x := slotAt s d.flcSlot
  let i := d.param.toNat
  d.opc == 0x11 && d.auxDev && decide (d.flcSlot ≠ 0) && x.st != .empty && decide (i < x.man.shardCount) &&
    (shardEnt x.man i).kind != 2 && decide (hostTop s < d.auxAddr.toNat + 64 + (shardEnt x.man i).bytes)

/-- The dies that a request needs: those with a plate layer of its task, or those that its shard has to reach. -/
def needDies (s : State) (q : Req) : List Nat :=
  if q.desc.opc = 1 then
    (((taskLayers (manOf s q.slot) q.desc.task.toNat).filter fun e => e.2.tier == 0).map fun e => e.2.die).dedup
  else if q.desc.opc = 0x11 then bitsOf (shardNeeds s q.desc.flcSlot q.desc.param.toNat)
  else []

/-- Whether a request has not been issued yet, or its shard has not been sent. -/
def unissued (s : State) (id : Nat) (q : Req) : Bool :=
  q.phase == .dispatched || q.phase == .checking || (s.staging.any fun g => g.req == id && !g.sent)

/-- Requests issued or about to be that wait for a die that will not come back complete with a status (R376). -/
def failWaiting (s : State) (d code : Nat) : State :=
  (keysOf s.reqs).foldl (fun s id => match reqAt s id with
    | some q => if unissued s id q && (needDies s q).contains d then failReq s id code else s
    | none => s) s

/-- A die is left out: after repeated supply resets, or with no working link (R319, R376). -/
def leaveOut (s : State) (d code : Nat) : State :=
  let s := dieOff s d code .leftOut
  failWaiting (modDie s d fun x => { x with lostBy := code }) d code

/-! ### Bring-up and rejoining (R111, R150, R368, R376) -/

/-- An open window covers the dies that were online when it opened (R232): not a die that comes up later. -/
def uncover (s : State) (d : Nat) : State :=
  let f : Option Window → Option Window := fun w => w.map fun w => if w.isOpen then { w with dies := w.dies &&& ~~~(1#16 <<< d) } else w
  { s with wins := tmap none f s.wins }

/-- A die's bring-up ends: its plate map is restored, its links are trained, its stored coefficients are in force, and its
implicit calibration window begins. -/
def bringUp (s : State) (d : Nat) (store : Tab Saved) : State :=
  let s := uncover (restorePlates s d) d
  let s := modDie s d fun x => { x with st := .on, up := true, online := true, temps := [], hkNext := none, slope := 0, trips := 0 }
  implicitWindow (trainLinks s (dieUp s) d) d store

/-- Whether the power state, or an exit under way, has the dies' domains on (R367). -/
def diesOn (s : State) : Bool :=
  match s.pwr.exitTo.getD s.pwr.st with
  | .run | .ready | .doze => true
  | .nap | .sleep | .vigil => false

/-- Whether a die may rejoin: after a supply reset once both of its supplies have cleared their warnings, and after a restart or a
BOOT_DIE_RESET (R376, R380, R409). A die that fell back to its SLC region rejoins as after a supply reset (R368). -/
def mayRejoin (s : State) (d : Nat) : Bool :=
  let x := dieAt s d
  decide (d < s.part.member.dies) && !s.boot.safe && s.boot.ready && diesOn s && !x.up &&
    ((x.st == .supplyReset && x.warn == 0) || (x.st == .on && (!x.fell || x.warn == 0)))

/-- BOOT_DIE_RESET resets each named online die, while READY is 1 (R409, R419). -/
def bootDieReset (s : State) (w : W32) : State :=
  if s.boot.ready then
    (bitsOf (BitVec.ofNat 16 (fld w 15 0))).foldl (fun s d => if dieUp s d then dieOff s d 0x7F .on else s) s
  else s

/-! ### What a request needs (R376, R380, R413, R415) -/

/-- The status with which a request completes at dispatch for a die that will not serve it, if there is one. -/
def offStatus (s : State) (q : Req) : Option Nat :=
  (needDies s q).findSome? fun d => match (dieAt s d).st with
    | .thermalOff => some 0x60
    | .skipped | .notPresent => some 0x7F
    | .leftOut => some (dieAt s d).lostBy
    | _ => none

/-- The opcodes that run in safe boot (R415). -/
def safeOpc (o : Nat) : Bool := decide (o = 0x3F ∨ o = 0x3E ∨ o = 0x30 ∨ o = 2 ∨ o = 3)

/-- A request just dispatched completes at once where safe boot bars its opcode, its shard lies outside usable memory, or a die that it
needs is off for good. -/
def dispatchGate (s : State) (id : Nat) : State :=
  match reqAt s id with
  | none => s
  | some q =>
    if q.phase = .finished then s
    else if s.boot.safe ∧ safeOpc q.desc.opc.toNat = false then failReq s id 0x7F
    else if shardRangeBad s q.desc then refuseRange s id q.ring
    else match offStatus s q with
      | some c => failReq s id c
      | none => s

/-- Whether every die that a request needs is in service; one that is not makes the request wait (R376). -/
def diesReady (s : State) (q : Req) : Bool :=
  ((taskLayers (manOf s q.slot) q.desc.task.toNat).all fun e => e.2.tier == 1 || dieUp s e.2.die) &&
  (s.engines.all fun e => !e.2.inBringUp ||
    !((taskLayers (manOf s q.slot) q.desc.task.toNat).any fun l => l.2.tier == 0 && l.2.die == engDie e.1))

/-! ### Link errors (R319) -/

/-- The links of a die that still work. -/
def linksLeft (s : State) (d : Nat) : Bool :=
  ((List.range 4).any fun p => linkOk s d p) || (s.part.member.hubs.contains d && linkOk s d 4)

/-- Transfers in flight that no route carries any more are discarded, with the packets that are still on their way, and the requests they
and what they had to land served complete with INTERNAL; of one that has arrived, the acknowledgement alone is discarded, at the destination. Packets whose
way is gone take another. -/
def dropLost (s : State) : State :=
  let gone := (s.landing.filter fun g => match xferAt s g.xfer with
    | some t => (lostDests s t.src t.dest).contains g.die && onWay s g.xfer g.die
    | none => false).map fun g => g.cargo
  let s := (keysOf s.xfers).foldl (fun s x => match xferAt s x with
    | none => s
    | some t =>
      let lost := lostDests s t.src t.dest
      let way := lost.filter fun d => onWay s x d
      let acks := lost.filter fun d => !onWay s x d
      let l := t.dest.filter fun d => !lost.contains d
      let n := match s.flows.find? fun f => f.xfer == some x with | some f => f.flits | none => 1
      let s := if lost.isEmpty then s else putXfer s x (if l.isEmpty then none else some { t with dest := l })
      let s := discardPackets s way n
      let s := acks.foldl (fun s _ => discardPackets s [t.src] 1) s
      match t.req with
      | some id => if way.isEmpty then s else failReq s id 0x7F
      | none => s) s
  gone.foldl loseCargo (reroute s)

/-- A link is DOWN at both ends, and a die with no link left is left out. -/
def linkDown (s : State) (i : Nat) : State :=
  let d := i / 5
  let p := i % 5
  let s := setLink s d p fun l => { l with st := 3, ver := 0 }
  let s := dropLost (ev s pgTrl 1 i)
  let ends := if p = 4 then [d] else [d, neighbour s.part.member d p]
  ends.foldl (fun s d => if dieUp s d && !linksLeft s d then leaveOut s d 0x7F else s) s

/-- A 32-bit event counter of a link, which stops at its top (R41). -/
def stopUp (w : W32) : W32 := if w = 0xFFFFFFFF then w else w + 1

/-- A bad flit on a link: it is counted and replayed, and after eight failed replays of one flit the link retrains. -/
def flitErrorOp (s : State) (i : Nat) (replayed : Bool) : State :=
  let l := linkAt s i
  if l.st ≠ 1 then s
  else
    let n := if replayed then l.fails + 1 else 0
    let l := { l with crc := stopUp l.crc, replay := stopUp l.replay, fails := n }
    if 8 ≤ n then ev (setLink (putLink s i { l with fails := 0 }) (i / 5) (i % 5) fun l => { l with st := 2 }) pgTrl 0 i else putLink s i l

/-- A retraining ends: the link works again, or after three failures it is DOWN. -/
def linkRetrainOp (s : State) (i : Nat) (ok : Bool) : State :=
  let l := linkAt s i
  if l.st ≠ 2 then s
  else
    let both := fun (f : Link → Link) => setLink s (i / 5) (i % 5) f
    if ok then both fun l => { l with st := 1, retrain := 0, fails := 0 }
    else if 3 ≤ l.retrain + 1 then linkDown (both fun l => { l with retrain := 0 }) i
    else both fun x => { x with retrain := l.retrain + 1 }

/-- The verdict waits for every die that the request needs (R195, R376). -/
def execIssueVerdict (req : Nat) (s : State) : Host.Outcome State Fault Refusal :=
  match reqAt s req with
  | some q => if diesReady s q then done (verdictOp s req) else done s
  | none => done s
def execFlitCrcError (link : Nat) (replayed : Bool) (s : State) : Host.Outcome State Fault Refusal :=
  done (flitErrorOp s link replayed)
def execLinkRetrain (link : Nat) (ok : Bool) (s : State) : Host.Outcome State Fault Refusal := done (linkRetrainOp s link ok)

end Sys2Proof.Machine
end

