-- ==== Sys2Proof/Machine/Camera.lean ====
section
/-! DEFINITION. Camera ingest: packets and what a port makes of them (R242, R243), frames and lines (R244 to R249), stripes
and their push (R250), the watchdog and lost frames (R251, R252), and the stream registers (R246, R254, R255). -/

namespace Sys2Proof.Machine

open Sys2Proof

/-! ### A stream's configuration -/

def modStream (s : State) (n : Nat) (f : Stream → Stream) : State := putStream s n (f (streamAt s n))

/-- The page and the offset of a stream's registers on CAMp0, and its offset on CAMp1. -/
def camPage (n : Nat) : Nat := pgCam0 (n / 4)
def camOff (n : Nat) : Nat := 32 * (n % 4)
def camCnt (n k : Nat) : Nat := 0x44 + 48 * (n % 4) + 4 * k

def camEn (s : State) (n : Nat) : Bool := rbit s (camPage n) (0x60 + camOff n) 31
def camLsle (s : State) (n : Nat) : Bool := rbit s (camPage n) (0x60 + camOff n) 11
def camPolicy (s : State) (n : Nat) : Nat := rfld s (camPage n) (0x60 + camOff n) 7 6
def camDt (s : State) (n : Nat) : Nat := rfld s (camPage n) (0x60 + camOff n) 5 0
def camW (s : State) (n : Nat) : Nat := rfld s (camPage n) (0x64 + camOff n) 31 16
def camH (s : State) (n : Nat) : Nat := rfld s (camPage n) (0x64 + camOff n) 15 0
/-- FRAMES, of which 0 reads as 16 (R254). -/
def camFrames (s : State) (n : Nat) : Nat :=
  let k := rfld s (camPage n) (0x68 + camOff n) 31 28
  if k = 0 then 16 else k
def camBase (s : State) (n : Nat) : Nat := rfld s (camPage n) (0x68 + camOff n) 23 0 * 4096
/-- PERIOD and LATE_TOL in nanoseconds. -/
def camPeriod (s : State) (n : Nat) : Nat := rfld s (camPage n) (0x6C + camOff n) 15 0 * 10000
def camLateTol (s : State) (n : Nat) : Nat := rfld s (camPage n) (0x6C + camOff n) 31 16 * 1000
def camMinLine (s : State) (n : Nat) : Nat := rfld s (camPage n) (0x70 + camOff n) 15 0

/-- Bytes per line of a data type and width, and the multiple that the width must be of; a type that is not listed has no
bytes (R244). -/
def lineBytes (dt w : Nat) : Nat × Nat :=
  if dt = 0x2A then (w, 1) else if dt = 0x2B then (5 * w / 4, 4) else if dt = 0x2C then (3 * w / 2, 2)
  else if dt = 0x1E then (2 * w, 2) else if dt = 0x24 then (3 * w, 1) else (0, 1)

def camB (s : State) (n : Nat) : Nat := (lineBytes (camDt s n) (camW s n)).1
def pitchOf (b : Nat) : Nat := ceilDiv b 64 * 64
def camP (s : State) (n : Nat) : Nat := pitchOf (camB s n)

/-- The address of a frame's slot, and of a line in it (R245). -/
def slotBase (s : State) (n f : Nat) : Nat :=
  camBase s n + f % camFrames s n * (64 + (4 + camH s n) * camP s n)
def lineAddr (s : State) (n f l : Nat) : Nat := slotBase s n f + 64 + (4 + l) * camP s n

/-- An event of a stream on the status page: its counter, and its sticky bit with the frame number (R255). -/
def camCount (s : State) (n k c : Nat) : State := count s (pgCam1 (n / 4)) (camCnt n k) c
def camSticky (s : State) (n b : Nat) : State := ev s (pgCam1 (n / 4)) (6 * (n % 4) + b) (streamAt s n).frame.toNat

/-! ### Packets that a port discards (R243) -/

/-- Whether a port receives. -/
def portOn (s : State) (p : Nat) : Bool := decide (p < 8) && rbit s (pgCam0 p) 0x40 0

/-- A packet reaches a port: a corrected header is counted, and one of a stream with EN at 0 is discarded. -/
def headerOf (s : State) (n : Nat) (fixed : Bool) : State × Bool :=
  let s := if fixed then count s (camPage n) 0x44 1 else s
  if camEn s n then (s, true) else (ev (count s (camPage n) 0x4C 1) (camPage n) 1 0, false)

/-- A packet goes on where its port receives and its stream is enabled. -/
def onPacket (s : State) (n : Nat) (fixed : Bool) (f : State → State) : State :=
  if portOn s (n / 4) then
    let r := headerOf s n fixed
    if r.2 then f r.1 else r.1
  else s

/-! ### Events (R220, R223, R247) -/

/-- The line event of a line index. -/
def lineEvent (s : State) (n l : Nat) : State :=
  let x := streamAt s n
  let s := putStream s n { x with line := BitVec.ofNat 16 (l + 1), stamp := s.belv.tb }
  triggerLine s n l x.frame.toNat s.belv.tb

/-- A line event that waits for its line end packet is stamped at another arrival, and counted. -/
def flushLine (s : State) (n : Nat) : State :=
  match (streamAt s n).pendLine with
  | none => s
  | some l => lineEvent (camCount (modStream s n fun x => { x with pendLine := none }) n 6 1) n l

/-! ### Stripes (R250) -/

def inStripe (k : Nat) (l : List Nat) : Bool := l.any fun i => i / 16 == k

/-- The dies that receive a stream's stripes (R254). -/
def destsOf (s : State) (n : Nat) : List Nat := bitsOf (BitVec.ofNat 16 (rfld s (camPage n) (0x78 + camOff n) 15 0))

/-- A stripe of the open frame awaits its push, with the outcomes of its lines; one that goes to no die is done with. -/
def dueStripe (s : State) (n k : Nat) : State :=
  let none_ := (destsOf s n).isEmpty
  let rows := min 16 (camH s n - 16 * k)
  let b := camB s n
  let p := camP s n
  modStream s n fun x =>
    if x.bound.isEmpty && none_ then x
    else { x with due := x.due ++ [⟨x.frame, x.startTb, k, inStripe k x.badLines, inStripe k x.clipLines,
                                    inStripe k x.rateLines, x.bound, x.buf, rows, b, p⟩] }

/-- The stripes of a frame that are pushed by its close: none from the drop on, or past the last received line. -/
def pushedCount (x : Stream) : Nat :=
  match x.dropAt with
  | some k => k
  | none => ceilDiv x.lines 16

/-! ### The ingest SRAM (R246, R250) -/

/-- The place of a byte of a stream's stripe buffer: the stream, one of its four buffers, one of 16 lines, and the offset in it. -/
def ingestKey (n buf l o : Nat) : Nat := ((n * 4 + buf) * 16 + l) * 2 ^ 18 + o

/-- A line is written to its stripe's buffer in the ingest SRAM, and to the frame ring (R246, R250). -/
def writeLine (s : State) (n l : Nat) (bytes : List Byte) : State :=
  let x := streamAt s n
  let s := pkgPut s (lineAddr s n x.frame.toNat l) bytes
  { s with ingest := putBytes s.ingest (ingestKey n x.buf (l % 16) 0) bytes }

/-- The first line of a stripe takes a buffer that no stripe awaiting its push holds. -/
def takeBuffer (s : State) (n l : Nat) : State :=
  if l % 16 ≠ 0 then s
  else modStream s n fun x => { x with buf := ((List.range 4).find? fun b => x.due.all fun d => d.buf != b).getD x.buf }

/-- A bad line: it is counted and marked (R248). -/
def noteBad (s : State) (n l : Nat) : State :=
  let s := camSticky (camCount s n 3 1) n 2
  modStream s n fun x => { x with bad := x.bad + 1, badLines := x.badLines ++ [l],
                                   bitmap := if l < 256 then x.bitmap ++ [l] else x.bitmap }

/-- What replaces a bad line under PREV or ZERO. -/
def fillBytes (s : State) (n l : Nat) : List Byte :=
  if camPolicy s n = 0 ∧ 0 < l then bytesAt s.pkgMem (lineAddr s n (streamAt s n).frame.toNat (l - 1)) (camB s n)
  else List.replicate (camB s n) 0

/-- The frame is DROPPED from a line on: from then on none of its stripes is pushed, those that still await their push among them. -/
def dropFrom (s : State) (n l : Nat) : State :=
  let x := streamAt s n
  if x.dropAt.isSome then s
  else
    let mine := fun (d : StripeDue) => d.key == x.startTb
    let first := match x.due.find? mine with | some d => d.stripe | none => l / 16
    camCount (putStream s n { x with dropAt := some first, due := x.due.filter fun d => !mine d }) n 9 1

/-- A line is accepted: its event follows at once, or at the line end packet under LSLE, and a stripe that it completes,
other than the last, awaits its push. -/
def acceptLine (s : State) (n l : Nat) : State :=
  let x := streamAt s n
  let s := putStream s n { x with lines := l + 1, lastEnd := some s.belv.tb }
  let s := if l % 16 = 15 ∧ l + 1 < camH s n ∧ x.dropAt = none then dueStripe s n (l / 16) else s
  if camLsle s n then modStream s n fun x => { x with pendLine := some l } else lineEvent s n l

/-! ### The close of a frame (R248, R250, R252) -/

/-- Requests that await a stripe of a frame that will never be pushed complete with STREAM_LOST, and a request still to
come takes nothing of that frame (R252, log 24). -/
def loseFrame (s : State) (n key first : Nat) : State :=
  let fs := s.feeds.filter fun f => f.src == n && f.key == key
  let s := { s with feeds := s.feeds.filter fun f => !(f.src == n && f.key == key && f.taken.isNone) }
  let total := stripesOf s n
  fs.foldl (fun s f => match f.taken with
    | none => s
    | some id =>
      let m := manOf s f.slot
      let l := recAt m f.layer
      match bindOf m l n, (reqRuns s id).find? fun e => e.2.slot == f.slot && e.2.layer == f.layer with
      | some b, some w =>
        if (List.range total).any fun k => decide (first ≤ k ∧ k / max b.spb 1 < ceilDiv w.2.rows 64) then failReq s id 0x41 else s
      | _, _ => s) s

/-- The rest of a frame record is written at its close (R245). -/
def writeRecord (s : State) (n : Nat) : State :=
  let x := streamAt s n
  let short := decide (x.lines < camH s n)
  let fl := ofBits 16 ([0] ++ (if short then [1] else []) ++ (if x.bad = 0 then [] else [2]) ++
    (if x.dropAt.isSome then [5] else [])) ||| (x.flags &&& 0x18)
  let a := slotBase s n x.frame.toNat
  let s := pkgPut s (a + 2) (leBytes 2 fl.toNat ++ leBytes 2 x.lines ++ leBytes 2 x.bad)
  let s := pkgPut s (a + 0x10) (leBytes 8 s.belv.tb)
  pkgPut s (a + 0x20) (leBytes 32 (ofBits 256 x.bitmap).toNat)

/-- The open frame of a stream closes: lines that are missing are filled, remaining stripes that hold a received line
await their push, the record is written, and requests of a SHORT or DROPPED frame that cannot complete end. A filled line of a
stripe that holds received ones lies in the stripe's buffer too. -/
def closeFrame (s : State) (n : Nat) : State :=
  let x := streamAt s n
  let h := camH s n
  let missing := (List.range (h - x.lines)).map fun i => x.lines + i
  let s := missing.foldl (fun s l =>
    let s := noteBad s n l
    if camPolicy s n = 2 then dropFrom s n l
    else if x.lines % 16 ≠ 0 ∧ l / 16 = x.lines / 16 then writeLine s n l (fillBytes s n l)
    else pkgPut s (lineAddr s n x.frame.toNat l) (fillBytes s n l)) s
  let y := streamAt s n
  let s := if y.dropAt = none ∧ 0 < y.lines ∧ (y.lines % 16 ≠ 0 ∨ y.lines = h) then dueStripe s n ((y.lines - 1) / 16) else s
  let s := writeRecord s n
  let s := modStream s n fun x => { x with isOpen := false, pendLine := none }
  if y.lines < h ∨ y.dropAt.isSome then loseFrame s n y.startTb (pushedCount y) else s

/-- A frame end event: the position stays, and the event records its own stamp (R220, R223). -/
def frameEndEvent (s : State) (n : Nat) : State :=
  let f := (streamAt s n).frame
  let s := modStream s n fun x => { x with endStamp := s.belv.tb, endFrame := some f }
  triggerFrameEnd s n f.toNat s.belv.tb

/-- The open frame ends with its event. -/
def endFrame (s : State) (n : Nat) : State := closeFrame (frameEndEvent (flushLine s n) n) n

/-! ### Short packets (R247, R251) -/

/-- The slots and layer records to which a stream is bound now: those of the tasks whose provider binds it (R289, R304). -/
def boundNow (s : State) (n : Nat) : List (Nat × Nat) :=
  (s.prov.flatMap fun e =>
    let m := manOf s e.2
    (m.layers.zipIdx.filter fun x => x.1.task == e.1 && (bindOf m x.1 n).isSome).map fun x => (e.2, x.2)).dedup

/-- A frame opens: its record begins, the watchdog restarts, and each bound first layer has a new input (R245, R251,
log 24). -/
def openFrame (s : State) (n : Nat) : State :=
  let x := streamAt s n
  let tb := s.belv.tb
  let late := decide (camPeriod s n ≠ 0) && !x.lost && decide (x.watchAt + camPeriod s n + camLateTol s n < tb)
  let f := x.frame + 1
  let bnd := boundNow s n
  let slot := f.toNat % camFrames s n
  let s := putStream s n
    { x with frame := f, line := 0, stamp := tb, isOpen := true, lines := 0, bad := 0, emb := 0, flags := 0, bitmap := [],
             badLines := [], clipLines := [], rateLines := [], dropAt := none, pendLine := none, bound := bnd,
             watchAt := tb, lost := false, startTb := tb, embSlots := x.embSlots.filter fun k => k != slot }
  let s := camCount s n 0 1
  let s := if late then camSticky (camCount s n 1 1) n 0 else s
  let s := pkgPut s (slotBase s n f.toNat) (leBytes 2 f.toNat)
  let s := pkgPut s (slotBase s n f.toNat + 8) (leBytes 8 tb)
  let s := { s with feeds := s.feeds.filter fun g => !(g.src == n && g.taken.isNone) }
  bnd.foldl (fun s e => newFeed s ⟨e.1, e.2, n, tb, [], [], none, false⟩) s

def frameStartOp (s : State) (n : Nat) (fixed : Bool) : State :=
  onPacket s n fixed fun s => openFrame (if (streamAt s n).isOpen then endFrame s n else s) n

def frameEndOp (s : State) (n : Nat) (fixed : Bool) : State :=
  onPacket s n fixed fun s => if (streamAt s n).isOpen then endFrame s n else count s (camPage n) 0x50 1

/-- A line start packet causes no event of its own. -/
def lineStartOp (s : State) (n : Nat) (fixed : Bool) : State := onPacket s n fixed fun s => flushLine s n

/-- A line end packet stamps the line event that waits for it. -/
def lineEndOp (s : State) (n : Nat) (fixed : Bool) : State :=
  onPacket s n fixed fun s => match (streamAt s n).pendLine with
    | some l => lineEvent (modStream s n fun x => { x with pendLine := none }) n l
    | none => s

/-! ### Long packets (R243, R245, R247 to R249) -/

/-- A packet's bytes cut or zero-padded to a length. -/
def fit (l : List Byte) (k : Nat) : List Byte := l.take k ++ List.replicate (k - l.length) 0

/-- Embedded data: the first four lines of a frame are kept (R245). -/
def embeddedLine (s : State) (n : Nat) (bytes : List Byte) : State :=
  let x := streamAt s n
  if x.isOpen ∧ x.emb < 4 then
    let slot := x.frame.toNat % camFrames s n
    let s := putStream s n { x with emb := x.emb + 1, embSlots := (x.embSlots.filter fun k => k != slot) ++ [slot] }
    pkgPut s (slotBase s n x.frame.toNat + 64 + x.emb * camP s n) (fit bytes (camP s n))
  else s

/-- A line past the ceiling of its rate, or one for which no stripe buffer is free, is discarded as rate-limited (R249,
R250). -/
def rateLimited (s : State) (n : Nat) : Bool :=
  let x := streamAt s n
  (camMinLine s n != 0 && (match x.lastEnd with | some t => decide (s.belv.tb < t + camMinLine s n) | none => false)) ||
  (x.lines % 16 == 0 && decide (4 ≤ x.due.length))

/-- A long packet of the stream's data type in an open frame (R248, R249). -/
def imageLine (s : State) (n : Nat) (bytes : List Byte) (crcOk : Bool) : State :=
  let l := (streamAt s n).lines
  let b := camB s n
  if rateLimited s n then
    let s := camSticky (camCount s n 5 1) n 4
    modStream s n fun x => { x with flags := x.flags ||| 0x10, rateLines := x.rateLines ++ [l] }
  else if camH s n ≤ l then
    let s := camSticky (camCount s n 4 1) n 3
    modStream s n fun x => { x with flags := x.flags ||| 8 }
  else if crcOk = false ∨ bytes.length < b then
    let s := noteBad s n l
    if camPolicy s n = 2 then dropFrom s n l
    else
      let s := takeBuffer s n l
      acceptLine (writeLine s n l (fillBytes s n l)) n l
  else
    let s := if b < bytes.length then
        let s := camSticky (camCount s n 4 1) n 3
        modStream s n fun x => { x with flags := x.flags ||| 8, clipLines := x.clipLines ++ [l] }
      else s
    acceptLine (writeLine (takeBuffer s n l) n l (bytes.take b)) n l

def longPacketOp (s : State) (p : Packet) : State :=
  let n := p.stream
  onPacket s n p.hdrFixed fun s =>
    let s := flushLine s n
    if p.dt.toNat ≠ camDt s n ∧ p.dt ≠ 0x12 then ev (count s (camPage n) 0x4C 1) (camPage n) 1 0
    else
      if p.dt.toNat = 0x12 then embeddedLine s n p.payload
      else if (streamAt s n).isOpen then imageLine s n p.payload p.crcOk
      else count s (camPage n) 0x50 1

/-- A packet whose header cannot be corrected is discarded whole; a line that it carried is missing at the frame's close
(R243, R248). -/
def hdrUeOp (s : State) (p : Nat) : State :=
  if portOn s p then ev (count s (pgCam0 p) 0x48 1) (pgCam0 p) 0 0 else s

/-! ### The push of a stripe (R250, R289) -/

/-- Whether the landing slot of a stripe still holds an older block of its layer, or one is on its way there: the push waits for it (R193,
R421). A block that a request has taken holds its slot until every set has stepped it; one of a feed that none has taken, as long as
the feed stands. -/
def stripeHeld (s : State) (n : Nat) (d : StripeDue) (slot layer : Nat) : Bool :=
  match bindOf (manOf s slot) (recAt (manOf s slot) layer) n with
  | none => false
  | some b =>
    let spb := max b.spb 1
    let place := fun (k : Nat) => k % max b.slots 1
    let mine := fun (key mb : Nat) => key == d.key && mb == d.stripe / spb
    (s.feeds.any fun f => f.slot == slot && f.layer == layer && f.src == n && f.got.any fun e =>
      !mine f.key e.1 && ((List.range e.2).any fun i => place (e.1 * spb + i) == place d.stripe) &&
      match f.taken with
      | none => true
      | some id => match consRun s id slot layer with
        | some v => wanted s v.2 e.1 || tget 0 v.2.landed e.1 != 0
        | none => false) ||
    s.landing.any fun g => match g.cargo with
      | .stripe k x sl ly _ => k == n && sl == slot && ly == layer && !mine x.key (x.stripe / spb) && place x.stripe == place d.stripe
      | .tile .. | .out .. => false

/-- The stripe at the front of those that await their push goes out in one multicast to the dies of DEST, once the Pavilion has room for
a transfer, the ways are open, and every landing slot is free of older blocks (R193, R250, R317, R321); a frame that was bound before an
activation still reaches its dies. -/
def stripePushOp (s : State) (n k : Nat) : State :=
  let x := streamAt s n
  match x.due with
  | [] => s
  | d :: rest =>
    let at_ := fun (e : Nat × Nat) => (recAt (manOf s e.1) e.2).die
    let dies := (destsOf s n ++ d.bound.map at_).dedup
    if d.stripe = k ∧ mayTransfer s 16 dies = true ∧ (d.bound.any fun e => stripeHeld s n d e.1 e.2) = false then
      let lines := (List.range d.rows).map fun i => bytesAt s.ingest (ingestKey n d.buf i 0) d.width
      let cargo := d.bound.map fun e => (at_ e, Cargo.stripe n d e.1 e.2 lines)
      sendCargo (putStream s n { x with due := rest }) 16 dies none (64 + d.rows * d.pitch) cargo
    else s

/-! ### The watchdog (R251, R252) -/

/-- No frame start by 1.5 × PERIOD: the stream enters LOST, and an open frame closes SHORT with no event. -/
def streamLostOp (s : State) (n : Nat) : State :=
  let x := streamAt s n
  if camEn s n ∧ camPeriod s n ≠ 0 ∧ x.lost = false ∧ x.watchAt + camPeriod s n * 3 / 2 ≤ s.belv.tb then
    let s := camSticky (camCount (putStream s n { x with lost := true }) n 2 1) n 1
    if x.isOpen then closeFrame s n else s
  else s

/-! ### Stream registers (R246) -/

/-- The ingest SRAM that an enabled stream takes. -/
def ingestUse (s : State) (n : Nat) : Nat := if camEn s n then 64 * camP s n else 0

/-- Whether a write of EN = 1 is refused, with the SCFG word that it would store. -/
def enRefused (s : State) (n : Nat) (w : W32) : Bool :=
  let r := lineBytes (fld w 5 0) (camW s n)
  let p := pitchOf r.1
  let used := ((List.range 32).map fun k => if k = n then 0 else ingestUse s k).sum
  decide (camW s n = 0 ∨ camH s n = 0 ∨ p = 0 ∨ camW s n % r.2 ≠ 0 ∨ 16384 < camH s n ∨ camFrames s n < 2 ∨
    hostTop s < camBase s n + camFrames s n * (64 + (4 + camH s n) * p) ∨ 32 * 2 ^ 20 < used + 64 * p)

/-- CFG_REFUSED of a stream. -/
def cfgRefused (s : State) (n : Nat) : State := ev s (camPage n) 2 (n % 4)

/-- A write of CAM_SCFG with the word that it would store (R246). With EN at 1 only a write that clears EN acts, and it
clears EN alone (log 25). -/
def scfgWrite (s : State) (n : Nat) (w : W32) : State :=
  let old := rget s (camPage n) (0x60 + camOff n)
  let set := fun (s : State) v => rset s (camPage n) (0x60 + camOff n) v
  if bit old 31 then
    if bit w 31 then cfgRefused s n
    else
      let s := set s (old &&& 0x7FFFFFFF)
      if w = old &&& 0x7FFFFFFF then s else cfgRefused s n
  else if bit w 31 then
    if enRefused s n w then cfgRefused s n
    else set (modStream s n fun x => { x with watchAt := s.belv.tb, lost := false, frozen := false }) w
  else set s w

/-- A write of CAM_SGEOM, CAM_SRING, CAM_SPERIOD or CAM_SFRZ (R246). -/
def camCfgWrite (s : State) (n off : Nat) (w : W32) : State :=
  if camEn s n then cfgRefused s n else rset s (camPage n) off w

/-- The data lanes of a port leave LP-11 (R254). -/
def leaveLp11Op (s : State) (p : Nat) : State :=
  if portOn s p then { s with lp11 := tset false s.lp11 p true } else s

/-- A write of CAM_PORT_CTRL: LINK starts again at a rise of EN (R254). -/
def portCtrl (s : State) (p : Nat) (w : W32) : State :=
  let s := if bit w 0 ∧ portOn s p = false then { s with lp11 := tset false s.lp11 p false } else s
  rset s (pgCam0 p) 0x40 w

def execFrameStart (stream : Nat) (hdrFixed : Bool) (s : State) : Host.Outcome State Fault Refusal :=
  done (frameStartOp s stream hdrFixed)
def execFrameEnd (stream : Nat) (hdrFixed : Bool) (s : State) : Host.Outcome State Fault Refusal :=
  done (frameEndOp s stream hdrFixed)
def execLongPacket (pkt : Packet) (s : State) : Host.Outcome State Fault Refusal := done (longPacketOp s pkt)
def execHdrUe (port : Nat) (_lost : Option Nat) (s : State) : Host.Outcome State Fault Refusal := done (hdrUeOp s port)
def execLineStartPacket (pkt : LinePacket) (s : State) : Host.Outcome State Fault Refusal :=
  done (lineStartOp s pkt.stream pkt.hdrFixed)
def execLineEndPacket (pkt : LinePacket) (s : State) : Host.Outcome State Fault Refusal :=
  done (lineEndOp s pkt.stream pkt.hdrFixed)
def execStripePush (stream stripe : Nat) (s : State) : Host.Outcome State Fault Refusal := done (stripePushOp s stream stripe)
def execStreamLost (stream : Nat) (s : State) : Host.Outcome State Fault Refusal := done (streamLostOp s stream)
def execDataLanesLeaveLp11 (port : Nat) (s : State) : Host.Outcome State Fault Refusal := done (leaveLp11Op s port)

end Sys2Proof.Machine
end

