-- ==== Sys2Proof/Machine/Sillage.lean ====
section
/-! DEFINITION. Sillage: the queues of the units (R333, R334), templates (R336 to R338, R344), jobs and their outcomes (R335,
R339 to R342, R345), and the frozen-frame check (R253, R343). -/

namespace Sys2Proof.Machine

open Sys2Proof

def modUnit (s : State) (u : Nat) (f : SilUnit → SilUnit) : State := putUnit s u (f (unitAt s u))

/-! ### Queues (R334) -/

/-- The latest ended frame of every stream that has ended one (R343). -/
def endedFrames (s : State) : Tab (BitVec 16) :=
  s.streams.filterMap fun e => e.2.endFrame.map fun f => (e.1, f)

/-- A job arrives at a unit: it is queued, or dropped where the queue holds 16. -/
def submitJob (s : State) (u t : Nat) : State :=
  if 16 ≤ (unitAt s u).queue.length then ev (count s (pgChkU u) 0x48 1) (pgChkU u) 0 t
  else modUnit s u fun x => { x with queue := x.queue ++ [(t, endedFrames s)] }

/-! ### Templates (R335 to R338, R344) -/

def Tpl.mode (t : Tpl) : Nat := fld t.cfg 31 29
def Tpl.alg (t : Tpl) : Nat := fld t.cfg 28 27
def Tpl.space (t : Tpl) : Nat := fld t.cfg 26 24
def Tpl.width (t : Tpl) : Nat := let k := fld t.cfg 23 22; if k = 0 then 4 else if k = 1 then 8 else 16
def Tpl.start (t : Tpl) : Nat := if t.space = 6 then t.startLo.toNat else t.startLo.toNat + t.startHi.toNat * 2 ^ 32
/-- The bytes that a job reads at START: LEN, or those of the counter under ALIVE; FRAME reads none there. -/
def Tpl.span (t : Tpl) : Nat :=
  if t.mode = 3 then 0 else if t.mode = 2 then (if t.width = 16 then 2 else 1) else t.len.toNat

/-- The end of an address space, and the multiple that START and LEN must be of (R337). -/
def spaceEnd : Nat → Option Nat
  | 0 => some 0xF00000000 | 1 => some 0x2000000 | 2 => some 0x40000000 | 4 => some 0x80000 | 5 => some 0x80000
  | 6 => some 0x4000000 | _ => none
def spaceUnit : Nat → Nat
  | 4 => 16 | 5 => 64 | 6 => 16 | _ => 1

/-- Whether a staged template is refused (R338). -/
def tplBad (t : Tpl) : Bool :=
  decide (3 < t.mode) || decide (t.alg = 3) || decide (t.space = 7) || fld t.cfg 21 5 != 0 ||
  (decide (t.mode = 2) && fld t.ref 30 16 != 0) ||
  (decide (t.mode < 2) && t.len == 0) || t.start % spaceUnit t.space != 0 || t.len.toNat % spaceUnit t.space != 0 ||
  (decide (t.space = 6) && fld t.startHi 31 4 != 0) ||
  (match spaceEnd t.space with | some e => decide (e < t.start + t.span) | none => false)

/-- A commit of the staged template (R335, R338). -/
def tplWrite (s : State) : State :=
  let n := rfld s pgChk0 0x44 7 0
  let cfg := rget s pgChk0 0x48
  let t : Tpl :=
    { cfg := if fld cfg 23 22 = 3 then ins cfg 23 22 2 else cfg, startLo := rget s pgChk0 0x4C, startHi := rget s pgChk0 0x50,
      len := rget s pgChk0 0x54, ref := rget s pgChk0 0x58 }
  let running := (List.range 8).any fun u => match (unitAt s u).run with | some r => r.1 == n | none => false
  if running then ev s pgChk0 1 n
  else if tplBad t then ev s pgChk0 0 n
  else putTpl s n t

/-- A write of CHK_TPL_INDEX takes a snapshot of the template (R344). -/
def tplSnapshot (s : State) : State :=
  let t := tplAt s (rfld s pgChk0 0x44 7 0)
  rset (rset (rset (rset (rset s pgChk0 0x48 t.cfg) pgChk0 0x4C t.startLo) pgChk0 0x50 t.startHi) pgChk0 0x54 t.len) pgChk0 0x58 t.ref

/-! ### What a job reads (R337, R339) -/

/-- CRC-32 and CRC-16 (R339). -/
def crc32Bit (c : W32) : W32 := if c.getLsbD 0 then (c >>> 1) ^^^ 0xEDB88320 else c >>> 1
def crc32Byte (c : W32) (b : Byte) : W32 :=
  crc32Bit (crc32Bit (crc32Bit (crc32Bit (crc32Bit (crc32Bit (crc32Bit (crc32Bit (c ^^^ b.setWidth 32))))))))
def crc32 (l : List Byte) : W32 := ~~~(l.foldl crc32Byte 0xFFFFFFFF)
def crc16Bit (c : BitVec 16) : BitVec 16 := if c.getLsbD 15 then (c <<< 1) ^^^ 0x1021 else c <<< 1
def crc16Byte (c : BitVec 16) (b : Byte) : BitVec 16 :=
  crc16Bit (crc16Bit (crc16Bit (crc16Bit (crc16Bit (crc16Bit (crc16Bit (crc16Bit (c ^^^ (b.setWidth 16 <<< 8)))))))))
def crc16 (l : List Byte) : W32 := (l.foldl crc16Byte 0xFFFF).setWidth 32
def crcOf (alg : Nat) (l : List Byte) : W32 := if alg = 0 then crc32c l else if alg = 1 then crc32 l else crc16 l

def wordBytes (l : List W32) : List Byte := l.flatMap fun w => leBytes 4 w.toNat

/-- The images of the launch table, of the ring configuration and of a die's plate map, unit by unit (R337). -/
def launchImage (s : State) (e : Nat) : List Byte :=
  let x := entryAt s e
  wordBytes [x.d0 &&& 0x7FFFFFFF, x.d1, x.d2, x.d3]
def ringImage (s : State) (n : Nat) : List Byte :=
  wordBytes ((List.range 9).map fun i => rgGet s n (4 * i)) ++ List.replicate 28 0
def plateImage (s : State) (d i : Nat) : List Byte := wordBytes ((plateAt s (4194304 * d + i)).words ++ [0])

/-- Bytes of the ingest SRAM (R246, R337): in a safe boot without package memory they are the device addresses below 32 MiB (R415);
where the manual leaves a stream's buffers in it, a free value says (log 11). -/
def ingestBytes (s : State) (a n : Nat) : List Byte :=
  let areas := ((List.range 32).filter fun k => camEn s k).map fun k => (k, camP s k)
  if s.boot.noDdr then bytesAt s.ingest a n
  else (List.range n).map fun i => tget 0 s.ingest (Config.ingestAt areas (a + i))

/-- The dies that a span of space 2 lies on, with its bytes on each. -/
def spanDies (t : Tpl) : List (Nat × Nat) :=
  let a := t.start
  let e := t.start + t.span
  if t.space ≠ 2 ∨ t.mode = 3 then []
  else (List.range ((e - 1) / 2 ^ 26 - a / 2 ^ 26 + 1)).map fun i =>
    let d := a / 2 ^ 26 + i
    (d, min e ((d + 1) * 2 ^ 26) - max a (d * 2 ^ 26))

/-- The bytes of a span, or none where a read meets an error that cannot be corrected or a die that is not online (R340). -/
def spanBytes (s : State) (t : Tpl) : Option (List Byte) :=
  let a := t.start
  let n := t.span
  let u := spaceUnit t.space
  let image := fun (f : Nat → List Byte) => slice ((List.range (ceilDiv (a % u + n) u)).flatMap fun i => f (a / u + i)) (a % u) n
  if t.space = 0 then if poisoned s a n then none else some (bytesAt s.pkgMem a n)
  else if t.space = 1 then some (ingestBytes s a n)
  else if t.space = 2 then
    if (List.range ((a + n - 1) / 2 ^ 26 - a / 2 ^ 26 + 1)).all fun i => dieUp s (a / 2 ^ 26 + i) then
      some ((List.range n).map fun i => tget 0 s.coreMem (coreKey ((a + i) / 2 ^ 22) ((a + i) % 2 ^ 22)))
    else none
  else if t.space = 3 then some (bytesAt s.hostMem a n)
  else if t.space = 4 then some (image (launchImage s))
  else if t.space = 5 then some (image (ringImage s))
  else some (image (plateImage s (fld t.startHi 3 0)))

/-! ### Jobs (R335, R340, R345) -/

/-- A job ends: its result is written, counted, and marked in the unit's page. -/
def endJob (s : State) (u t outcome : Nat) (value other : W32) : State :=
  let p := pgChkU u
  let s := modUnit s u fun x =>
    { x with run := none, dirty := false, lastTpl := t, seq := x.seq + 1
             log := tset LogEnt.zero x.log (x.seq.toNat % 16)
               { tpl := t, outcome := outcome, seq := x.seq, value := value, other := other, tbEnd := lo32 s.belv.tb } }
  let s := count s p 0x44 1
  if outcome = 3 then ev (count s p 0x4C 1) p 1 t
  else if outcome = 5 then ev (count s p 0x50 1) p 2 t
  else if outcome = 6 then ev (ev (count s p 0x50 1) p 2 t) p 3 t
  else if outcome = 8 then ev s p 4 t
  else if outcome = 9 then ev (count s p 0x54 1) p 5 t
  else s

/-- A job ends with an outcome for which the manual states no VALUE and OTHER: both are free (log 11). -/
def endJobFree (s : State) (u t outcome : Nat) : State :=
  let (v, s) := drawFree s
  let (o, s) := drawFree s
  endJob s u t outcome v o

/-- An ALIVE job that read no counter: OTHER is LAST, and VALUE is free; any other job that ends without its values (R340). -/
def endJobLost (s : State) (u t : Nat) (c : Tpl) (outcome : Nat) : State :=
  if c.mode = 2 then
    let (v, s) := drawFree s
    endJob s u t outcome v (BitVec.ofNat 32 (fld c.ref 15 0))
  else endJobFree s u t outcome

/-- Whether the record of the frame that a FRAME job checks cannot be read (R325). -/
def recordLost (s : State) (n : Nat) (ends : Tab (BitVec 16)) : Bool :=
  match ends.find? fun e => e.1 == n with
  | some e => poisoned s (slotBase s n e.2.toNat) 2
  | none => false

/-- The frame that a FRAME job checks, if its slot still holds it (R343). -/
def frameOf (s : State) (n : Nat) (ends : Tab (BitVec 16)) : Option (BitVec 16) :=
  match ends.find? fun e => e.1 == n with
  | some e => if numAt s.pkgMem (slotBase s n e.2.toNat) 2 = e.2.toNat then some e.2 else none
  | none => none

/-- An idle unit takes its oldest job, which reads its template, and a FRAME job its frame's record, whose loss is an error (R333, R335,
R340). -/
def jobStartOp (s : State) (u : Nat) : State :=
  let x := unitAt s u
  match x.run, x.queue with
  | none, (t, ends) :: rest =>
    let c := tplAt s t
    let s := putUnit s u { x with queue := rest }
    let busy := (List.range 8).any fun v => match (unitAt s v).run with | some r => r.1 == t | none => false
    if busy then endJobLost s u t c 10
    else if c = Tpl.zero then endJobFree s u t 9
    else if c.mode = 3 ∧ recordLost s (fld c.cfg 4 0) ends = true then endJobFree s u t 9
    else if c.mode = 3 then match frameOf s (fld c.cfg 4 0) ends with
      | some f => modUnit s u fun x => { x with run := some (t, f, c), dirty := false }
      | none => endJobFree s u t 11
    else modUnit s u fun x => { x with run := some (t, 0, c), dirty := false }
  | _, _ => s

/-! ### The frozen-frame check (R253, R343) -/

/-- The offsets of a line's sample. -/
def sampleOffsets (b stride : Nat) : List Nat := (List.range (ceilDiv b (max stride 1))).map fun i => i * max stride 1

/-- The outcome of a check for its stream, given the counter (none where no line is embedded) and the signature; the first
check has nothing to compare with (log 25). -/
def frozenVerdict (s : State) (n : Nat) (f : BitVec 16) (cnt : Option Nat) (sig : W32) (width : Nat) : State :=
  let x := streamAt s n
  let s := putStream s n { x with counter := cnt.orElse fun _ => x.counter, sig := some sig }
  match x.sig with
  | none => s
  | some old =>
    let rep := match cnt, x.counter with
      | none, _ => true
      | some c, some o => c == o
      | some _, none => false
    let first := cnt.isSome && x.counter.isNone
    let adv := match cnt, x.counter with
      | some c, some o => c == (o + 1) % 2 ^ width
      | _, _ => false
    if rep = true ∧ sig = old then
      let s := modStream s n fun x => { x with frozen := true }
      let a := slotBase s n f.toNat + 2
      let s := pkgPut s a (leBytes 2 (numAt s.pkgMem a 2 ||| 0x40))
      camSticky (camCount s n 7 1) n 5
    else
      let s := modStream s n fun x => { x with frozen := false }
      if adv = true ∨ first = true then s else camCount s n 8 1

/-- A FRAME job's two values are computed and written to the frame record; a read that meets an uncorrectable error, the record's
own among them, ends the job with ERROR (R340). -/
def frameJob (s : State) (u t n : Nat) (f : BitVec 16) : State :=
  let w := rget s (camPage n) (0x74 + camOff n)
  let width := if fld w 17 16 = 0 then 4 else if fld w 17 16 = 1 then 8 else 16
  let base := slotBase s n f.toNat
  let emb := (streamAt s n).embSlots.contains (f.toNat % camFrames s n)
  let offs := sampleOffsets (camB s n) (fld w 31 18)
  let lines := (List.range (ceilDiv (camH s n) 16)).map fun i => 16 * i
  let lost := poisoned s base 0x20 || (emb && poisoned s (base + 64 + fld w 15 0) (if width = 16 then 2 else 1)) ||
    lines.any fun l => offs.any fun o => poisoned s (lineAddr s n f.toNat l + o) 1
  if lost then endJobFree s u t 9
  else
    let sig := crc32c (lines.flatMap fun l => offs.map fun o => tget 0 s.pkgMem (lineAddr s n f.toNat l + o))
    let cnt := numAt s.pkgMem (base + 64 + fld w 15 0) 2 % 2 ^ width
    let (free, s) := if emb then (0, s) else drawFree s
    let seen := if emb then cnt else free.toNat % 2 ^ width
    let s := pkgPut s (base + 0x18) (leBytes 2 seen ++ leBytes 1 (if emb then 2 else 3) ++ leBytes 1 0 ++ leBytes 4 sig.toNat)
    endJob (frozenVerdict s n f (if emb then some cnt else none) sig width) u t 12 sig (BitVec.ofNat 32 seen)

/-- An ALIVE job's outcome, with the counter that it read (R340). -/
def aliveJob (s : State) (u t : Nat) (c : Tpl) (now : Nat) : State :=
  let w := c.width
  let last := fld c.ref 15 0
  let diff := (now + 2 ^ w - last % 2 ^ w) % 2 ^ w
  let out := if bit c.ref 31 = false then 7 else if diff = 1 then 4 else if diff = 0 then 5 else 6
  endJob (putTpl s t { tplAt s t with ref := put 31 31 1 ||| put 15 0 now }) u t out (BitVec.ofNat 32 now) (BitVec.ofNat 32 last)

/-- A span on dies comes over Trellis, one transfer from each die (R321, R337). The answer says whether every part has a route. -/
def spanTransfers (s : State) (c : Tpl) : State × Bool :=
  let ds := (spanDies c).map fun e => e.1
  if ds.all fun d => dieUp s d then
    ((spanDies c).foldl (fun s e => sendXfer s e.1 [16] none e.2) s, ds.all fun d => reaches s d 16)
  else (s, false)

/-- The running job of a unit ends with its outcome; `readError` says that a read of it met an error (R340). A span on dies waits until
each die may begin a transfer, and one that no route carries is an error (R319, R321, log 29). -/
def jobEndOp (s : State) (u : Nat) (readError : Bool) : State :=
  match (unitAt s u).run with
  | none => s
  | some (t, f, c) =>
    if c.mode = 3 then if readError then endJobFree s u t 9 else frameJob s u t (fld c.cfg 4 0) f
    else if (spanDies c).any fun e => dieUp s e.1 && !mayTransfer s e.1 [16] then s
    else
      let r := spanTransfers s c
      let s := r.1
      match spanBytes s c, readError || !r.2 with
      | none, _ | _, true => endJobLost s u t c 9
      | some l, false =>
        if c.mode = 2 then
          let now := leVal l % 2 ^ c.width
          if (unitAt s u).dirty then endJob s u t 8 (BitVec.ofNat 32 now) (BitVec.ofNat 32 (fld c.ref 15 0))
          else aliveJob s u t c now
        else if (unitAt s u).dirty then endJobFree s u t 8
        else
          let crc := crcOf c.alg l
          let ref := if c.alg = 2 then c.ref &&& 0xFFFF else c.ref
          if c.mode = 0 then
            let (o, s) := drawFree s
            endJob s u t 1 crc o
          else if crc = ref then endJobFree s u t 2
          else endJob s u t 3 crc c.ref

/-- On entry to SLEEP or VIGIL every queue is emptied and every job abandoned; in VIGIL templates go too (R342). -/
def stopSillage (s : State) (vigil : Bool) : State :=
  { s with
    units := tmap SilUnit.zero (fun x => { x with queue := [], run := none, dirty := false }) s.units
    tpls := if vigil then [] else s.tpls }

/-- The words of a result of a unit's log (R345). -/
def LogEnt.words (e : LogEnt) : List W32 :=
  [put 31 24 e.tpl ||| put 23 20 e.outcome ||| put 15 0 e.seq.toNat, e.value, e.other, e.tbEnd]

def execSillageJobStart (unit : Nat) (s : State) : Host.Outcome State Fault Refusal := done (jobStartOp s unit)
def execSillageJobEnd (unit : Nat) (readError : Bool) (s : State) : Host.Outcome State Fault Refusal :=
  done (jobEndOp s unit readError)

end Sys2Proof.Machine
end

