-- ==== Sys2Proof/Machine/Security.lean ====
section
/-! DEFINITION. Security: fuses and signature blocks (R387 to R393), identity and attestation (R394 to R398), the commands of
SEC1 (R399, R400), and debug access (R401 to R404, R407, R408). The primitives that the manual takes from published standards
are the uninterpreted functions of Config (log 9). -/

namespace Sys2Proof.Machine

open Sys2Proof

/-! ### The module's own facts (R50 to R53) -/

def Member.deviceId : Member → Nat
  | .tlq16 => 0x0416 | .tlq08 => 0x0408 | .tlq04 => 0x0404

/-- SYS_DIE_ONLINE.ONLINE, and whether a present die is not online (R52, R53). The reset column of DEGRADED says 0, and its description
would give 1 while no die has come up: until step 0x06 of a start has ended it reads 0 (DESIGN CHOICE, log 44). -/
def onlineMask (s : State) : BitVec 16 := ofBits 16 ((List.range s.part.member.dies).filter fun d => (dieAt s d).online)
def degraded (s : State) : Bool := !(s.boot.active && decide (s.boot.ended < 6)) && onlineMask s != presentMask s

def imageOf (s : State) (b : Bool) : Image := if b then s.nv.imageB else s.nv.imageA
def running (s : State) : Image := imageOf s s.boot.imageB

/-- SYS_FW_VER; in safe boot the ROM runs and no image does (R51, R415). -/
def fwVer (s : State) : W32 :=
  if s.boot.safe then 0 else putBit 24 s.boot.imageB ||| (running s).version.setWidth 32

/-! ### Fuses and signature blocks (R387 to R393) -/

def keyAt (s : State) (k : Nat) : KeySlot := tget KeySlot.zero s.otp.keys k
def setKey (s : State) (k : Nat) (v : KeySlot) : State :=
  { s with otp := { s.otp with keys := tset KeySlot.zero s.otp.keys k v } }

/-- The owner slots that are ACTIVE. -/
def activeOwners (s : State) : List Nat := [2, 3, 4, 5].filter fun k => (keyAt s k).st = 1

/-- The bytes of a signature block (R389). -/
def sigBytes : Nat := 3264

def zeros (l : List Byte) : Bool := l.all fun b => b == 0

/-- The signer's slot that a block names. -/
def sigSlot (g : List Byte) : Nat := leAt g 6 1

/-- Whether a block's form is right (R390, check 1). -/
def sigForm (g : List Byte) : Bool :=
  g.length == sigBytes && slice g 0 4 == [0x53, 0x49, 0x47, 0x42] && leAt g 4 2 == 1 && decide (sigSlot g ≤ 5) &&
  zeros (slice g 7 9) && zeros (slice g 0x10C 4) && zeros (slice g 0xCA4 28)

/-- Whether a slot may sign a kind of object; `arg` is the key slot that a revocation names (R391). -/
def maySign (s : State) (kind arg k : Nat) : Bool :=
  let owners := activeOwners s
  if kind = 1 ∨ kind = 2 ∨ kind = 5 then decide (k < 2)
  else if kind = 3 ∨ kind = 4 ∨ kind = 6 then (if owners.isEmpty then decide (k < 2) else owners.contains k)
  else if kind = 7 then decide (k < 2) || (owners.contains k && k != arg + 2)
  else if kind = 8 then decide (k < 2) && k != arg
  else false

/-- An object to be verified: its kind, body and signature block, whether its own form is right, what a revocation names, and
the outcomes of checks 7 to 9 where its kind has them. -/
structure Signed where
  kind : Nat
  body : List Byte
  sig  : List Byte
  form : Bool
  arg  : Nat
  svnOk : Bool
  bindOk : Bool
  chalOk : Bool

/-- The number that big-endian bytes spell, as RFC 8554 and R394 write one. -/
def beVal (l : List Byte) : Nat := l.foldl (fun n b => 256 * n + b.toNat) 0

/-- Whether an HSS public key and signature have the form of R389: two levels, LMS_SHA256_M32_H10 (type 6) with
LMOTS_SHA256_N32_W8 (type 4) at both, and Nspk = 1; any other type code fails check 6 of R390. -/
def hssForm (key sig : List Byte) : Bool :=
  let w := fun (l : List Byte) (a : Nat) => beVal (slice l a 4)
  w key 0 == 2 && w key 4 == 6 && w key 8 == 4 && w sig 0 == 1 && w sig 8 == 4 && w sig 1132 == 6 &&
  w sig 1456 == 6 && w sig 1460 == 4 && w sig 1516 == 4 && w sig 2640 == 6

/-- The reason of the first check of R390 that an object fails; 0 when it passes all. -/
def verifyReason (s : State) (x : Signed) : Nat :=
  let g := x.sig
  let k := sigSlot g
  if x.form = false ∨ sigForm g = false then 1
  else if (keyAt s k).st ≠ 1 then 2
  else if Config.sha384 (slice g 0x10 96 ++ slice g 0xD0 60) ≠ (keyAt s k).hash then 3
  else if maySign s x.kind x.arg k = false then 4
  else if Config.ecdsaOk (slice g 0x10 96) x.body (slice g 0x70 96) = false then 5
  else if hssForm (slice g 0xD0 60) (slice g 0x110 2964) = false ∨
      Config.hssOk (slice g 0xD0 60) x.body (slice g 0x110 2964) = false then 6
  else if x.svnOk = false then 7
  else if x.bindOk = false then 8
  else if x.chalOk = false then 9
  else 0

/-- A refusal of an object of a kind, signed from a slot, is recorded (R390, R405). -/
def verifyFail (s : State) (kind slot reason : Nat) : State :=
  let s := rset s pgSec0 0x48 (put 31 24 kind ||| put 23 16 reason ||| put 15 8 slot)
  ev (count s pgSec0 0x54 1) pgSec0 0 (kind * 256 + reason)

/-- An object is verified: the reason of its refusal, or 0. -/
def verify (s : State) (x : Signed) : Nat × State :=
  let r := verifyReason s x
  (r, if r = 0 then s else verifyFail s x.kind (sigSlot x.sig) r)

/-! ### Firmware images (R393, R400, R414) -/

/-- A component at a place of an image: its code's end and its signature block's end. -/
def codeEnd (l : List Byte) (a : Nat) : Nat := a + 16 + leAt l (a + 12) 4
def compEnd (l : List Byte) (a : Nat) : Nat := ceilDiv (codeEnd l a) 64 * 64 + sigBytes

/-- A component as a signed object (R393). -/
def component (s : State) (l : List Byte) (a : Nat) (ucode : Bool) : Signed :=
  let svn := leAt l (a + 4) 1
  let magic : List Byte := if ucode then [0x55, 0x43, 0x4F, 0x44] else [0x46, 0x57, 0x49, 0x4D]
  { kind := if ucode then 2 else 1, body := slice l a (codeEnd l a - a), sig := slice l (compEnd l a - sigBytes) sigBytes,
    form := slice l a 4 == magic && zeros (slice l (a + 5) 3) && decide (svn ≤ 64 ∧ compEnd l a ≤ l.length),
    arg := 0, svnOk := decide ((if ucode then s.otp.ucode else s.otp.fw) ≤ svn), bindOk := true, chalOk := true }

/-- An image as the NV store keeps it. -/
def Image.ofBytes (l : List Byte) : Image :=
  let b := compEnd l 0
  { bytes := l, fwSvn := leAt l 4 1, ucSvn := leAt l (b + 4) 1, version := BitVec.ofNat 24 (leAt l 8 3),
    fwHash := Config.sha384 (slice l 0 (codeEnd l 0)), ucHash := Config.sha384 (slice l b (codeEnd l b - b)), ok := true }

/-- The first reason for which either component of an image is refused, with the record it leaves. -/
def verifyImage (s : State) (l : List Byte) : Nat × State :=
  let r := verify s (component s l 0 false)
  if r.1 ≠ 0 then r else verify r.2 (component s l (compEnd l 0) true)

/-- The reason for which a component of the image as shipped is refused. Its bytes are not stated; it is whole where its mark says so,
its signer is Odfen A, and its security versions are those that the mark gives (DESIGN CHOICE, log 2). -/
def shippedReason (s : State) (x : Image) (ucode : Bool) : Nat :=
  if x.ok = false then 1
  else if (keyAt s 0).st ≠ 1 then 2
  else if (if ucode then x.ucSvn else x.fwSvn) < (if ucode then s.otp.ucode else s.otp.fw) then 7
  else 0

/-- Whether a component of an image of the NV store verifies at a start, firmware at step 0x03 and microcode at step 0x07, and
what the verification records (R390, R392). After VIGIL an image whose digest D0 kept is taken without its signatures (R417). -/
def tryImage (s : State) (x : Image) (ucode : Bool) : Bool × State :=
  if ucode = false ∧ s.boot.vigil = true ∧ s.pwr.digest = some (Config.sha384 x.bytes) then (true, s)
  else if x.bytes.isEmpty then
    let r := shippedReason s x ucode
    (r == 0, if r = 0 then s else verifyFail s (if ucode then 2 else 1) 0 r)
  else
    let r := verify s (component s x.bytes (if ucode then compEnd x.bytes 0 else 0) ucode)
    (r.1 == 0, r.2)

/-- The IDCODE word: the Pavilion's stepping, the device ID, and Odfen's manufacturer code (R436). -/
def idcode (s : State) : W32 :=
  put 31 28 (4 * (s.part.pavStep.toNat / 16 - 10) + s.part.pavStep.toNat % 16) |||
  put 27 12 (Member.deviceId s.part.member) ||| put 11 1 s.part.jep106.toNat ||| 1

/-! ### Identity (R394, R395, R407) -/

/-- HMAC with SHA-384, whose blocks are of 128 bytes (RFC 2104). -/
def hmac384 (key msg : List Byte) : List Byte :=
  let k := fit (if 128 < key.length then Config.sha384 key else key) 128
  let pad := fun (c : Byte) => k.map fun b => b ^^^ c
  fit (Config.sha384 (pad 0x5C ++ fit (Config.sha384 (pad 0x36 ++ msg)) 48)) 48

/-- HKDF-SHA-384 with an empty salt (RFC 5869): bytes of output for an input and an info string. -/
def hkdf384 (ikm : List Byte) (info : String) (n : Nat) : List Byte :=
  let prk := hmac384 (List.replicate 48 0) ikm
  let name : List Byte := info.toList.map fun c => BitVec.ofNat 8 c.toNat
  let r := (List.range (ceilDiv n 48)).foldl (fun (r : List Byte × List Byte) i =>
    let t := hmac384 prk (r.2 ++ name ++ leBytes 1 (i + 1))
    (r.1 ++ t, t)) ([], [])
  r.1.take n

/-- The device secret of the fuses, which the security block alone reads (R387). -/
def deviceSecret : List Byte := (List.range 48).map Config.secretByte

/-- The order of P-384. -/
def p384Order : Nat :=
  0xFFFFFFFFFFFFFFFFFFFFFFFFFFFFFFFFFFFFFFFFFFFFFFFFC7634D81F4372DDF581A0DB248B0A77AECEC196ACCC52973

/-- The identity's ECDSA private key (R394). -/
def identityKey : Nat := beVal (hkdf384 deviceSecret "Tiluk identity ECDSA" 64) % (p384Order - 1) + 1

/-- The seed and the identifier of the device LMS key (R394): 32 and 16 bytes, as RFC 8554 sizes them, in this order (PRESUMED, log 9). -/
def lmsSeed : List Byte := (hkdf384 deviceSecret "Tiluk identity LMS" 48).take 32
def lmsIdent : List Byte := (hkdf384 deviceSecret "Tiluk identity LMS" 48).drop 32

/-- A 32-bit number as RFC 8554 writes one. -/
def beWord (n : Nat) : List Byte := (leBytes 4 n).reverse

/-- The identity public keys: X and Y, and an HSS key with L = 1, LMS_SHA256_M32_H20 (type 8) and LMOTS_SHA256_N32_W8 (type 4) (R394,
R395). -/
def identityEcdsa : List Byte := fit (Config.p384Public identityKey) 96
def identityLms : List Byte := beWord 1 ++ beWord 8 ++ beWord 4 ++ fit lmsIdent 16 ++ fit (Config.lmsRoot lmsSeed lmsIdent) 32

/-- The device LMS signature with a leaf, as RFC 8554 lays it out for L = 1: 1,776 bytes (R395, R396). -/
def identitySign (leaf : Nat) (body : List Byte) : List Byte :=
  beWord 0 ++ beWord leaf ++ beWord 4 ++ fit (Config.lmotsSign leaf lmsSeed lmsIdent body) 1120 ++
  beWord 8 ++ fit (Config.lmsPath leaf lmsSeed lmsIdent) 640

/-- A word of SEC2 (R407). -/
def idWord (s : State) (k : Nat) : W32 :=
  let w := fun (l : List Byte) (i : Nat) => BitVec.ofNat 32 (leAt l (4 * i) 4)
  if k < 24 then w identityEcdsa k
  else if k < 39 then w identityLms (k - 24)
  else if 64 ≤ k then w s.nv.cert (k - 64)
  else 0

/-- A read of SEC_ID_DATA: the selected word, and INDEX advances (R407). -/
def idRead (s : State) : State :=
  rset s pgSec2 0x40 (put 11 0 (rfld s pgSec2 0x40 11 0 + 1))

/-! ### Attestation (R396 to R398) -/

/-- Bytes 0x0F0 to 0x0F5 of a report. -/
def keyBytes (s : State) : List Byte :=
  let st := fun (k : Nat) => (keyAt s k).st.toNat
  leBytes 1 s.otp.fw ++ leBytes 1 s.otp.ucode ++ leBytes 1 s.otp.flacon ++ leBytes 1 0 ++
  leBytes 1 (st 2 + 4 * st 3 + 16 * st 4 + 64 * st 5) ++ leBytes 1 (st 0 + 4 * st 1)

/-- What the configuration digest takes of a lockable page (R397). -/
def pageDigest (s : State) (p : Nat) : List Byte :=
  match kindOf p with
  | none => []
  | some (k, _) =>
    let rows := ((rowsOf k).flatMap fun r =>
      if r.lm = 0 then [] else (List.range r.cnt).map fun i => (r.first + r.step * i, r.lm)).insertionSort fun a b => a.1 ≤ b.1
    leBytes 2 p ++ leBytes 1 (rfld s p 0x0C 0 0) ++ rows.flatMap fun e => leBytes 4 (rget s p e.1 &&& e.2).toNat

/-- The pages of the member whose PAGE_CAP.LOCKABLE is 1. -/
def lockPages (s : State) : List Nat :=
  (List.range 0xE00).filter fun p =>
    (match kindOf p with | some (k, _) => lockable k | none => false) &&
    (match pageDie p with | some d => decide (d < s.part.member.dies) | none => true)

/-- The hash of a key slot: zeros for an EMPTY one. -/
def slotHash (s : State) (k : Nat) : List Byte := fit (if (keyAt s k).st = 0 then [] else (keyAt s k).hash) 48

/-- The configuration digest (R397). -/
def configDigest (s : State) : List Byte :=
  fit (Config.sha384 ((List.range 6).flatMap (slotHash s) ++ keyBytes s ++ (lockPages s).flatMap (pageDigest s))) 48

/-- FLC_SLOT_STATE.STATE (R313). -/
def SlotSt.code : SlotSt → Nat
  | .empty => 0 | .loading => 1 | .activating => 2 | .active => 3 | .retiring => 4

/-- The slots that a report lists. -/
def attestSlots (s : State) : List Nat :=
  ((List.range 15).map fun i => i + 1).filter fun k => (slotAt s k).st == .active || (slotAt s k).st == .retiring

/-- The signed bytes of a report (R396). -/
def reportBody (s : State) (leaf : Nat) (nonce : List Byte) : List Byte :=
  let l := attestSlots s
  let flags := (if s.boot.imageB && !s.boot.safe then 1 else 0) + (if s.boot.safe then 2 else 0) + (if degraded s then 4 else 0) +
    8 * s.sec.level.toNat
  ([0x41, 0x54, 0x54, 0x52] : List Byte) ++ leBytes 2 1 ++ leBytes 2 l.length ++ leBytes 2 s.part.member.deviceId ++
  leBytes 1 s.part.pavStep.toNat ++ leBytes 1 flags ++ leBytes 4 (fwVer s).toNat ++ leBytes 8 s.belv.tb ++ leBytes 4 leaf ++
  leBytes 4 0 ++ fit nonce 48 ++ fit (running s).fwHash 48 ++ fit (running s).ucHash 48 ++ configDigest s ++
  ((List.range 16).flatMap fun d => leBytes 1 (if d < s.part.member.dies then (dieStepping s d).toNat else 0)) ++
  keyBytes s ++ leBytes 2 (onlineMask s).toNat ++ leBytes 8 0 ++
  l.flatMap fun k =>
    let x := slotAt s k
    leBytes 1 k ++ leBytes 1 x.st.code ++ leBytes 2 0 ++ leBytes 4 x.man.id.toNat ++ leBytes 4 x.man.version.toNat ++
    leBytes 4 x.epoch.toNat ++ fit x.digest 48

/-- Whether an activation is still to be applied although its T has come: a report waits for it (R302, R396; DEDUCED, log 20). -/
def activationDue (s : State) : Bool :=
  s.slots.any fun e => e.2.st == .activating && match e.2.prepared with
    | some p => decide (max e.2.target (p + 2000) ≤ s.belv.tb)
    | none => false

/-- ATTEST: a leaf is reserved, and the report is signed and written; with no leaf left it completes with
ATTEST_EXHAUSTED (R396, R398). Requests are served one at a time, in dispatch order. -/
def attestOp (s : State) (id : Nat) : State :=
  match takeReq s id 0x30 with
  | none => s
  | some q =>
    let waits := s.reqs.any fun e => match e.2 with
      | some x => decide (e.1 < id) && x.desc.opc == 0x30 && x.phase == .dispatched
      | none => false
    if waits || activationDue s then s
    else
      let s := modReq s id fun q => { q with ran := true }
      let leaf := s.nv.lmsNext
      if 1048576 ≤ leaf then finishReq (setStatus s id 0x70) id
      else
        let s := { s with nv := { s.nv with lmsNext := leaf + 1 } }
        let s := if leaf = 983040 then ev s pgSec0 3 0 else s
        let body := reportBody s leaf (bytesAt s.hostMem q.desc.auxAddr.toNat 48)
        let rep := body ++ fit (Config.ecdsaSign s.free identityKey body) 96 ++ identitySign leaf body
        let s := { count s pgSec0 0x58 1 with free := s.free + 1 }
        finishReq (outPut s id q.desc.outAddr.toNat rep) id

/-! ### Commands (R399, R400, R406) -/

/-- A command ends: 1 accepted, or 2 refused with its reason. -/
def cmdEnd (s : State) (reason : Nat) : State :=
  { s with sec := { s.sec with result := if reason = 0 then 1 else 2, reason := BitVec.ofNat 8 reason } }

/-- The bytes of the command that SEC_CMD_ADDR and SEC_CMD_LEN name, as far as the host region reaches, or, with no package memory, the
window onto the ingest SRAM (R400, R415; a command that reaches beyond is cut there and so fails check 1: DESIGN CHOICE, log 20). -/
def cmdBytes (s : State) : List Byte :=
  let a := rget64 s pgSec1 0x40
  devBytes s a (min (rget s pgSec1 0x48).toNat (hostTop s - a))

/-- A signed command as an object; `level` is what a token must carry for its kind (R399). -/
def cmdObject (s : State) (kinds : List Nat) (l : List Byte) : Signed :=
  let kind := leAt l 4 2
  let n := leAt l 6 2
  let bind := slice l 8 48
  let me := Config.sha384 identityEcdsa
  let token := kind == 4 || kind == 5
  { kind := kind, body := l.take n, sig := slice l n sigBytes,
    form := slice l 0 4 == [0x43, 0x4D, 0x44, 0x53] && kinds.contains kind && decide (64 ≤ n ∧ n ≤ 1024 ∧ n % 64 = 0) &&
      l.length == n + sigBytes && (!token || leAt l 0x58 1 == kind - 3),
    arg := leAt l 0x38 1, svnOk := true,
    bindOk := bind == me || (!token && zeros bind),
    chalOk := !token || s.sec.chal == some (slice l 0x38 32) }

/-- A signed command is verified, and takes effect where its acceptance condition holds (R400). -/
def cmdRun (s : State) (kinds : List Nat) (accept : Signed → Bool) (effect : State → Signed → State) : State :=
  let x := cmdObject s kinds (cmdBytes s)
  let r := verify s x
  if r.1 ≠ 0 then cmdEnd r.2 r.1
  else if accept x then cmdEnd (effect r.2 x) 0
  else cmdEnd r.2 0x10

/-- FW_STAGE: both components verify, and the slot named is not the running image's (R400, R414). -/
def fwStageOp (s : State) (arg : Nat) : State :=
  let l := cmdBytes s
  let r := verifyImage s l
  let s := r.2
  if r.1 ≠ 0 then cmdEnd s r.1
  else if 1 < arg ∨ (s.boot.safe = false ∧ (arg == 1) = s.boot.imageB) then cmdEnd s 0x10
  else
    let x := Image.ofBytes l
    let nv := if arg = 0 then { s.nv with imageA := x } else { s.nv with imageB := x }
    cmdEnd { s with nv := { nv with prefer := arg == 1, failRun := 0 } } 0

/-- ROLLBACK_COMMIT raises a counter to what runs (R400). -/
def rollbackOp (s : State) (arg : Nat) : State :=
  if s.boot.safe ∨ s.boot.ready = false ∨ 2 < arg then cmdEnd s 0x10
  else
    let svns := (attestSlots s).map fun k => (slotAt s k).man.version.toNat / 2 ^ 24
    let o := s.otp
    let o := if arg = 0 then { o with fw := max o.fw (running s).fwSvn }
      else if arg = 1 then { o with ucode := max o.ucode (running s).ucSvn }
      else { o with flacon := max o.flacon (svns.min?.getD 0) }
    cmdEnd { s with otp := o } 0

/-- OWNER_ENROL, OWNER_REVOKE and ODFEN_REVOKE change one key slot (R388, R400). -/
def ownerEnrolOp (s : State) : State :=
  cmdRun s [6] (fun x => decide (x.arg ≤ 3) && (keyAt s (x.arg + 2)).st == 0 && zeros (slice x.body 0x39 3)) fun s x =>
    setKey s (x.arg + 2) { st := 1, hash := Config.sha384 (slice x.body 0x3C 156) }
def ownerRevokeOp (s : State) : State :=
  cmdRun s [7] (fun x => decide (x.arg ≤ 3) && (activeOwners s).contains (x.arg + 2) && decide (1 < (activeOwners s).length))
    fun s x => setKey s (x.arg + 2) { keyAt s (x.arg + 2) with st := 3 }
def odfenRevokeOp (s : State) : State :=
  cmdRun s [8] (fun x => decide (x.arg ≤ 1) && (keyAt s (1 - x.arg)).st == 1) fun s x =>
    setKey s x.arg { keyAt s x.arg with st := 3 }

/-- DBG_UNLOCK: an accepted token raises the debug level and consumes the challenge (R404). -/
def dbgUnlockOp (s : State) : State :=
  cmdRun s [4, 5] (fun _ => true) fun s x =>
    let n := max s.sec.level.toNat (x.kind - 3)
    ev { s with sec := { s.sec with level := BitVec.ofNat 2 n, chal := none } } pgSec0 2 n

/-- The command of an OP runs with its ARG (R400). -/
def cmdRunOp (s : State) (op arg : Nat) : State :=
  if op = 1 then fwStageOp s arg
  else if op = 2 then rollbackOp s arg
  else if op = 3 then ownerEnrolOp s
  else if op = 4 then ownerRevokeOp s
  else if op = 5 then odfenRevokeOp s
  else if op = 6 then dbgUnlockOp s
  else s

/-- A write of SEC_CMD_GO: the command named runs, and SEC_CMD_STAT.BUSY reads 1 until the next nanosecond (DESIGN CHOICE, log 20); a write
while it does is ignored and sets CMD_BUSY, and other values of OP are ignored (R400, R406). -/
def cmdGo (s : State) (w : W32) : State :=
  let arg := fld w 15 8
  let op := fld w 3 0
  if op = 0 ∨ 6 < op then s
  else if s.sec.busy then ev s pgSec0 1 0
  else cmdRunOp { s with sec := { s.sec with busy := true } } op arg

/-! ### Debug (R402, R403, R406, R408) -/

/-- A new challenge is drawn. -/
def newChallenge (s : State) : State :=
  { s with sec := { s.sec with chal := some (fit (Config.random32 s.free) 32) }, free := s.free + 1 }

/-- The debug level returns to 0, and halted vector units resume. -/
def relockAll (s : State) : State :=
  let s := { s with sec := { s.sec with level := 0, chal := none } }
  (List.range 256).foldl (fun s c => if halted s c then rset s (pgCdbg c) 0x40 0 else s) s

/-- A write of SEC_DBG_CTRL (R406). -/
def dbgCtrl (s : State) (w : W32) : State :=
  let s := if bit w 0 then newChallenge s else s
  if bit w 1 then relockAll s else s

/-- A write of CDBG_CTRL while debug is open: HALT, and STEP while halted (R408). -/
def cdbgCtrl (s : State) (c : Nat) (w : W32) : State :=
  let s := if bit w 1 ∧ halted s c ∧ (coreAt s c).vrun.isSome then modCore s c fun k => { k with step := true } else s
  rset s (pgCdbg c) 0x40 (w &&& 1)

/-- The word that CDBG_SEL selects (R164, R408). -/
def cdbgWord (s : State) (c : Nat) : W32 :=
  let sel := rget s (pgCdbg c) 0x48
  let i := fld sel 22 0
  let k := coreAt s c
  if fld sel 31 30 = 0 then (if i < 2048 then tget 0 k.v i else 0)
  else if fld sel 31 30 = 1 then
    if i < 16 then k.scalar i
    else if i < 32 then (if i % 2 = 0 then lo32 (k.mask ((i - 16) / 2)).toNat else hi32 (k.mask ((i - 16) / 2)).toNat)
    else 0
  else if fld sel 31 30 = 2 then BitVec.ofNat 32 (numAt s.coreMem (coreKey c 0 + 4 * i % 2 ^ 23) 4)
  else 0

/-- A read of CDBG_DATA advances INDEX. -/
def cdbgAdvance (s : State) (c : Nat) : State :=
  let sel := rget s (pgCdbg c) 0x48
  rset s (pgCdbg c) 0x48 (ins sel 22 0 (fld sel 22 0 + 1))

def execAttest (req : Nat) (s : State) : Host.Outcome State Fault Refusal := done (attestOp s req)

end Sys2Proof.Machine
end

