-- ==== Sys2Proof/Machine/Manifest.lean ====
section
/-! DEFINITION. Manifests: reading the flacon header and its tables (R286 to R289), and the checks of FLACON_BEGIN that look at
the manifest alone (R166, R293 checks 1 to 6). -/

namespace Sys2Proof.Machine

open Sys2Proof

/-! ### Reading (R286 to R289) -/

/-- The offset, count and entry size of a table of the directory. -/
def dirAt (b : List Byte) (t : Nat) : Nat × Nat × Nat :=
  (leAt b (0x40 + 16 * t) 4, leAt b (0x44 + 16 * t) 4, leAt b (0x48 + 16 * t) 4)

/-- The entry size of each table (R287). -/
def entrySizes : List Nat := [16, 64, 16, 16, 8, 64, 40, 16, 16, 8]

/-- The entries of a table, as bytes. -/
def tableAt (b : List Byte) (t : Nat) : List (List Byte) :=
  let (o, n, z) := dirAt b t
  (List.range n).map fun i => slice b (o + z * i) z

def readTask (e : List Byte) : TaskEnt := ⟨leAt e 0 2, leAt e 2 2, leAt e 4 4, leAt e 8 4⟩

def readLayer (e : List Byte) : LayerRec :=
  { task := leAt e 0 2, layer := leAt e 2 2, die := leAt e 4 1, tier := leAt e 5 1, inFmt := leAt e 6 1, outEb := leAt e 7 1,
    k := leAt e 8 4, n := leAt e 0xC 4, mMax := leAt e 0x10 4, mFixed := leAt e 0x14 4, rg := leAt e 0x18 1,
    satPol := leAt e 0x19 1, accClass := leAt e 0x1A 1, loop := leAt e 0x1B 1, mg := leAt e 0x1C 1, dbuf := leAt e 0x1D 1,
    gridM := leAt e 0x1E 1, gridPos := leAt e 0x1F 1, ctrScope := leAt e 0x20 1, claimN := leAt e 0x21 1, sets := leAt e 0x22 1,
    source := leAt e 0x23 1, inRing := leAt e 0x24 4, inSlots := leAt e 0x28 2, drainProg := leAt e 0x2A 2,
    endProg := leAt e 0x2C 2, coreFirst := leAt e 0x30 4, coreCount := leAt e 0x34 2, plateFirst := leAt e 0x38 4,
    plateCount := leAt e 0x3C 2, consFirst := leAt e 0x3E 2, consCount := leAt e 0x36 1 }

def readCore (e : List Byte) : CoreEnt := ⟨leAt e 0 1, leAt e 1 1, leAt e 4 4, leAt e 8 4⟩
def readPlate (e : List Byte) : PlateEnt := ⟨leAt e 0 1, leAt e 1 1, leAt e 2 2, leAt e 4 2, leAt e 6 2, leAt e 8 4⟩
def readCons (e : List Byte) : ConsEnt := ⟨leAt e 0 1, leAt e 1 1, leAt e 2 1, leAt e 4 2, leAt e 6 2⟩
def readShard (e : List Byte) : ShardEnt :=
  ⟨leAt e 0 4, leAt e 4 1, BitVec.ofNat 16 (leAt e 6 2), leAt e 8 2, leAt e 0xC 4, slice e 0x10 48⟩
def readQSlot (e : List Byte) : QSlotEnt :=
  ⟨leAt e 0 1, leAt e 1 1, leAt e 2 2, leAt e 4 1, leAt e 5 1, leAt e 6 1, leAt e 7 1, leAt e 8 1, leAt e 0xA 2, leAt e 0xC 4,
   leAt e 0x10 4, leAt e 0x14 4, leAt e 0x18 4, leAt e 0x1C 4, leAt e 0x20 4⟩
/-- A program with the instructions that lie at its OFFSET in the manifest; one that runs past the manifest's end reads as a
single reserved word, which check 6 refuses. -/
def readProg (b e : List Byte) : ProgEnt :=
  let o := leAt e 4 4
  let n := leAt e 8 4
  ⟨leAt e 0 1, leAt e 1 1, leAt e 2 2,
    if b.length < o + 8 * n then [BitVec.ofNat 64 (2 ^ 64 - 1)]
    else (List.range n).map fun i => BitVec.ofNat 64 (leAt b (o + 8 * i) 8)⟩
def readBind (e : List Byte) : BindEnt :=
  ⟨leAt e 0 1, leAt e 1 1, leAt e 2 1, leAt e 3 1, leAt e 4 2, leAt e 6 2, leAt e 8 4, leAt e 0xC 2, leAt e 0xE 2⟩

/-- The manifest that some bytes spell. -/
def readManifest (b : List Byte) : Manifest :=
  { format := leAt b 4 2, flags := leAt b 6 2, target := leAt b 8 2, id := BitVec.ofNat 32 (leAt b 0xC 4),
    version := BitVec.ofNat 32 (leAt b 0x10 4), manBytes := leAt b 0x14 4, sigBytes := leAt b 0x18 4,
    baseId := BitVec.ofNat 32 (leAt b 0x20 4), baseVersion := BitVec.ofNat 32 (leAt b 0x24 4), shardCount := leAt b 0x1C 4,
    slowBytes := leAt b 0x28 8,
    tasks := (tableAt b 0).map readTask, layers := (tableAt b 1).map readLayer, cores := (tableAt b 2).map readCore,
    plates := (tableAt b 3).map readPlate, cons := (tableAt b 4).map readCons, shards := (tableAt b 5).map readShard,
    qslots := (tableAt b 6).map readQSlot, progs := (tableAt b 7).map (readProg b), binds := (tableAt b 8).map readBind,
    caps := (tableAt b 9).map fun e => (leAt e 0 4, leAt e 4 4) }

def Manifest.update (m : Manifest) : Bool := m.flags % 2 == 1
def Manifest.inPlace (m : Manifest) : Bool := m.flags / 2 % 2 == 1

/-! ### Check 1: the form of the header -/

/-- Whether the directory names tables of the right entry sizes that lie within the manifest (R287). -/
def dirOk (b : List Byte) : Bool :=
  (entrySizes.zipIdx.all fun e =>
    let (o, n, z) := dirAt b e.2
    z == e.1 && decide (o + n * z ≤ b.length) && zeros (slice b (0x4C + 16 * e.2) 4)) &&
  (leAt b 4 2 != 1 || (dirAt b 8).2.1 == 0) && (dirAt b 9).2.1 == 16

/-- Check 1 over the block's first bytes, given PARAM (R293); that a reserved byte of the header that is not 0 fails this check is the
model's choice, since the manual asks for 0 and names no check (DESIGN CHOICE, log 28). -/
def headerOk (h : List Byte) (param : Nat) : Bool :=
  slice h 0 4 == [0x46, 0x4C, 0x43, 0x4E] && decide (leAt h 4 2 = 1 ∨ leAt h 4 2 = 2) &&
  decide (0x100 ≤ leAt h 0x14 4 ∧ leAt h 0x14 4 ≤ 96 * 2 ^ 20) && leAt h 0x14 4 % 64 == 0 &&
  zeros (slice h 0x0A 2) && zeros (slice h 0x30 16) && zeros (slice h 0xE0 32) &&
  param == leAt h 0x14 4 + leAt h 0x18 4

/-- The manifest as a signed object (R391 to R393). -/
def manifestObject (s : State) (man sig : List Byte) : Signed :=
  let svn := leAt man 0x13 1
  { kind := 3, body := man, sig := sig, form := decide (svn ≤ 64), arg := 0, svnOk := decide (s.otp.flacon ≤ svn), bindOk := true,
    chalOk := true }

/-! ### Check 5: the tables -/

/-- The plates that a manifest places on dies: die, core, engine, position and shard. -/
def places (m : Manifest) : List (Nat × Nat × Nat × Nat × Nat) :=
  (m.layers.flatMap fun l => if l.tier = 0 then (plateEnts m l).map fun p => (l.die, p.core, p.engine, p.inShard, p.shard) else []).dedup

/-- The places of one shard. -/
def shardPlaces (m : Manifest) (shard : Nat) : List (Nat × Nat × Nat × Nat) :=
  ((places m).filter fun p => p.2.2.2.2 == shard).map fun p => (p.1, p.2.1, p.2.2.1, p.2.2.2.1)

/-- Whether two lists have the same members. -/
def sameMembers {α : Type} [DecidableEq α] (a b : List α) : Bool := (a.all fun x => b.contains x) && b.all fun x => a.contains x

def taskOk (m : Manifest) (t : TaskEnt) : Bool :=
  let ls := m.layers.filter fun l => l.task == t.task
  (ls.map fun l => l.layer).dedup.length == t.layers && ls.all fun l => l.mMax == t.mMax

/-- A layer record's fields lie in their ranges (R186, R199), its codes are not reserved, and its sub-tables exist. -/
def layerOk (s : State) (m : Manifest) (l : LayerRec) : Bool :=
  let dims := decide (1 ≤ l.k ∧ l.k ≤ 65536 ∧ 1 ≤ l.n ∧ l.n ≤ 65536 ∧ 1 ≤ l.mMax ∧ l.mMax ≤ 1048576 ∧ l.mFixed ≤ l.mMax)
  let cons := decide (1 ≤ l.consCount ∧ l.consCount ≤ 16 ∧ l.consFirst + l.consCount ≤ m.cons.length)
  dims && cons && m.tasks.any (fun t => t.task == l.task) &&
  ((l.tier == 1 && decide (l.die < s.part.member.dies ∨ l.die = 0xFF)) ||
    (l.tier == 0 && decide (l.die < s.part.member.dies ∧ l.inFmt ≤ 3 ∧ l.outEb ≤ 3 ∧ l.rg ≤ 8 ∧ l.satPol ≤ 2 ∧
        1 ≤ l.accClass ∧ l.accClass ≤ 7 ∧ l.loop ≤ 2 ∧ l.ctrScope ≤ 2 ∧ l.dbuf ≤ 1 ∧ 1 ≤ l.gridM ∧ l.gridM ≤ 16 ∧ l.gridPos < l.gridM ∧
        l.coreFirst + l.coreCount ≤ m.cores.length ∧ l.plateFirst + l.plateCount ≤ m.plates.length) &&
      !(l.ctrScope == 2 && decide (1 < l.gridM)) && !rangesBad m l && !platesBad m l))

/-- The record in the manifest that a consumer entry names. -/
def consTarget (m : Manifest) (e : ConsEnt) : Option LayerRec :=
  m.layers.find? fun l => l.task == e.task && l.layer == e.layer && (l.die == e.die || (e.die == 0xFF && l.tier == 1))

/-- The element size that a plate layer's consumers of plates want is its own output's (R193). -/
def consOk (s : State) (m : Manifest) (l : LayerRec) : Bool :=
  (consEnts m l).all fun e =>
    decide (e.kind ≤ 1) &&
    (e.kind == 1 || (decide (e.die < s.part.member.dies ∨ e.die = 0xFF) &&
      match consTarget m e with
      | some k => k.tier == 1 || l.tier == 1 || l.outHalf == k.inHalf
      | none => true))

/-- No slot with COL scales quantises a tensor that feeds engines (R173). -/
def colOk (m : Manifest) (l : LayerRec) : Bool :=
  l.tier == 1 ||
  !((consEnts m l).any fun e => e.kind == 0 && (match consTarget m e with | some k => k.tier == 0 | none => false)) ||
  (layerCores m l).all fun c => (usedSlots m l c).all fun q => q.gran != 1

def plateOk (m : Manifest) (p : PlateEnt) : Bool :=
  decide (p.core < 16 ∧ p.engine < 512 ∧ p.shard < m.shards.length ∧ p.inShard < (shardEnt m p.shard).plates)

/-- A shard of KIND 2 has the digest and the placement of the base's shard that it names. -/
def inheritOk (m : Manifest) (base : Option Manifest) (e : ShardEnt) (i : Nat) : Bool :=
  match base with
  | none => false
  | some b =>
    decide (e.ref < b.shards.length) &&
    (let o := shardEnt b e.ref
     o.digest == e.digest && o.dies == e.dies && o.plates == e.plates && sameMembers (shardPlaces m i) (shardPlaces b e.ref))

def shardOk (s : State) (m : Manifest) (base : Option Manifest) (e : ShardEnt) (i : Nat) : Bool :=
  let here := e.dies &&& presentMask s == e.dies
  if e.kind = 0 then
    here && decide (1 ≤ e.plates ∧ e.plates ≤ 256) && e.bytes == 4096 * e.plates && e.ref == 0 &&
    (shardPlaces m i).all fun p => e.dies.getLsbD p.1
  else if e.kind = 1 then
    here && e.plates == 0 && decide (e.bytes ≤ 2 ^ 20 ∧ e.ref * 4096 + e.bytes ≤ m.slowBytes)
  else e.kind == 2 && here && decide (1 ≤ e.plates ∧ e.plates ≤ 256) && inheritOk m base e i

def qslotOk (s : State) (q : QSlotEnt) : Bool :=
  decide (q.die < s.part.member.dies ∧ q.core < 16 ∧ q.slot < 1024) &&
  ([0, 1, 2, 3, 8, 9] : List Nat).contains q.fmt &&
  decide (q.gran ≤ 2 ∧ 1 ≤ q.depth ∧ q.depth ≤ 16 ∧ q.qsTol ≤ 7 ∧ q.policy ≤ 1 ∧ q.cols % 64 = 0 ∧ q.cols ≤ 65536)

def bindOk (s : State) (m : Manifest) (b : BindEnt) : Bool :=
  decide (b.stream < 32 ∧ b.die < s.part.member.dies ∧ b.source < 16 ∧ 1 ≤ b.spb ∧ b.spb ≤ 16) &&
  m.layers.any fun l => l.task == b.task && l.layer == b.layer && l.die == b.die

/-- CAPACITY equals what PLATES and PROGRAMS give for each die. -/
def capsOk (m : Manifest) : Bool :=
  let ps := places m
  m.caps.zipIdx.all fun e =>
    (ps.filter fun p => p.1 == e.2).length == e.1.1 &&
    ((m.progs.filter fun p => p.die == e.2).map fun p => p.code.length).sum == e.1.2

/-- Whether every table entry is valid (R293, check 5). -/
def tablesOk (s : State) (m : Manifest) (base : Option Manifest) : Bool :=
  decide (1 ≤ m.shards.length ∧ m.shards.length ≤ 262144) && m.shardCount == m.shards.length && m.slowBytes % 4096 == 0 && decide (m.tasks.length ≤ 65535) &&
  m.tasks.all (taskOk m) && m.layers.all (fun l => layerOk s m l && consOk s m l && colOk m l) &&
  m.cores.all (fun c => decide (c.core < 16)) && m.plates.all (plateOk m) &&
  (m.shards.zipIdx.all fun e => shardOk s m base e.1 e.2) && m.qslots.all (qslotOk s) && m.binds.all (bindOk s m) &&
  m.progs.all (fun p => decide (p.die < s.part.member.dies ∧ p.core < 16)) && capsOk m

/-! ### Check 6: the programs (R166, R167) -/

def fmtOk (f : Nat) : Bool := decide (f ≤ 5 ∨ (8 ≤ f ∧ f ≤ 0xC))

/-- Whether an instruction has no reserved operation or format, and a combination valid for its operation. -/
def instrOk (w : W64) : Bool :=
  let o := vOp w
  let f := vFields w
  let dt := f.dt.toNat
  let int := decide (dt = 2 ∨ dt = 4 ∨ dt = 5)
  let arith := int || dt == 0xC
  fmtOk dt &&
  (if o = 0x00 ∨ o = 0x01 ∨ o = 0x02 ∨ o = 0x03 then true
   else if o = 0x05 then dt == 5
   else if o = 0x13 then decide (dt = 4 ∨ dt = 5 ∨ dt = 0xC)
   else if 0x10 ≤ o ∧ o ≤ 0x17 then arith
   else if o = 0x18 then dt == 2
   else if o = 0x19 then dt == 0xC
   else if 0x20 ≤ o ∧ o ≤ 0x25 then int
   else if o = 0x28 then arith && decide (f.imm.toNat % 8 ≤ 5)
   else if o = 0x29 ∨ o = 0x3B ∨ o = 0x3C ∨ o = 0x38 ∨ o = 0x39 then decide (dt = 5 ∨ dt = 0xC)
   else if (0x30 ≤ o ∧ o ≤ 0x36) ∨ o = 0x3A ∨ o = 0x41 then dt == 0xC
   else if o = 0x40 then fmtOk (f.imm.toNat % 16)
   else decide (o = 0x42 ∨ o = 0x43 ∨ o = 0x50 ∨ o = 0x51 ∨ o = 0x52 ∨ o = 0x5F))

def progsOk (m : Manifest) : Bool := m.progs.all fun p => p.code.all instrOk

end Sys2Proof.Machine
end

