-- ==== Sys2Proof/Machine/Flacon.lean ====
section
/-! DEFINITION. Flacon sessions: opening (R292 to R295), delivering shards (R296 to R299), activation and epochs (R300 to
R304), retiring and freeing (R305 to R309), resets (R310), and the FLC registers (R311 to R313). -/

namespace Sys2Proof.Machine

open Sys2Proof

def modSlot (s : State) (k : Nat) (f : Slot → Slot) : State := putSlot s k (f (slotAt s k))

/-- The slots that are not EMPTY. -/
def usedSlotNos (s : State) : List Nat := (keysOf s.slots).filter fun k => (slotAt s k).st != .empty

/-- The slot LOADING or ACTIVATING, if any (R292). -/
def sessionSlot (s : State) : Option Nat :=
  (keysOf s.slots).find? fun k => (slotAt s k).st == .loading || (slotAt s k).st == .activating

/-- The requests pinned to a slot's epoch that have not completed (R307). -/
def slotInflight (s : State) (k : Nat) : Nat :=
  (s.reqs.filter fun e => match e.2 with
    | some q => q.slot == k && q.desc.opc == 1 && q.phase != .finished
    | none => false).length

/-- The Pavilion handles FLACON_BEGIN, ACTIVATE, RETIRE and ABORT one at a time, in dispatch order (R292). -/
def flcFirst (s : State) (id : Nat) : Bool :=
  s.reqs.all fun e => match e.2 with
    | some q => !(decide (e.1 < id) && q.phase == .dispatched && ([0x10, 0x12, 0x13, 0x14] : List Nat).contains q.desc.opc.toNat)
    | none => true

/-- A request that went on ends with a status. -/
def endReq (s : State) (id code : Nat) : State :=
  let s := modReq s id fun q => { q with ran := true }
  finishReq (if code = 0 then s else setStatus s id code) id

/-- Bytes at AUX_ADDR, in host or package memory as FLAGS[2] selects; none where package memory has lost them. -/
def auxBytes (s : State) (d : Desc) (off n : Nat) : Option (List Byte) :=
  let a := d.auxAddr.toNat + off
  if d.auxDev then (if poisoned s a n then none else some (bytesAt s.pkgMem a n)) else some (bytesAt s.hostMem a n)

/-! ### Opening a session (R293 to R295) -/

/-- The engines on which a manifest places plates of KIND 0 shards, each with their number. -/
def engineNeeds (m : Manifest) : List (Nat × Nat) :=
  let es := ((places m).filter fun p => (shardEnt m p.2.2.2.2).kind == 0).map fun p => (p.1 * 16 + p.2.1) * 512 + p.2.2.1
  es.dedup.map fun e => (e, (es.filter fun x => x == e).length)

/-- The base's shards that an update inherits. -/
def inherited (m : Manifest) : List Nat := (m.shards.filter fun e => e.kind == 2).map fun e => e.ref

/-- Plates of an engine that check 8 counts as free: those free, and under IN_PLACE the base's for shards not inherited. -/
def freeFor (s : State) (m : Manifest) (base e : Nat) (retiredToo : Bool) : Nat :=
  if (dieAt s (engDie e)).online = false then 0
  else
    let b := if m.inPlace ∧ base ≠ 0 then
        (s.plates.filter fun x => x.1 / 512 == e && x.2.owner == base && x.2.st != .free && x.2.st != .incomplete &&
          x.2.st != .bad && !(inherited m).contains x.2.shard &&
          (retiredToo || !retired s (e * 8 + x.1 % 512 / 64))).length
      else 0
    (freePlates s e retiredToo).length + b

/-- The slow-tier pool, and the first place in it that has room for an area (R326). -/
def slowPool (s : State) : Nat := 0xEF8000000 - s.nv.slowSize.toNat * 2 ^ 30
def slowAreas (s : State) : List (Nat × Nat) :=
  ((usedSlotNos s).map fun k => ((slotAt s k).slowAt, (slotAt s k).man.slowBytes)).filter fun a => a.2 != 0
def firstGap (lo hi n : Nat) (used : List (Nat × Nat)) : Option Nat :=
  ((lo :: used.map fun a => a.1 + a.2).insertionSort (· ≤ ·)).find? fun c =>
    decide (lo ≤ c ∧ c + n ≤ hi) && used.all fun a => decide (c + n ≤ a.1 ∨ a.1 + a.2 ≤ c) || n == 0

/-- Instructions and quantiser slots that a manifest loads on a core. -/
def progLoad (m : Manifest) (c : Nat) : Nat := ((m.progs.filter fun p => p.die * 16 + p.core == c).map fun p => p.code.length).sum
def qslotLoad (m : Manifest) (c : Nat) : Nat := (m.qslots.filter fun q => q.die * 16 + q.core == c).length

/-- Counters that a manifest needs of a die, and of the Pavilion (R202, R203). -/
def dieCtrs (m : Manifest) (d : Nat) : Nat := (m.layers.filter fun l => l.tier == 0 && l.ctrScope == 1 && l.die == d).length
def pavCtrs (m : Manifest) : List (Nat × Nat) :=
  ((m.layers.filter fun l => l.tier == 0 && l.ctrScope == 2).map fun l => (l.task, l.layer)).dedup

/-- A FLACON_BEGIN is refused (R293, R294, R312). -/
def refuseBegin (s : State) (id k status reason : Nat) (short : List (Nat × Nat)) (mib : Nat) : State :=
  let s := rset s pgFlc0 0x4C (put 31 24 status ||| put 23 16 reason ||| put 3 0 k)
  let s := (List.range 16).foldl (fun s d =>
    rset s pgFlc0 (0x60 + 4 * d) (put 22 0 (((short.find? fun e => e.1 == d).map fun e => e.2).getD 0))) s
  let s := rset s pgFlc0 0x58 (BitVec.ofNat 32 mib)
  endReq (ev (count s pgFlc0 0xAC 1) pgFlc0 2 k) id status

/-- Checks 8 to 12: the status, reason, shortfalls by die and in MiB of the first that fails (R293, R294). -/
def resourceCheck (s : State) (m : Manifest) (base : Nat) : Option (Nat × Nat × List (Nat × Nat) × Nat) :=
  let needs := engineNeeds m
  let lack := fun (r : Bool) => needs.filter fun e => decide (freeFor s m base e.1 r < e.2)
  let all := fun (f : Manifest → Nat) => ((usedSlotNos s).map fun k => f (manOf s k)).sum + f m
  let cores := List.range 256
  let pool := slowPool s
  let taken := ((slowAreas s).map fun a => a.2).sum
  if (lack false).isEmpty = false then
    let short := (List.range 16).map fun d =>
      (d, (((lack false).filter fun e => engDie e.1 == d).map fun e => e.2 - freeFor s m base e.1 false).sum)
    if (lack true).isEmpty then some (0x50, 0x28, short, 0) else some (0x33, 0x21, short, 0)
  else if (firstGap pool 0xEF8000000 m.slowBytes (slowAreas s)).isNone then
    some (0x33, 0x22, [], ceilDiv (m.slowBytes + taken - (0xEF8000000 - pool)) (2 ^ 20))
  else if cores.any fun c => decide (32768 < all fun m => progLoad m c) then some (0x33, 0x23, [], 0)
  else if cores.any fun c => decide (1024 < all fun m => qslotLoad m c) then some (0x33, 0x24, [], 0)
  else if (List.range 16).any (fun d => decide (64 < all fun m => dieCtrs m d)) || decide (256 < all fun m => (pavCtrs m).length) then
    some (0x33, 0x25, [], 0)
  else none

/-- The tasks of a base that use a shard which the update does not inherit (R308): a plate layer's shard that no KIND 2 entry names, or
the slow-tier weights of a layer, which no update inherits. -/
def replacedTasks (b : Slot) (m : Manifest) : List Nat :=
  b.tasks.filter fun t => b.man.layers.any fun l =>
    l.task == t && (l.tier == 1 || (plateEnts b.man l).any fun p => !(inherited m).contains p.shard)

/-- An accepted FLACON_BEGIN opens the session (R295, R308). -/
def openSession (s : State) (k base : Nat) (m : Manifest) (bytes : List Byte) : State :=
  let susp := if m.inPlace then replacedTasks (slotAt s base) m else []
  let s := { s with
    banks := tmap Bank.zero (fun b => { b with session := b.session.filter fun n => n != k }) s.banks
    suspended := (s.suspended ++ susp).dedup
    nv := { s.nv with suspended := (s.nv.suspended ++ susp).dedup } }
  putSlot s k { Slot.zero with
    st := .loading, man := m, digest := Config.sha384 bytes, base := base, suspends := !susp.isEmpty
    wear := s.banks.map (fun e => (e.1, e.2.wear))
    slowAt := (firstGap (slowPool s) 0xEF8000000 m.slowBytes (slowAreas s)).getD 0 }

/-- The ACTIVE slot that holds the base of an update. -/
def baseSlot (s : State) (m : Manifest) : Option Nat :=
  (keysOf s.slots).find? fun k => (slotAt s k).st == .active && (manOf s k).id == m.baseId && (manOf s k).version == m.baseVersion

/-- Check 4: UPDATE and IN_PLACE are consistent with FORMAT, and an update's base is ACTIVE (R286, R293). -/
def kindOk (s : State) (m : Manifest) : Bool :=
  decide (m.flags < 4) && (m.format != 1 || m.flags == 0) && (m.update || !m.inPlace) &&
  (if m.update then (baseSlot s m).isSome else m.baseId == 0 && m.baseVersion == 0)

/-- FLACON_BEGIN (R293). -/
def flaconBeginOp (s : State) (id : Nat) : State :=
  match takeReq s id 0x10 with
  | none => s
  | some q =>
    let k := q.desc.flcSlot
    if flcFirst s id = false then s
    else if k = 0 then refuseReq s id 0x21 0
    else match auxBytes s q.desc 0 q.desc.param.toNat with
      | none => endReq s id 0x7F
      | some blk =>
        let n := leAt blk 0x14 4
        let man := blk.take n
        let no := fun (s : State) st r => refuseBegin s id k st r [] 0
        if headerOk blk q.desc.param.toNat = false ∨ dirOk man = false then no s 0x34 0x01
        else
          let v := verify s (manifestObject s man (blk.drop n))
          let s := v.2
          let m := readManifest man
          let base := (if m.update then baseSlot s m else none).getD 0
          if v.1 ≠ 0 then no s 0x32 0x10
          else if m.target ≠ s.part.member.deviceId then no s 0x34 0x02
          else if kindOk s m = false then no s 0x34 0x03
          else if tablesOk s m (if base = 0 then none else some (manOf s base)) = false then no s 0x34 0x04
          else if progsOk m = false then no s 0x34 0x05
          else if (slotAt s k).st ≠ .empty ∨ (sessionSlot s).isSome then no s 0x33 0x20
          else match resourceCheck s m base with
            | some (st, r, short, mib) => refuseBegin s id k st r short mib
            | none => endReq (openSession s k base m man) id 0

/-! ### Shards (R296 to R299, R149, R327) -/

/-- Shards of a slot that are complete (R299). -/
def shardDone (s : State) (k i : Nat) : Bool :=
  let e := shardEnt (manOf s k) i
  if e.kind = 0 then (bitsOf e.dies).all fun d => replicaDone s d k i
  else if e.kind = 1 then (tget ShardSt.zero (slotAt s k).shards i).stored else true
def doneShards (s : State) (k : Nat) : Nat := ((List.range (manOf s k).shards.length).filter (shardDone s k)).length

/-- A payload's codes for the plate at a position (R290). -/
def shardCodes (l : List Byte) (i : Nat) : List Int := (slice l (4096 * i) 4096).map BitVec.toInt

/-- A SHARD whose digest failed is recorded (R297, R298). -/
def badShard (s : State) (i : Nat) (dies : BitVec 16) : State :=
  rset (rset s pgFlc0 0x50 (put 17 0 i)) pgFlc0 0x54 (put 15 0 dies.toNat)

/-- SHARD: the payload is staged and its digest compared with the manifest's (R296, R297). -/
def shardOp (s : State) (id : Nat) : State :=
  match takeReq s id 0x11 with
  | none => s
  | some q =>
    let k := q.desc.flcSlot
    let x := slotAt s k
    let i := q.desc.param.toNat
    let e := shardEnt x.man i
    let repair := x.st == .active || x.st == .retiring
    let need := shardNeeds s k i
    if k = 0 ∨ x.st = .empty then refuseReq s id 0x21 0
    else if x.man.shardCount ≤ i ∨ e.kind = 2 then refuseReq s id 0x12 0x54
    else if shardRangeBad s q.desc then refuseRange s id q.ring
    else if repair ∧ e.kind = 0 ∧ need = 0 then endReq s id 0
    else if 64 ≤ s.staging.length then s
    else match auxBytes s q.desc 64 e.bytes with
      | none => endReq s id 0x7F
      | some data =>
        if Config.sha384 data ≠ e.digest then
          endReq (ev (count (badShard s i 0) pgFlc0 0xA4 1) pgFlc0 0 (i % 65536)) id 0x30
        else
          let s := count s pgFlc0 0xA0 1
          if e.kind = 1 then
            let s := pkgPut s (x.slowAt + e.ref * 4096) data
            let s := noteAreas (modShard s k i fun h => { h with stored := true }) k
            let s := modSlot s k fun x => { x with arrival := s.belv.tb, timedOut := false }
            endReq s id 0
          else if need = 0 then endReq s id 0
          else
            let g : Staging := { req := id, slot := k, shard := i, repair := repair, need := need, sent := false, wait := 0, bad := 0, data := data }
            modReq { s with staging := s.staging ++ [g] } id fun q => { q with phase := .running, ran := true }

/-- Shards in a die's load buffer: those on their way, and those whose plates are still to be written (R297). -/
def loadUse (s : State) (d : Nat) : Nat :=
  let a := (s.staging.filter fun g => g.sent && g.wait.getLsbD d).map fun g => (g.slot, g.shard)
  let b := (dieEngines s d).flatMap fun e =>
    ((e.2.jobs ++ (match e.2.prog with | some g => [g.job] | none => [])).filter fun j => j.tag % 2 == 0 && (!j.touch || j.tag != 0)).map
      fun j => (j.slot, j.shard)
  (a ++ b).dedup.length

/-- The staged shard goes out in one multicast to the dies that lack a verified replica by now, once every one of them is in service and
has room for it (R297, R376); where none lacks one, its SHARD is complete. -/
def shardSendOp (s : State) (id : Nat) : State :=
  match s.staging.find? fun g => g.req == id && !g.sent with
  | none => s
  | some g =>
    let need := shardNeeds s g.slot g.shard
    let dies := bitsOf need
    if need = 0 then endReq { s with staging := s.staging.filter fun x => x.req != id } id 0
    else if !asleep s && (dies.all fun d => decide (loadUse s d < 4) && dieUp s d) && mayTransfer s 16 dies then
      let lost := lostDests s 16 dies
      let s := sendXfer s 16 dies (some id) g.data.length
      if lost.isEmpty then
        { s with staging := modFirst (fun x => x == g) (fun x => { x with
          sent := true, need := need, wait := need
          repair := (slotAt s x.slot).st == .active || (slotAt s x.slot).st == .retiring }) s.staging }
      else failReq s id 0x7F
    else s

/-- The loader picks a plate for each place of a shard on a die, and queues its program (R139, R298); a place whose plate, or whose
queued program, stands from an earlier delivery keeps it (DESIGN CHOICE, log 42). The answer says whether every place found a plate. -/
def placeShard (s : State) (d k i : Nat) (data : List Byte) : State × Bool :=
  let queued := ((dieEngines s d).flatMap fun e => e.2.jobs).filter fun j => j.slot == k && j.shard == i && !j.touch
  let held := ((replicaPlates s d k i).map fun p => (plateAt s p).inShard) ++ queued.map fun j => j.inShard
  ((shardPlaces (manOf s k) i).filter fun p => p.1 == d && !held.contains p.2.2.2).foldl (fun (o : State × Bool) p =>
    let e := (p.1 * 16 + p.2.1) * 512 + p.2.2.1
    match pickPlate o.1 k e with
    | none => (o.1, false)
    | some pl => (queueProgram o.1 e
        { plate := pl, slot := k, shard := i, inShard := p.2.2.2, codes := shardCodes data p.2.2.2, touch := false, retry := false,
          refOnly := false, tag := 0 }, o.2)) (s, true)

/-- A die touches up every plate of a drifted replica with the delivered codes (R149). -/
def repairShard (s : State) (id d k i : Nat) (data : List Byte) : State :=
  (replicaPlates s d k i).foldl (fun s p =>
    let n := (plateAt s p).inShard
    queueTouch s (p / 512)
      { plate := p % 512, slot := k, shard := i, inShard := n, codes := shardCodes data n, touch := true, retry := false,
        refOnly := false, tag := 2 * id + 2 }) s

/-- A destination has kept or discarded its copy; the SHARD completes when every one has (R298). -/
def dieAnswered (s : State) (id d : Nat) (kept : Bool) : State :=
  match s.staging.find? fun g => g.req == id with
  | none => s
  | some g =>
    let m := 1#16 <<< d
    let g' := { g with wait := g.wait &&& ~~~m, bad := if kept then g.bad else g.bad ||| m }
    if g'.wait ≠ 0 then { s with staging := modFirst (fun x => x == g) (fun _ => g') s.staging }
    else
      let s := { s with staging := s.staging.filter fun x => x.req != id }
      if g'.bad = 0 then endReq s id 0 else endReq (badShard s g.shard g'.bad) id 0x30

/-- Whether packets of a SHARD are still on their way to a die (R317). -/
def shardComing (s : State) (id d : Nat) : Bool :=
  s.xfers.any fun x => (match x.2 with | some t => t.req == some id | none => false) && onWay s x.1 d

/-- A die has received a shard (R317): it checks the digest and the code range before it writes anything (R298). A die that already keeps the
replica takes no second one; where an engine has no free plate left, the replica is reported as R129 says, unless the plates of an
in-place base are still to become free, for which the shard waits in the load buffer (R308). -/
def shardReceiveOp (s : State) (id d : Nat) (data : List Byte) : State :=
  match s.staging.find? fun g => g.req == id && g.sent && g.wait.getLsbD d with
  | none => s
  | some g =>
    let e := shardEnt (manOf s g.slot) g.shard
    if dieUp s d = false ∨ shardComing s id d = true then s
    else if Config.sha384 data ≠ e.digest then dieAnswered (ev s pgFlc0 0 (g.shard % 65536)) id d false
    else if data.any fun b => decide (b.toInt < -63 ∨ 63 < b.toInt) then dieAnswered (ev s pgFlc0 4 (g.shard % 65536)) id d false
    else
      let kept := fun (s : State) =>
        let s := modShard s g.slot g.shard fun h => { h with kept := h.kept ||| (1#16 <<< d) }
        dieAnswered (modSlot s g.slot fun x => { x with arrival := s.belv.tb, timedOut := false }) id d true
      let x := slotAt s g.slot
      let r := placeShard s d g.slot g.shard data
      if g.repair then kept (repairShard s id d g.slot g.shard data)
      else if (tget ShardSt.zero x.shards g.shard).kept.getLsbD d then kept s
      else if r.2 then kept r.1
      else if x.man.inPlace ∧ x.drained = false then s
      else kept (programFail r.1 d g.slot g.shard)

/-! ### Activation (R300 to R303) -/

def flaconActivateOp (s : State) (id : Nat) : State :=
  match takeReq s id 0x12 with
  | none => s
  | some q =>
    let k := q.desc.flcSlot
    if flcFirst s id = false then s
    else if k = 0 ∨ (slotAt s k).st ≠ .loading then refuseReq s id 0x21 0
    else
      let s := modSlot s k fun x => { x with st := .activating, actReq := some id, target := q.desc.auxAddr.toNat,
                                             actAt := s.belv.tb, timedOut := false, prepared := none, judged := false }
      modReq s id fun q => { q with phase := .running, ran := true }

/-- FLC_CTRL.TIMEOUT has passed since the later of the ACTIVATE's dispatch and the last arrival of a shard (R300). -/
def activateTimeoutOp (s : State) (k : Nat) : State :=
  let x := slotAt s k
  if x.st = .activating ∧ x.prepared = none ∧ max x.actAt x.arrival + rfld s pgFlc0 0x40 15 0 * 1000000 ≤ s.belv.tb then
    putSlot s k { x with timedOut := true }
  else s

/-- Whether a plate of a slot is in progress or queued. -/
def slotWriting (s : State) (k : Nat) : Bool :=
  s.engines.any fun e => (e.2.jobs.any fun j => j.slot == k) ||
    (match e.2.prog with | some g => g.job.slot == k | none => false)

/-- The instructions of a core's program store that slots take, by first place and number. -/
def progUse (s : State) (c : Nat) : List (Nat × Nat) :=
  (usedSlotNos s).flatMap fun k =>
    let m := manOf s k
    ((slotAt s k).bases.filter fun e => (progEnt m e.1).die * 16 + (progEnt m e.1).core == c).map fun e => (e.2, (progEnt m e.1).code.length)

/-- A vector program is written to a core's program store from a place on. -/
def storeCode (s : State) (p : ProgEnt) (b : Nat) : State :=
  { s with progs := (p.code.zipIdx).foldl (fun t w => tset none t ((p.die * 16 + p.core) * 32768 + b + w.2) (some w.1)) s.progs }

/-- The vector programs of a slot go to free space of each core's program store (R164, R300); none where a program finds no
place. -/
def loadPrograms (s : State) (k : Nat) : Option State :=
  (List.range (manOf s k).progs.length).foldl (fun (o : Option State) i => match o with
    | none => none
    | some s =>
      let p := progEnt (manOf s k) i
      let c := p.die * 16 + p.core
      match firstGap 0 32768 p.code.length (progUse s c) with
      | none => none
      | some b => some (modSlot (storeCode s p b) k fun x => { x with bases := x.bases ++ [(i, b)] })) (some s)

/-- The ACTIVATE of a slot ends with a status. -/
def endActivate (s : State) (k code : Nat) : State :=
  match (slotAt s k).actReq with
  | none => s
  | some id => endReq (modSlot s k fun x => { x with actReq := none }) id code

/-- Preparation ends: the slot is prepared, or its activation is refused for what is missing (R300, R301). -/
def preparedOp (s : State) (k : Nat) : State :=
  let x := slotAt s k
  let miss := x.man.shards.length - doneShards s k
  if x.st = .activating ∧ x.prepared = none ∧ (miss = 0 ∨ x.timedOut = true) ∧ slotWriting s k = false then
    if miss = 0 then match loadPrograms s k with
      | some s => modSlot s k fun x => { x with prepared := some s.belv.tb }
      | none => s
    else
      let s := modSlot s k fun x => { x with st := .loading, missing := miss }
      if x.progFail then endActivate (ev s pgFlc0 3 k) k 0x51 else endActivate (ev s pgFlc0 1 k) k 0x31
  else s

/-- The activation is judged 2,000 ns before T, and can no longer be stopped (R302). -/
def activationJudgedOp (s : State) (k : Nat) : State :=
  let x := slotAt s k
  match x.prepared with
  | none => s
  | some p =>
    let t := max x.target (p + 2000)
    if x.st = .activating ∧ x.judged = false ∧ t ≤ s.belv.tb + 2000 then putSlot s k { x with judged := true, actT := t } else s

/-- The quantiser slots of a flacon, with empty histories (R173, R179). -/
def newQSlots (s : State) (m : Manifest) (k : Nat) : State :=
  m.qslots.foldl (fun s q => putQSlot s (qKey k (coreIdx q.die q.core) q.slot)
    (some { cfg := q, hist := [], passes := 0, isOpen := false, req := 0, amax := [], elems := [], satN := [], posted := false,
            sent := [], posts := [], waited := false, startWait := [], clear := false, lost := false })) s

/-- CAM_SDEST of every stream: the dies named across its bindings of ACTIVE flacons (R254, R289). -/
def setDests (s : State) : State :=
  (List.range 32).foldl (fun s n =>
    let ds := (keysOf s.slots).flatMap fun k =>
      if (slotAt s k).st = .active then ((manOf s k).binds.filter fun b => b.stream == n).map fun b => b.die else []
    rset s (camPage n) (0x78 + camOff n) (put 15 0 (ofBits 16 ds).toNat)) s

/-- A slot becomes RETIRING: its tasks lose their provider, and the suspension of the tasks that it provided ends (R305, R306, R309). -/
def retireSlot (s : State) (k : Nat) : State :=
  let x := slotAt s k
  let s := { s with
    prov := s.prov.filter fun e => e.2 != k
    suspended := s.suspended.filter fun t => !x.tasks.contains t }
  putSlot s k { x with st := .retiring, tasks := [] }

/-- The counters of a slot's layers: one of the die's for die scope, one of the Pavilion's for package scope (R202, R203). -/
def assignCtrs (s : State) (m : Manifest) : List (Nat × Nat) :=
  let used := (usedSlotNos s).flatMap fun k => (slotAt s k).ctrs.map fun e => e.2
  m.layers.zipIdx.foldl (fun (acc : List (Nat × Nat)) e =>
    let l := e.1
    let free := fun (b n : Nat) => ((List.range n).map fun i => b + i).find? fun x => !used.contains x && !acc.any fun a => a.2 == x
    if l.tier ≠ 0 ∨ l.ctrScope = 0 then acc
    else if l.ctrScope = 1 then match free (l.die * 64) 64 with
      | some x => acc ++ [(e.2, x)]
      | none => acc
    else
      match acc.find? fun a => (recAt m a.1).ctrScope == 2 && (recAt m a.1).task == l.task && (recAt m a.1).layer == l.layer with
      | some a => acc ++ [(e.2, a.2)]
      | none => match free 1024 256 with
        | some x => acc ++ [(e.2, x)]
        | none => acc) []

/-- What names a base's replica afterwards names the update's (R305). -/
def passOn (s : State) (from_ k : Nat) : State :=
  let m := manOf s k
  let idx := fun (i : Nat) => (m.shards.zipIdx.find? fun e => e.1.kind == 2 && e.1.ref == i).map fun e => e.2
  let re := fun (r : Nat × Nat) => if r.1 = from_ then match idx r.2 with | some i => (k, i) | none => r else r
  let s := s.plates.foldl (fun (s : State) (e : Nat × Plate) =>
    let r := re (e.2.owner, e.2.shard)
    if e.2.st = .free ∨ e.2.st = .bad ∨ r = (e.2.owner, e.2.shard) then s else putPlate s e.1 { e.2 with owner := r.1, shard := r.2 }) s
  let job := fun (j : Job) => { j with slot := (re (j.slot, j.shard)).1, shard := (re (j.slot, j.shard)).2 }
  let s := mapEngines s (fun _ => true) fun e =>
    { e with jobs := e.jobs.map job, prog := e.prog.map fun g => { g with job := job g.job } }
  let ent := fun (b : SweepEnt) => { b with slot := (re (b.slot, b.shard)).1, shard := (re (b.slot, b.shard)).2 }
  let sw := fun (w : Sweep) => { w with buf := w.buf.map ent, repair := w.repair.map re }
  let s := { s with dies := tmap Die.zero (fun d => { d with drift := d.drift.map re, sweep := sw d.sweep }) s.dies }
  m.shards.zipIdx.foldl (fun s e =>
    if e.1.kind = 2 then
      let h := tget ShardSt.zero (slotAt s from_).shards e.1.ref
      modShard s k e.2 fun _ => h
    else s) s

/-- The activation is applied at T, on the Pavilion and every die in one cycle (R302, R305, R308). -/
def activationApplyOp (s : State) (k : Nat) : State :=
  let x := slotAt s k
  if x.st = .activating ∧ x.judged = true ∧ x.actT ≤ s.belv.tb then
    let m := x.man
    let e := s.epoch + 1
    let ts := m.tasks.map fun t => t.task
    let cs := assignCtrs s m
    let others := (keysOf s.slots).filter fun j => j != k && (slotAt s j).st == .active
    let s := { s with epoch := e, suspended := s.suspended.filter fun t => !ts.contains t }
    let s := others.foldl (fun s j =>
      let s := modSlot s j fun y => { y with tasks := y.tasks.filter fun t => !ts.contains t }
      if (slotAt s j).tasks = [] ∨ (m.update = true ∧ j = x.base) then retireSlot s j else s) s
    let s := { s with prov := ts.foldl (fun t n => tset 0 t n k) s.prov }
    let s := modSlot s k fun y => { y with st := .active, tasks := ts, epoch := e, ctrs := cs }
    let s := cs.foldl (fun s c => putCtr s c.2 Ctr.zero) s
    let s := newQSlots s m k
    let s := if m.update ∧ x.base ≠ 0 then passOn s x.base k else s
    let s := match x.actReq with
      | some id => modReq { modSlot s k (fun y => { y with actReq := none }) with applied := s.applied ++ [id] } id fun q => { q with epoch := e }
      | none => s
    count (setDests s) pgFlc0 0xA8 1
  else s

/-- The NV record is written: it holds the epoch, the providers and their slots and the suspensions, and the ACTIVATEs applied before
it complete (R303, R308). -/
def nvWriteOp (s : State) : State :=
  let s := { s.applied.foldl (fun s id => endReq s id 0) s with applied := [] }
  let saved := s.slots.filter fun e => e.2.st == .active || e.2.st == .retiring
  { s with nv := { s.nv with epoch := s.epoch, saved := saved, suspended := s.suspended } }

/-! ### Freeing (R306 to R309) -/

/-- SHARDs on their way to a slot that is no more complete with FLACON_NOT_ACTIVE. -/
def dropStaging (s : State) (k : Nat) : State :=
  let ids := (s.staging.filter fun g => g.slot == k).map fun g => g.req
  let s := { s with staging := s.staging.filter fun g => g.slot != k }
  ids.foldl (fun s id => endReq s id 0x21) s

/-- Every write job of a slot is taken away. -/
def dropJobs (s : State) (k : Nat) : State :=
  mapEngines s (fun _ => true) fun e =>
    { e with jobs := e.jobs.filter fun j => j.slot != k
             prog := match e.prog with | some g => if g.job.slot = k then none else some g | none => none }

/-- Every replica of a slot that a test on its shard selects is freed on every die. -/
def freeReplicas (s : State) (k : Nat) (p : Nat → Bool) : State :=
  let l := ((s.plates.filter fun e => e.2.owner == k && e.2.st != .free && e.2.st != .bad && p e.2.shard).map
    fun e => (e.1 / 4194304, e.2.shard)).dedup
  l.foldl (fun s r => freeReplica s r.1 k r.2) s

/-- What a slot holds returns to the free pool, and it becomes EMPTY. -/
def emptySlot (s : State) (k : Nat) : State :=
  let x := slotAt s k
  let cut := x.bases.flatMap fun e =>
    let p := progEnt x.man e.1
    (List.range p.code.length).map fun i => (p.die * 16 + p.core) * 32768 + e.2 + i
  let s := freeReplicas (dropJobs (dropStaging s k) k) k fun _ => true
  let f := fun (y : Slot) => if y.base = k then { y with base := 0 } else y
  putSlot { s with
    slots := tmap Slot.zero f s.slots
    progs := s.progs.filter fun e => !cut.contains e.1
    qslots := s.qslots.filter fun e => e.1 / 262144 != k
    ctrs := s.ctrs.filter fun e => !x.ctrs.any fun c => c.2 == e.1
    feeds := s.feeds.filter fun f => f.slot != k } k Slot.zero

/-- FLACON_RETIRE makes an ACTIVE slot RETIRING at once (R306). -/
def flaconRetireOp (s : State) (id : Nat) : State :=
  match takeReq s id 0x13 with
  | none => s
  | some q =>
    let k := q.desc.flcSlot
    if flcFirst s id = false then s
    else if k = 0 ∨ (slotAt s k).st ≠ .active then refuseReq s id 0x21 0
    else
      let s := modSlot (retireSlot s k) k fun x => { x with retReq := some id }
      setDests (modReq s id fun q => { q with phase := .running, ran := true })

/-- A RETIRING slot with no request left is freed (R307). -/
def slotDrainedOp (s : State) (k : Nat) : State :=
  let x := slotAt s k
  if x.st = .retiring ∧ slotInflight s k = 0 then
    let s := emptySlot s k
    match x.retReq with
    | some id => endReq s id 0
    | none => s
  else s

/-- The suspended tasks of an in-place update have drained, and the base's plates of the replaced shards become FREE
(R308). -/
def inPlaceDrainedOp (s : State) (k : Nat) : State :=
  let x := slotAt s k
  let busy := s.reqs.any fun e => match e.2 with
    | some q => q.slot == x.base && q.desc.opc == 1 && q.phase != .finished && s.suspended.contains q.desc.task.toNat
    | none => false
  if (x.st = .loading ∨ x.st = .activating) ∧ x.man.inPlace = true ∧ x.drained = false ∧ busy = false then
    let s := freeReplicas s x.base fun i => !(inherited x.man).contains i
    modSlot s k fun y => { y with drained := true }
  else s

/-- A session is aborted (R309). -/
def abortSession (s : State) (k : Nat) : State := emptySlot (endActivate s k 0x21) k

def flaconAbortOp (s : State) (id : Nat) : State :=
  match takeReq s id 0x14 with
  | none => s
  | some q =>
    let k := q.desc.flcSlot
    let x := slotAt s k
    if flcFirst s id = false then s
    else if k = 0 ∨ (x.st ≠ .loading ∧ x.st ≠ .activating) then refuseReq s id 0x21 0
    else if x.judged then s
    else endReq (abortSession s k) id 0

/-! ### Resets (R303, R310) -/

/-- Sessions LOADING or ACTIVATING are aborted, and ABORTED is set. -/
def abortSessions (s : State) : State :=
  (keysOf s.slots).foldl (fun s k =>
    if (slotAt s k).st = .loading ∨ (slotAt s k).st = .activating then ev (abortSession s k) pgFlc0 5 k else s) s

/-- The shards of a slot that have drifted on a die, as the plate map shows them (R310, R13). -/
def recordDrift (s : State) (k : Nat) : State :=
  (List.range (manOf s k).shards.length).foldl (fun s i => modShard s k i fun h =>
    { h with drifted := ofBits 16 ((List.range 16).filter fun d => s.plates.any fun p =>
        p.2.st == .drifted && p.2.owner == k && p.2.shard == i && p.1 / 4194304 == d) }) s

/-- What a slot that the NV record holds has on the dies beside its plates is put back: its vector programs at their places, its
quantiser slots, its counters, which are IDLE, and the drift that the plate map shows (R13, R164, R183, R202, R310). -/
def recordLoad (s : State) (k : Nat) : State :=
  let m := manOf s k
  let s := (slotAt s k).bases.foldl (fun s e => storeCode s (progEnt m e.1) e.2) s
  recordDrift (newQSlots s m k) k

/-- A reset that restarts the Pavilion leaves the epoch count and the slots as the NV record has them; a slot that the record
does not hold waits as LOADING to be aborted at step 0x0A, and what it had inherited is the base's again, that has drained since or not; a
session in the number of such a base frees its plates. The suspensions and CAM_SDEST
follow the record (R254). -/
def recordSlots (s : State) : State :=
  let saved := s.nv.saved
  let new := (keysOf s.slots).filter fun k => !saved.any fun e => e.1 == k
  let again := (keysOf s.slots).filter fun k => ((slotAt s k).st == .loading || (slotAt s k).st == .activating) && saved.any fun e => e.1 == k
  let s := again.foldl (fun s k => freeReplicas s k fun _ => true) s
  let s := new.foldl (fun s k =>
    let x := slotAt s k
    let held := saved.find? fun e => e.2.man.id == x.man.baseId && e.2.man.version == x.man.baseVersion
    let base := if x.base = 0 then (held.map fun e => e.1).getD 0 else x.base
    let back := fun (p : Plate) => p.owner == k && p.st != .free && p.st != .bad && (shardEnt x.man p.shard).kind == 2
    let s := s.plates.foldl (fun s e =>
      if back e.2 then putPlate s e.1 { e.2 with owner := base, shard := (shardEnt x.man e.2.shard).ref } else s) s
    putSlot s k { x with st := .loading, actReq := none, retReq := none, prepared := none, judged := false, tasks := [],
                         bases := [], ctrs := [] }) s
  let slots := saved.foldl (fun t e => tset Slot.zero t e.1 { e.2 with retReq := none }) s.slots
  let s := { s with
    slots := slots
    epoch := s.nv.epoch
    suspended := s.nv.suspended
    applied := []
    prov := saved.foldl (fun t e => if e.2.st = .active then e.2.tasks.foldl (fun t n => tset 0 t n e.1) t else t) [] }
  setDests ((keysOf saved).foldl recordLoad s)

/-- A write of FLC_SLOT_INDEX takes a snapshot of a slot (R313). -/
def flcSnapshot (s : State) : State :=
  let k := rfld s pgFlc1 0x40 3 0
  let x := if k = 0 then Slot.zero else slotAt s k
  let w := fun (s : State) o v => rset s pgFlc1 o v
  let s := w s 0x44 (put 31 29 x.st.code ||| putBit 28 x.man.update ||| putBit 27 x.man.inPlace |||
    putBit 26 (x.suspends && (x.st == .loading || x.st == .activating)) ||| put 15 0 x.tasks.length)
  let s := w (w (w s 0x48 x.man.id) 0x4C x.man.version) 0x50 x.epoch
  let s := w s 0x54 (put 12 0 (if k = 0 ∨ x.st = .empty then 0 else slotInflight s k))
  let s := w (w (w s 0x58 (put 17 0 x.man.shards.length)) 0x5C (put 17 0 (doneShards s k))) 0x60 (put 17 0 x.missing)
  rset64 s pgFlc1 0x64 x.actT

def execFlaconBegin (req : Nat) (s : State) : Host.Outcome State Fault Refusal := done (flaconBeginOp s req)
def execShard (req : Nat) (s : State) : Host.Outcome State Fault Refusal := done (shardOp s req)
def execShardSend (req : Nat) (s : State) : Host.Outcome State Fault Refusal := done (shardSendOp s req)
def execShardDieReceive (req die : Nat) (payload : List Byte) (s : State) : Host.Outcome State Fault Refusal :=
  done (shardReceiveOp s req die payload)
def execFlaconActivate (req : Nat) (s : State) : Host.Outcome State Fault Refusal := done (flaconActivateOp s req)
def execActivateTimeout (slot : Nat) (s : State) : Host.Outcome State Fault Refusal := done (activateTimeoutOp s slot)
def execActivationPrepared (slot : Nat) (s : State) : Host.Outcome State Fault Refusal := done (preparedOp s slot)
def execActivationJudged (slot : Nat) (s : State) : Host.Outcome State Fault Refusal := done (activationJudgedOp s slot)
def execActivationApply (slot : Nat) (s : State) : Host.Outcome State Fault Refusal := done (activationApplyOp s slot)
def execNvRecordWrite (s : State) : Host.Outcome State Fault Refusal := done (nvWriteOp s)
def execFlaconRetire (req : Nat) (s : State) : Host.Outcome State Fault Refusal := done (flaconRetireOp s req)
def execFlaconAbort (req : Nat) (s : State) : Host.Outcome State Fault Refusal := done (flaconAbortOp s req)
def execSlotDrained (slot : Nat) (s : State) : Host.Outcome State Fault Refusal := done (slotDrainedOp s slot)
def execInPlaceDrained (slot : Nat) (s : State) : Host.Outcome State Fault Refusal := done (inPlaceDrainedOp s slot)

end Sys2Proof.Machine
end

