-- ==== Sys2Proof/Machine/Power.lean ====
section
/-! DEFINITION. The power and thermal supervisor: housekeeping rounds and orderly shutdowns (R377 to R381), supply warnings and
reset crossings (R374 to R376), and the power states (R366 to R370). -/

namespace Sys2Proof.Machine

open Sys2Proof

def modPwr (s : State) (f : Pwr → Pwr) : State := { s with pwr := f s.pwr }

/-- Thresholds of PWR_THERM: T_WARN in 1/16 K, and the slopes in 1/1,024 K/s (R379, R384). -/
def tWarn (s : State) : Int := (rfld s pgPwr 0x48 31 24 * 16 : Nat)
def riseTrip (s : State) : Int := (rfld s pgPwr 0x48 15 8 * 256 : Nat)
def riseWarn (s : State) : Int := (rfld s pgPwr 0x48 7 0 * 256 : Nat)

/-- T_CRIT, 125 °C, in 1/16 K. -/
def tCrit : Int := 2000

/-- The start of the patrol scrub's 24 hours as a module that is in RUN again counts them: the time outside RUN counts for
nothing (R325). -/
def ranAgain (s : State) : Int := if s.pwr.st = .run then s.scrubAt else s.scrubAt + (s.belv.tb - s.pwr.ranAt)

/-- The power state changes. -/
def setPState (s : State) (t : PState) : State :=
  if t = .run then modPwr { s with scrubAt := ranAgain s } fun p => { p with st := t }
  else modPwr s fun p => { p with st := t, ranAt := if p.st = .run then s.belv.tb else p.ranAt }

/-! ### Orderly shutdown (R380, R381) -/

/-- A shutdown record joins the NV record, which keeps the latest 16. -/
def logShutdown (s : State) (r : ShutRec) : State :=
  { s with nv := { s.nv with logs := (r :: s.nv.logs).take 16, newLogs := min (s.nv.newLogs + 1) 16 } }

/-- A die is taken off by the supervisor: its requests complete with THERMAL, its coefficients are saved, and it goes off. -/
def thermalOff (s : State) (d : Nat) : State :=
  let s := saveCoefs (failWork s d 0x60) d
  let s := failWaiting (dieOff s d 0x60 .thermalOff) d 0x60
  ev (count s pgPwr 0x64 1) pgPwr 5 d

/-- An orderly shutdown of a die with its cause. -/
def shutdown (s : State) (d cause : Nat) : State :=
  let x := dieAt s d
  thermalOff (logShutdown s ⟨s.belv.tb, d, cause, x.lastTemp, x.slope / 64⟩) d

/-! ### The housekeeping round (R377 to R379) -/

/-- The sum of eight readings from a place in the list, newest first. -/
def sum8 (l : List Int) (n : Nat) : Int := ((l.drop n).take 8).sum

/-- The slope in 1/1,024 K/s: the difference of two means of eight readings in 1/16 K, over 64 ms (R378). -/
def slopeOf (l : List Int) : Int := if l.length < 72 then 0 else (sum8 l 0 - sum8 l 64) * 125

/-- The requests whose row programs run on a die. -/
def runningOn (s : State) (d : Nat) : List Nat :=
  ((s.cores.filter fun c => c.1 / 16 == d).filterMap fun c => c.2.vrun.bind fun v => (runAt s v.run).map fun w => w.req).dedup

/-- HOT and RISE_WARN of a die, from the reading and slope just taken. -/
def thermalMarks (s : State) (d : Nat) : State :=
  let x := dieAt s d
  let hot := decide (tWarn s ≤ x.lastTemp) || (x.hot && decide (tWarn s - 32 ≤ x.lastTemp))
  let rise := decide (riseWarn s ≤ x.slope) || (x.rise && decide (riseWarn s - 1024 ≤ x.slope))
  let s := modDie s d fun x => { x with hot := hot, rise := rise,
                                        trips := if riseTrip s ≤ x.slope then x.trips + 1 else 0 }
  let s := if tWarn s ≤ x.lastTemp then ev s (pgDie d) 2 0 else s
  let s := if riseWarn s ≤ x.slope then ev s (pgDie d) 3 0 else s
  (runningOn s d).foldl (fun s id => dieFlags s id d) s

/-- The shutdown that a round decides, if any: its cause. -/
def shutCause (s : State) (d : Nat) (first : Bool) : Option Nat :=
  let x := dieAt s d
  if first ∧ x.restart ∧ tWarn s ≤ x.lastTemp then some 4
  else if tCrit ≤ x.lastTemp then some 2
  else if 2 ≤ x.trips then some 1
  else none

/-- Whether a schedule's next instant has come; the first is the first command's (R14, R377). -/
def roundDue (next : Option Nat) (tb : Nat) : Bool := match next with | none => true | some n => decide (n ≤ tb)

/-- The next instant of a 1 ms schedule after one at or before TB. -/
def roundNext (next : Option Nat) (tb : Nat) : Nat :=
  let n := next.getD tb
  n + ((tb - n) / 1000000 + 1) * 1000000

/-- A housekeeping round, every 1 ms while the die is powered (R377): the diode in 1/16 °C, both supply monitors in mV, and whether the bias reference was within 2 %. -/
def housekeepingOp (s : State) (d : Nat) (temp : Int) (vcore varr : Nat) (biasOk : Bool) : State :=
  let x := dieAt s d
  if x.st ≠ .on ∨ x.up = false ∨ roundDue x.hkNext s.belv.tb = false then s
  else
    let p := pgHk d
    let s := modDie s d fun x => { x with hkNext := some (roundNext x.hkNext s.belv.tb) }
    let s := rset (rset (count s p 0x50 1) p 0x48 (put 15 0 vcore)) p 0x4C (put 15 0 varr)
    let s := if biasOk then s else ev s p 0 0
    match if biasOk then some temp else x.temps.head? with
    | none => calRound s d
    | some t =>
      let l := (t :: x.temps).take 72
      let s := modDie s d fun x => { x with temps := l, lastTemp := t, slope := slopeOf l }
      let s := rset (rset s p 0x40 (put16 t)) p 0x44 (put16 (slopeOf l / 64))
      let s := thermalMarks s d
      let c := shutCause s d x.temps.isEmpty
      let s := modDie s d fun x => { x with restart := false }
      match c with
      | some c => shutdown s d c
      | none => calRound s d

/-! ### Supplies (R374 to R376) -/

/-- The bit of PWR_SUP_LIVE of a Pavilion monitor, or the die and the bit of PAGE_STAT of a die's. -/
def supplyPlace : Supply → Nat ⊕ (Nat × Nat)
  | .vaux => .inl 0 | .vio => .inl 1 | .vcoreP => .inl 2 | .vddq => .inl 3 | .visu => .inl 4
  | .vcoreO d => .inr (d, 0) | .varr d => .inr (d, 1)

/-- Writes are aborted, and calibrations in progress are marked, on a die under a warning (R102, R150). -/
def warnDie (s : State) (d : Nat) : State :=
  let s := abortOps s d
  let s := { s with engines := s.engines.map fun e =>
    (e.1, if engDie e.1 == d && e.2.calEnd.isSome then { e.2 with calDirty := true } else e.2) }
  (runningOn s d).foldl (fun s id => setQual s id qLowsup) s

/-- A Pavilion monitor of a domain that is off reports nothing. -/
def unmonitored (s : State) (b : Nat) : Bool :=
  (s.pwr.st == .vigil && (b == 2 || b == 3)) || (s.pwr.d3off && b == 4)

/-- A supply falls below its warning level. -/
def supplyWarningOp (s : State) (m : Supply) : State :=
  match supplyPlace m with
  | .inl b =>
    if s.pwr.live.getLsbD b ∨ unmonitored s b = true then s
    else
      let s := if b = 0 then (List.range 16).foldl abortOps s else s
      ev (count (modPwr s fun p => { p with live := p.live ||| (1#5 <<< b) }) pgPwr 0x5C 1) pgPwr b 0
  | .inr (d, b) =>
    let x := dieAt s d
    if x.st ≠ .on ∨ x.up = false then modDie s d fun x => { x with warn := x.warn ||| (1#2 <<< b) }
    else if x.warn.getLsbD b then s
    else
      let s := modDie (warnDie s d) d fun x => { x with warn := x.warn ||| (1#2 <<< b) }
      ev (count s (pgDie d) 0x50 1) (pgDie d) b 0

/-- The hold of a die's writes after the last warning that stops them (R132). -/
def holdFrom (s : State) (d : Nat) : State :=
  if (dieAt s d).warn = 0 ∧ s.pwr.live.getLsbD 0 = false then
    modDie s d fun x => { x with holdTill := some (s.belv.tb + rfld s (pgPrg0 d) 0x40 23 16 * 1000000) }
  else s

/-- A supply has been above its warning level plus 1 % of nominal for 100 µs. -/
def supplyClearOp (s : State) (m : Supply) : State :=
  match supplyPlace m with
  | .inl b =>
    if s.pwr.live.getLsbD b then
      let s := modPwr s fun p => { p with live := p.live &&& ~~~(1#5 <<< b) }
      if b = 0 then (List.range s.part.member.dies).foldl holdFrom s else s
    else s
  | .inr (d, b) =>
    if (dieAt s d).warn.getLsbD b then
      holdFrom (modDie s d fun x => { x with warn := x.warn &&& ~~~(1#2 <<< b) }) d
    else s

/-- The hold after a warning ends, and writes resume (R132). -/
def supHoldEndOp (s : State) (d : Nat) : State :=
  match (dieAt s d).holdTill with
  | some t => if t ≤ s.belv.tb then modDie s d fun x => { x with holdTill := none } else s
  | none => s

/-- Whether a request waits for a stripe of some stream: it waits for a frame of a stream that its task is bound to, or a
frame that it took has stripes to come (R193, R252). -/
def awaitsStripe (s : State) (id : Nat) : Bool :=
  ((reqRuns s id).any fun e => e.2.feedWait && isBound (e.2.man s) (e.2.rc s)) ||
  s.feeds.any fun f => f.taken == some id && decide (f.src < 32) &&
    match bindOf (manOf s f.slot) (recAt (manOf s f.slot) f.layer) f.src,
        (reqRuns s id).find? fun e => e.2.slot == f.slot && e.2.layer == f.layer with
    | some b, some w => (List.range (ceilDiv w.2.rows 64)).any fun k =>
        decide (tget 0 f.got k < bindNeed b (stripesOf s f.src) k)
    | _, _ => false

/-- The ISU at reset values, but for the interlock trip state, which D0 holds (R350). -/
def Isu.tripKept (x : Isu) : Isu := { Isu.zero with tripped := x.tripped, byPlaus := x.byPlaus, watchNo := x.watchNo }

/-- The pages of D3: the camera ports and the ISU (R366). -/
def d3Page (p : Nat) : Bool := decide ((0x20 ≤ p ∧ p < 0x30) ∨ (0x30 ≤ p ∧ p < 0x33))

/-- D3 loses its power: requests that wait for a stripe complete with SUPPLY, and the ports and the ISU return to reset values,
except the interlock trip state, which D0 holds (R350, R376). PAGE_LOCK stays (R29), and so do the line positions, which Belvedere
holds in D1 (R220); CAM_SDEST follows the bindings (R254). -/
def resetD3 (s : State) : State :=
  let s := ((keysOf s.reqs).filter fun id => awaitsStripe s id).foldl (fun s id => failReq s id 0x61) s
  let s := resetPages s d3Page fun a => if a % 1024 = 3 then 0xFFFFFFFF else 0
  let place : Stream → Stream := fun r => { Stream.zero with frame := r.frame, line := r.line, stamp := r.stamp, endStamp := r.endStamp }
  setDests { s with
    streams := tmap Stream.zero place s.streams, lp11 := []
    feeds := s.feeds.filter fun f => !(decide (f.src < 32) && f.taken.isNone)
    isu := s.isu.tripKept }

/-- A die's supply crosses its reset level: the die is reset with its weights intact, and is left out at the fourth crossing
within 60 s. -/
def dieSupplyReset (s : State) (d b : Nat) : State :=
  let x := dieAt s d
  match x.st with
  | .on | .supplyReset =>
    let l : List Int := ((s.belv.tb : Int) :: x.resetsAt).filter fun t => decide ((s.belv.tb : Int) < t + 60000000000)
    let s := count s pgPwr 0x60 1
    let s := modDie s d fun x => { x with resetsAt := l, warn := x.warn ||| (1#2 <<< b) }
    if 4 ≤ l.length then leaveOut s d 0x61 else dieOff s d 0x61 .supplyReset
  | .gated | .thermalOff | .leftOut | .notPresent | .skipped => s

/-! ### What no reset reaches (R48, R409) -/

/-- What is kept of a die: its live warnings, the list of its DRIFTED replicas, and, where TB goes on, the start of its sweep
interval and the TB of its last coefficient write. -/
def Die.cold (keepTb : Bool) (x : Die) : Die :=
  { Die.zero with warn := x.warn, drift := x.drift, driftOv := x.driftOv, savedAt := if keepTb then x.savedAt else 0,
                  sweep := if keepTb then { Sweep.zero with since := x.sweep.since } else Sweep.zero }

/-- The KIND 1 shards of the slots stay stored where package memory is kept, and else are lost (R327). -/
def keepStored (s : State) (old : Tab Slot) (keep : Bool) : State :=
  let f := fun (k : Nat) (x : Slot) =>
    { x with shards := tmapi ShardSt.zero (fun i h => { h with
        stored := keep && (tget ShardSt.zero (tget Slot.zero old k).shards i).stored }) x.shards }
  let s := { s with slots := tmapi Slot.zero f s.slots }
  if keep then s else (keysOf s.slots).foldl loseArea s

/-- PWR_PROFILE, in its active and its shadow copy (R371). -/
def setProfile (s : State) (v : Nat) : State := rset (rset s pgPwr 0x44 (put 1 0 v)) pgPwr 0x844 (put 1 0 v)

/-- The module with everything volatile lost: fuses, NV store, SLC regions, weights and the plate map are kept, and what belongs
to the surroundings. `keepTb` keeps the timebase, which then follows SYSCLK alone, and the skew that BLV_ALIGN holds since the last
power-on reset (R217, R238); `keepMem` keeps the package memory (R324, R409). PROFILE is as the NV record gives it (R53, R371). -/
def coldState (s : State) (keepTb keepMem : Bool) : State :=
  let s := cutTouches s s.engines
  let b := if keepTb then { Belv.zero with tb := s.belv.tb, frac := s.belv.frac, syncAt := s.belv.syncAt } else Belv.zero
  let t := { State.reset with
    part := s.part, otp := s.otp, nv := s.nv, slc := s.slc, plates := s.plates, weights := s.weights
    banks := tmap Bank.zero (fun b => { b with pass := [], touch := [] }) s.banks
    hostMem := s.hostMem, bus := { Bus.zero with perst := s.bus.perst, aer := s.bus.aer }, belv := b
    dies := tmap Die.zero (Die.cold keepTb) s.dies, pwr := { Pwr.zero with live := s.pwr.live }, tap := s.tap
    isu := Isu.zero, boot := { s.boot with active := false, ready := false, safe := false, relink := none, vigil := false, mapUp := false }
    slots := s.slots, pkgMem := if keepMem then s.pkgMem else [], poison := if keepMem then s.poison else []
    nextReq := s.nextReq, nextRun := s.nextRun, nextXfer := s.nextXfer, nextWin := s.nextWin
    free := s.free, pending := s.pending, scrubAt := if keepTb then ranAgain s else 0 }
  let t := if keepTb then rset t pgBlv0 0x68 (rget s pgBlv0 0x68) else t
  keepStored (recordSlots (setProfile t s.nv.profile.toNat)) s.slots keepMem

/-- The module is held in reset: by a supply below its reset level, or with SYSCLK absent (R376, R427, R433). A hold that is there
already stays. The trip state stays until the power-on reset, but for a VAUX below its reset level, which feeds D0 itself: the
trip state is lost with it, and SAFE# is high-impedance (R350, R366, R432). -/
def holdInReset (s : State) (m : Option Supply) : State :=
  let isu := if m = some .vaux then Isu.zero else s.isu.tripKept
  modPwr { coldState s false false with isu := isu } fun p =>
    { p with noClk := s.pwr.noClk || m.isNone, resetBy := if s.pwr.resetBy.isSome then s.pwr.resetBy else m }

/-- A supply falls below its reset level. -/
def supplyResetOp (s : State) (m : Supply) : State :=
  match m with
  | .vaux | .vio => holdInReset s (some m)
  | .vcoreP | .vddq => if s.pwr.st = .vigil then s else holdInReset s (some m)
  | .visu => if s.pwr.d3off ∨ s.pwr.held then s else resetD3 (count s pgPwr 0x60 1)
  | .vcoreO d => if d < s.part.member.dies then dieSupplyReset s d 0 else s
  | .varr d => if d < s.part.member.dies then dieSupplyReset s d 1 else s

/-! ### Restart and the log (R380, R384) -/

/-- PWR_DIE_RESTART starts each named die that is THERMAL_OFF or LEFT_OUT; it rejoins after its bring-up, once the power state has the
dies on. -/
def dieRestart (s : State) (w : W32) : State :=
  (bitsOf (BitVec.ofNat 16 (fld w 15 0))).foldl (fun s d =>
    let x := dieAt s d
    if d < s.part.member.dies ∧ (x.st = .thermalOff ∨ x.st = .leftOut) then
      modDie s d fun x => { x with st := if diesOn s then .on else .gated, restart := true, resetsAt := [], retained := false }
    else s) s

/-- A write of PWR_LOG_INDEX takes a snapshot of a shutdown record. -/
def pwrLogSnapshot (s : State) : State :=
  let r := s.nv.logs.getD (rfld s pgPwr 0x6C 3 0) ⟨0, 0, 0, 0, 0⟩
  let s := rset64 s pgPwr 0x70 r.tb
  rset (rset s pgPwr 0x78 (put 31 28 r.cause ||| put 19 16 r.die ||| put16 r.temp)) pgPwr 0x7C (put16 r.slope)

/-! ### A start begins (R412, R413) -/

def modBoot (s : State) (f : Boot → Boot) : State := { s with boot := f s.boot }
def modNv (s : State) (f : Nv → Nv) : State := { s with nv := f s.nv }

/-! ### A start begins (R412, R413) -/

/-- Whether the previous start failed (R412). -/
def startFailed (s : State) : Bool := s.nv.begun != s.nv.ended || s.nv.noImage

/-- The lowest-numbered die that takes part in the start. -/
def firstDie (s : State) : Option Nat :=
  (List.range s.part.member.dies).find? fun d => (dieAt s d).st == .on

/-- The other path that a start takes for the step that failed last time (R413); the answer says whether step 0x0B is to be
skipped. -/
def otherPath (s : State) : State × Bool :=
  let b := s.nv.begun
  if b = s.nv.ended then (s, false)
  else if (b = 5 ∨ b = 6) ∧ s.nv.die.isSome then
    let d := s.nv.die.getD 0
    (ev (modNv s fun n => { n with skip := n.skip ||| (1#16 <<< d) }) pgBoot 0 b, false)
  else if b = 9 ∧ s.nv.ddrStored then (ev (modNv s fun n => { n with ddrStored := false }) pgBoot 0 b, false)
  else if b = 0x0B then (ev s pgBoot 0 b, true)
  else if 4 ≤ b then (ev (modNv s fun n => { n with prefer := !n.lastImg }) pgBoot 0 b, false)
  else (s, false)

/-- A start begins, with step 0x01 or, from VIGIL, 0x02: the previous start is judged, its record is reported, dies with a skip
mark are left out, those whose mark BOOT_SKIP_CLR cleared come back, and BEGUN is written. -/
def beginStart (s : State) (cause first : Nat) : State :=
  let prev := s.nv
  let failed := startFailed s
  let s := if failed then modNv s fun n => { n with failRun := min (n.failRun + 1) 3 } else s
  let r := if failed then otherPath s else (s, false)
  let s := r.1
  let back := (List.range s.part.member.dies).filter fun d => (dieAt s d).st == .skipped && !s.nv.skip.getLsbD d
  let s := back.foldl (fun s d => modDie s d fun x => { x with st := .on }) s
  let skipped := bitsOf s.nv.skip
  let s := skipped.foldl (fun s d => ev (modDie s d fun x => { x with st := .skipped }) pgBoot 1 d) s
  let s := modBoot s fun b => { Boot.zero with
    cause := cause, prevFail := failed, prevDie := prev.die.getD 0, prevEnd := prev.ended, prevBeg := prev.begun
    prefPrev := prev.lastPref, calStored := r.2, begun := first, stepAt := s.belv.tb, startAt := s.belv.tb, shutdowns := prev.newLogs, vigil := decide (first = 2)
    rstLast := b.rstLast, rstCount := b.rstCount }
  modNv s fun n => { n with begun := first, ended := 0, die := none, noImage := false, lastPref := n.prefer }

/-! ### Power states (R367 to R370) -/

def PState.code : PState → Nat
  | .run => 0 | .ready => 1 | .doze => 2 | .nap => 3 | .sleep => 4 | .vigil => 5
def PState.ofCode : Nat → PState
  | 1 => .ready | 2 => .doze | 3 => .nap | 4 => .sleep | 5 => .vigil | _ => .run

/-- Whether no read, calibration or write operation of any engine is in progress (R369). -/
def enginesQuiet (s : State) : Bool :=
  s.engines.all fun e => e.2.flights.isEmpty && e.2.calEnd.isNone && decide (e.2.freeAt ≤ s.belv.tb) && !opRunning s e.1 e.2

/-- Whether a deeper state may be entered now (R369). -/
def mayEnter (s : State) (t : PState) : Bool :=
  enginesQuiet s && (decide (t.code < 3) || (s.reqs.isEmpty && s.engines.all fun e => e.2.jobs.isEmpty && e.2.prog.isNone))

/-- Whether a request for a deeper state is refused (R369). -/
def entryRefused (s : State) (t : PState) : Bool :=
  (decide (3 ≤ t.code) && s.slots.any fun x => x.2.st == .loading || x.2.st == .activating) ||
  (decide (4 ≤ t.code) && (ringsActive s || (List.range 32).any fun n => camEn s n))

/-- A die goes off for NAP or a deeper state: an active pass ends, its coefficients are saved, its retention store takes a
copy of them, and its domain is gated (R112, R368, R369). A die that waits for a bring-up has nothing to save. -/
def gateDie (s : State) (d : Nat) : State :=
  if dieUp s d then
    let s := saveCoefs (cutPass s d) d
    let s := { s with retain := saveAll s d s.retain }
    let s := rset s pgPwr (0x80 + 4 * d) (put16 (dieAt s d).lastTemp)
    let s := resetDiePages (clearDie s d) d
    dropFlows (dropLinks (modDie s d fun x =>
      { x with st := .gated, up := false, retained := true, temps := [], hkNext := none, hot := false, rise := false,
               trips := 0, slope := 0, holdTill := none, fell := false }) d) d
  else if (dieAt s d).st = .on then
    modDie s d fun x => { x with st := .gated, retained := false, fell := false }
  else s

/-- The pages of D0 (R366). -/
def d0Page (p : Nat) : Bool := p == pgPwr

/-- Whether a DW address is the PAGE_LOCK of a page with a header, which the RNG pages do not have (R20, R28). -/
def isPageLock (a : Nat) : Bool :=
  a % 1024 == 3 && match kindOf (a / 1024) with
    | some (.rng, _) | none => false
    | some _ => true

/-- VIGIL: all but D0 is lost. TB goes on at the last rate, and the trip state, the NV store and the dies' SLC regions stay. PAGE_LOCK and
BLV_ALIGN stay too: only a power-on reset or SYS_RST# clears the one, and only a power-on reset the other (R29, R217). Package memory
is lost, and the slow-tier areas become invalid on leaving VIGIL (R324, R327). -/
def enterVigil (s : State) : State :=
  let t := coldState s true true
  { t with
    pkgMem := [], poison := []
    regs := s.regs.filter fun e => d0Page (e.1 / 1024) || isPageLock e.1 || e.1 == dwAddr pgBlv0 0x68
    scrubAt := s.belv.tb
    hiShadow := s.hiShadow.filter fun e => d0Page (e.1 / 1024)
    isu := s.isu.tripKept
    belv := { t.belv with rate := s.belv.rate, judging := false }
    dies := (List.range s.part.member.dies).foldl (fun t d =>
      let x := dieAt s d
      tset Die.zero t d { Die.cold true x with
        st := if x.st = .on then .gated else x.st, lostBy := x.lostBy, resetsAt := x.resetsAt, lastTemp := x.lastTemp }) []
    pwr := { s.pwr with st := .vigil, entry := none, exitTo := none, d3off := true, ranAt := s.belv.tb } }

/-- A pending deeper state is entered once its conditions are met; for VIGIL the host has then completed PME_Turn_Off. -/
def entryOp (s : State) : State :=
  match s.pwr.entry, s.pwr.exitTo with
  | some t, none =>
    if mayEnter s t = false then s
    else match t with
      | .run => modPwr s fun p => { p with entry := none }
      | .ready | .doze => modPwr (setPState s t) fun p => { p with entry := none }
      | .nap => modPwr (setPState ((List.range s.part.member.dies).foldl gateDie s) t) fun p => { p with entry := none }
      | .sleep =>
        let s := (List.range s.part.member.dies).foldl gateDie s
        let s := stopSillage (stopLaunch (resetD3 s)) false
        modPwr (setPState s t) fun p => { p with entry := none, d3off := true }
      | .vigil => enterVigil ((List.range s.part.member.dies).foldl gateDie s)
  | _, _ => s

/-- A die leaves NAP or SLEEP: it restores from its retention store and begins its implicit window, or, if the store's CRC
fails, it waits for a bring-up from its SLC region; whether the CRC matches is a free value (R368, log 11). A die that had still to
come up when it was gated waits for its bring-up again. -/
def wakeDie (s : State) (d : Nat) : State :=
  let x := dieAt s d
  if x.st ≠ .gated then s
  else if x.retained = false then modDie s d fun x => { x with st := .on, online := false }
  else
    let ok := Config.freeNat s.free != 0
    let s := { s with free := s.free + 1 }
    if ok then bringUp (modDie s d fun x => { x with retained := false }) d s.retain
    else ev (modDie s d fun x => { x with st := .on, online := false, retained := false, fell := true }) pgBoot 0 6

/-- A step that runs outside a start has begun, and the step that ended before it is given (R412, R417). -/
def recordStep (s : State) (begun ended : Nat) : State :=
  { s with nv := { s.nv with begun := begun, ended := ended, die := none }
           boot := { s.boot with begun := begun, ended := ended, stepAt := s.belv.tb } }

/-- What a module does that leaves NAP or SLEEP for a state in which the dies are on (R368, R417): step 0x0B is recorded, but for a start under
way, which has its own record. -/
def wakeDies (s : State) : State :=
  let s := (List.range s.part.member.dies).foldl wakeDie s
  if s.boot.active then s else recordStep s 0x0B 0

/-- The exit from SLEEP: D3 is on again, and Belvedere judges again and resumes without the step of R216 (R218, R231). -/
def leaveSleep (s : State) : State :=
  resumeLaunch (modBelv (modPwr s fun p => { p with d3off := false }) fun b => { b with jump := false })

/-- The exit from VIGIL: start-up runs from step 0x02 (R417), TB, whose source is FREE, follows SYSCLK alone (R215), and the slow-tier
areas become invalid (R327). -/
def leaveVigil (s : State) : State :=
  let dies := (List.range s.part.member.dies).foldl (fun t d =>
    let x := dieAt s d
    tset Die.zero t d (if x.st = .gated then { x with st := .on } else x)) s.dies
  let s := keepStored s s.slots false
  let s := modPwr { s with dies := dies, belv := { s.belv with rate := 0, judging := true } } fun p => { p with d3off := false }
  beginStart (setDests s) s.boot.cause 2

/-- An exit starts toward a shallower state. -/
def startExit (s : State) (to_ : PState) : State :=
  let now := s.pwr.exitTo.getD s.pwr.st
  let s := if s.pwr.exitTo.isSome then s else count s pgPwr 0x68 1
  let s := modPwr (rset s pgPwr 0x40 (put 2 0 to_.code)) fun p => { p with entry := none, exitTo := some to_ }
  match now with
  | .vigil => leaveVigil s
  | .sleep =>
    let s := leaveSleep s
    if to_.code < 3 then wakeDies s else s
  | .nap => if to_.code < 3 then wakeDies s else s
  | .run | .ready | .doze => s

/-- A write of PWR_REQ (R369). -/
def pwrReq (s : State) (w : W32) : State :=
  let t := PState.ofCode (fld w 2 0)
  let now := s.pwr.exitTo.getD s.pwr.st
  if t.code < now.code then startExit s t
  else if t = now then modPwr (rset s pgPwr 0x40 (put 2 0 t.code)) fun p => { p with entry := none }
  else if entryRefused s t then ev s pgPwr 8 0
  else modPwr (rset s pgPwr 0x40 (put 2 0 t.code)) fun p => { p with entry := some t }

/-- Whether an opcode's request needs an Orangery die (R370). -/
def needsArray (s : State) (q : Req) : Bool :=
  match q.desc.opc.toNat with
  | 1 => (taskLayers (manOf s q.slot) q.desc.task.toNat).any fun e => e.2.tier == 0
  | 0x20 | 0x21 => true
  | 0x11 => (shardEnt (slotAt s q.desc.flcSlot).man q.desc.param.toNat).kind == 0
  | _ => false

/-- Whether an exit trigger applies in the present power state (R370). -/
def triggers (s : State) (t : ExitTrigger) : Bool :=
  match s.pwr.st, t with
  | .ready, .dispatch | .doze, .dispatch => !s.reqs.isEmpty
  | .ready, .window | .doze, .window => s.wins.any fun w => match w.2 with | some w => w.isOpen | none => false
  | .ready, .queuedWork | .doze, .queuedWork =>
    (s.engines.any fun e => !e.2.jobs.isEmpty || e.2.prog.isSome) || s.dies.any fun d => !d.2.sweep.todo.isEmpty
  | .nap, .dispatch => rbit s pgPwr 0x4C 0 && s.reqs.any fun r => match r.2 with | some q => needsArray s q | none => false
  | .sleep, .bar0Access | .sleep, .bar2Access => true
  | .vigil, .perstDeassert => !s.bus.perst
  | .vigil, .linkActivity => true
  | _, _ => false

/-- An exit trigger: the module starts its return to RUN. -/
def exitOp (s : State) (t : ExitTrigger) : State :=
  if s.pwr.exitTo = none ∧ triggers s t = true ∧ s.pwr.held = false then startExit s .run else s

/-- Whether an exit under way has ended: with the dies' implicit windows, less those of dies that fell back (R367, R368). An exit from
VIGIL ends with step 0x04 of its start. -/
def exitReady (s : State) : Bool :=
  s.pwr.st != .vigil && s.engines.all fun e => !e.2.inBringUp || (dieAt s (engDie e.1)).fell

/-- The exit under way is over: PSTATE reads the state that it leads to. -/
def endExit (s : State) : State :=
  match s.pwr.exitTo with
  | none => s
  | some t => modPwr (setPState s t) fun p => { p with exitTo := none }

/-- Step 0x0B of an exit or of a die's rejoining is recorded as ended once no implicit window runs (R412, R417). -/
def recordWindow (s : State) : State :=
  if s.boot.active = false ∧ s.pwr.exitTo = none ∧ s.boot.begun = 0x0B ∧ s.boot.ended ≠ 0x0B ∧
      (s.engines.all fun e => !e.2.inBringUp) = true then
    { s with nv := { s.nv with ended := 0x0B }, boot := { s.boot with ended := 0x0B } }
  else s

/-- An exit from NAP or SLEEP, or from a shallower state, completes (R367). -/
def exitDoneOp (s : State) : State := if exitReady s then recordWindow (endExit s) else s

/-- The Pavilion's own diode, read every 1 ms (R377), in 1/16 °C: at T_CRIT every die is shut down, and the module enters VIGIL with the link down
(R379). The spec gives the Pavilion no slope: that field of the record is a free value (log 11). -/
def pavTempOp (s : State) (temp : Int) : State :=
  if s.pwr.held ∨ s.pwr.st = .vigil ∨ roundDue s.pwr.pavNext s.belv.tb = false then s
  else
    let s := rset s pgPwr 0x50 (put16 temp)
    let s := modPwr s fun p => { p with pavHot := decide (tWarn s ≤ temp), pavNext := some (roundNext p.pavNext s.belv.tb) }
    let s := if tWarn s ≤ temp then ev s pgPwr 6 0 else s
    if temp < tCrit then s
    else
      let s := { logShutdown s ⟨s.belv.tb, 15, 3, temp, Config.freeNat s.free⟩ with free := s.free + 1 }
      let s := (List.range s.part.member.dies).foldl (fun s d => if dieUp s d then thermalOff s d else s) s
      let s := enterVigil s
      { s with bus := { s.bus with linkUp := false }, boot := { s.boot with cause := 4 } }

/-- A dispatch in READY, DOZE or NAP is an exit trigger (R370). -/
def dispatchStep (s : State) : State :=
  let n := s.nextReq
  let s := dispatchGate (dispatchAll s) n
  if s.nextReq = n then s else exitOp s .dispatch

def execDispatch (s : State) : Host.Outcome State Fault Refusal := done (dispatchStep s)
def execHousekeepingRound (die : Nat) (temp : Int) (vcoreMv varrMv : Nat) (biasOk : Bool) (s : State) :
    Host.Outcome State Fault Refusal := done (housekeepingOp s die temp vcoreMv varrMv biasOk)
def execPavilionTempRead (temp : Int) (s : State) : Host.Outcome State Fault Refusal := done (pavTempOp s temp)
def execSupplyWarning (mon : Supply) (s : State) : Host.Outcome State Fault Refusal := done (supplyWarningOp s mon)
def execSupplyWarningClear (mon : Supply) (s : State) : Host.Outcome State Fault Refusal := done (supplyClearOp s mon)
def execSupplyReset (mon : Supply) (s : State) : Host.Outcome State Fault Refusal := done (supplyResetOp s mon)
def execSupHoldEnd (die : Nat) (s : State) : Host.Outcome State Fault Refusal := done (supHoldEndOp s die)
def execPstateEntry (s : State) : Host.Outcome State Fault Refusal := done (entryOp s)
def execPstateExit (trigger : ExitTrigger) (s : State) : Host.Outcome State Fault Refusal := done (exitOp s trigger)

end Sys2Proof.Machine
end

