-- ==== Sys2Proof/Machine/Boot.lean ====
section
/-! DEFINITION. Resets (R409, R258), the start-up sequence and its record (R410 to R417), and the loss of SYSCLK (R433). -/

namespace Sys2Proof.Machine

open Sys2Proof

/-! ### The reset types (R48, R409) -/

/-- SYS_RESET_CAUSE and POR_CAUSE after a reset other than a power-on reset (R54, R419). In VIGIL the cause with which the module
entered it stays for the start of its exit (log 19). -/
def noteReset (s : State) (last : Nat) : State :=
  modBoot s fun b => { b with rstLast := BitVec.ofNat 4 last,
                              rstCount := if b.rstCount = 0xFFFF then b.rstCount else b.rstCount + 1
                              cause := if s.pwr.st = .vigil then b.cause else 0 }

/-- A power-on reset with its cause: the module starts from its fuses, its NV store and its dies' SLC regions (R409, R419). -/
def powerOn (s : State) (cause : Nat) : State :=
  let t := { coldState s false false with tap := { Tap.zero with data := idcode s } }
  beginStart (modBoot t fun b => { b with rstLast := 1, rstCount := 0 }) cause 1

/-- POWER_ON_RESET: supplies are applied, or the supplies that held the module in reset are in range again (R376, R409, R419, R427).
While SYSCLK is absent the module stays in reset (R433). -/
def powerOnResetOp (s : State) : State :=
  if s.pwr.noClk then modPwr s fun p => { p with resetBy := none } else powerOn s (if s.pwr.held then 2 else 1)

/-- SYS_RST#: as a power-on reset, but TB goes on and package memory is kept, where VIGIL has not lost it (R324, R409). -/
def sysRstOp (s : State) : State :=
  if s.pwr.held then s else beginStart (noteReset (coldState s true (s.pwr.st != .vigil)) 2) 0 1

/-- The pages that PERST#, a hot reset and an FLR return to reset values (R48). -/
def hostPage (p : Nat) : Bool :=
  match kindOf p with
  | some (.hsk, _) | some (.hdma0, _) | some (.rng, _) => true
  | _ => false

/-- What the host's resets do at once: rings, HSK and HDMA reset, requests are abandoned with no record, and sessions abort. -/
def hostReset (s : State) : State :=
  let s := (keysOf s.reqs).foldl dropWork s
  let s := imageWritten (resetPages s hostPage fun _ => 0) 5 0
  let x : Option Xfer → Option Xfer := fun t => t.map fun t => { t with req := none }
  let s := { s with
    rings := [], rr := [], reqs := [], sums := [], staging := [], applied := [], feeds := s.feeds.filter fun f => f.taken.isNone && decide (f.src < 32)
    landing := s.landing.filter fun g => match g.cargo with
      | .stripe .. => true
      | _ => false
    xfers := tmap none x s.xfers
    slots := tmap Slot.zero (fun k => { k with actReq := none, retReq := none }) s.slots
    dies := tmap Die.zero (fun d => { d with sweep := { d.sweep with reqs := [] } }) s.dies }
  abortSessions s

/-- Step 0x04 begins outside a start. A start under way goes on beside it with its own record. -/
def beginRelink (s : State) : State :=
  let s := if s.boot.active then s
    else modNv (modBoot s fun b => { b with begun := 4, stepAt := s.belv.tb }) fun n => { n with begun := 4 }
  modBoot s fun b => { b with relink := some s.belv.tb }

/-- Whether a start under way has still to bring the link up with its own step 0x04. -/
def linkAhead (s : State) : Bool := s.boot.active && decide (s.boot.begun ≤ 4)

/-- What PERST# and a hot reset do: the link goes down, and step 0x04 runs again, for PERST# at its de-assertion (R409). -/
def linkReset (s : State) (last : Nat) : State :=
  let s := noteReset (hostReset s) last
  let s := { s with bus := { s.bus with linkUp := false, flr := false, d3hot := false, bars := [], waiting := [] } }
  let s := modBoot s fun b => { b with relink := none }
  if linkAhead s || s.bus.perst then s else beginRelink s

/-- An FLR is initiated: it acts as PERST# without the link, and lasts until it completes (R258, R409). -/
def flrReset (s : State) : State :=
  let s := noteReset (hostReset s) 5
  { s with bus := { s.bus with flr := true, d3hot := false, bars := [], waiting := [] } }

/-- The three resets from the host, by their code in SYS_RESET_CAUSE. -/
def busReset (s : State) (last : Nat) : State := if last = 5 then flrReset s else linkReset s last

/-- A host reset received in NAP or SLEEP is an exit trigger, and acts once PSTATE reads RUN (R370). In VIGIL PERST# alone reaches the
module: it is noted and resets the host's pages, and during the exit it acts as in RUN (R48, R54). -/
def hostResetOp (s : State) (last : Nat) : State :=
  if s.pwr.held then s
  else match s.pwr.st with
    | .vigil =>
      if s.pwr.exitTo.isSome then busReset s last
      else if last = 3 then noteReset (resetPages s hostPage fun _ => 0) 3
      else s
    | .nap | .sleep =>
      let s := if s.pwr.exitTo = some .run then s else startExit s .run
      modPwr s fun p => { p with resetAfter := last }
    | .run | .ready | .doze => busReset s last

/-- PERST# is asserted: it completes a waiting entry into VIGIL, and else resets the host's side (R369, R370, R409). -/
def perstAssertOp (s : State) : State :=
  let s := { s with bus := { s.bus with perst := true } }
  if s.pwr.entry = some .vigil then
    entryOp { s with bus := { s.bus with linkUp := false } }
  else hostResetOp s 3

/-- PERST# is de-asserted: the limit of step 0x04 counts from here, a link that PERST# took down comes up with a step 0x04, and VIGIL
is left (R370, R409, R410, R411). -/
def perstDeassertOp (s : State) : State :=
  let s := { s with bus := { s.bus with perst := false, perstAt := s.belv.tb } }
  let waits := s.bus.linkUp || s.boot.relink.isSome || linkAhead s || s.pwr.held || s.pwr.st == .vigil || s.pwr.resetAfter != 0
  exitOp (if waits then s else beginRelink s) .perstDeassert

/-- An FLR completes within 100 ms (R257, R258). -/
def flrCompleteOp (s : State) : State := { s with bus := { s.bus with flr := false } }

/-- An exit completes, and a reset that waited for it acts (R370). -/
def exitDoneStep (s : State) : State :=
  let s := exitDoneOp s
  if s.pwr.exitTo = none ∧ s.pwr.resetAfter ≠ 0 ∧ s.pwr.st = .run then
    busReset (modPwr s fun p => { p with resetAfter := 0 }) s.pwr.resetAfter
  else s

/-! ### The steps (R410, R415) -/

/-- The duration limit of a step in ms (R410). -/
def stepLimit : Nat → Nat
  | 1 => 5 | 2 => 10 | 3 => 60 | 4 => 100 | 5 => 50 | 6 => 100 | 7 => 50 | 8 => 50 | 9 => 1000 | 0x0A => 100 | 0x0B => 100
  | _ => 50

/-- Whether this start runs as safe boot (R415). -/
def safeStart (s : State) : Bool := s.nv.failRun == 3 || s.nv.noImage

/-- The step after one (R410, R413, R415): safe boot runs 0x01, 0x02, 0x04 and 0x09 alone, and a start after a failed 0x0B skips
it. -/
def stepAfter (s : State) (n : Nat) : Nat :=
  if safeStart s then (if n = 2 ∨ n = 3 then 4 else if n = 4 then 9 else n + 1)
  else if n = 0x0A ∧ s.boot.calStored then 0x0C
  else n + 1

/-- A step begins: BEGUN is written, and for 0x05 and 0x06 the lowest die whose part has not ended. -/
def beginStep (s : State) (n : Nat) : State :=
  let d := if n = 5 ∨ n = 6 then firstDie s else none
  modNv (modBoot s fun b => { b with begun := n, stepAt := s.belv.tb }) fun v => { v with begun := n, die := d }

/-- Step 0x03: the preferred image if it verifies, else the other, else none (R410, R412). -/
def chooseImage (s : State) : State :=
  let p := s.nv.prefer
  let take := fun (s : State) (b : Bool) =>
    let s := modPwr s fun x => { x with digest := some (Config.sha384 (imageOf s b).bytes) }
    modNv (modBoot s fun x => { x with imageB := b, fallback := b != x.prefPrev }) fun v => { v with lastImg := b }
  let r := tryImage s (imageOf s p) false
  if r.1 then take r.2 p
  else
    let r := tryImage r.2 (imageOf s !p) false
    if r.1 then take r.2 !p else modNv r.2 fun v => { v with noImage := true }

/-- The dies that take part in a start. -/
def startDies (s : State) : List Nat := (List.range s.part.member.dies).filter fun d => (dieAt s d).st == .on

/-- Step 0x0B skipped: the stored coefficients are in force, every engine is NEVER and so STALE, and those with a calibration plate are due
with cause bring-up, which begins at the next window (R108, R113, R413). -/
def storedCoefs (s : State) (d : Nat) : State :=
  let ks := (liveEngines s d ++ (s.slc.filter fun x => engDie x.1 == d).map fun x => x.1).dedup
  let s := ks.foldl (fun s k => modEng s k fun e => { e.load (tget Saved.zero s.slc k) with calFrom := s.belv.tb }) s
  let s := ev (mapEngines s (fun x => x == d) fun e => { e with never := true, stale := true }) (pgCal0 d) 0 0
  ks.foldl (fun s k => if (calPlateOf s k).isSome then dueBringUp s k true else s) s

/-- The profile that step 0x0C chooses: the NV value, one step lower after a power-on reset with new shutdown records (R371,
R382). -/
def chooseProfile (s : State) : State :=
  let v := s.nv.profile.toNat
  if s.boot.vigil then s
  else if s.boot.rstLast = 1 ∧ s.boot.shutdowns ≠ 0 ∧ rbit s pgPwr 0x4C 1 = true then ev (setProfile s (v - 1)) pgPwr 7 0
  else setProfile s v

/-- What a step does as it ends. -/
def endStep (s : State) (n : Nat) : State :=
  match n with
  | 3 => chooseImage s
  | 4 =>
    let s := { s with bus := { s.bus with linkUp := true } }
    if s.pwr.st = .vigil then endExit s else s
  | 5 => (startDies s).foldl (fun s d => trainLinks s (fun n => (startDies s).contains n) d) s
  | 6 => (startDies s).foldl (fun s d => modDie s d fun x => { x with up := true, online := true }) s
  | 8 => (startDies s).foldl (fun s d => loadCoefs s d s.slc) s
  | 9 => modNv (modBoot s fun b => { b with ddrFull := !s.nv.ddrStored || safeStart s }) fun v => { v with ddrStored := true }
  | 0x0A =>
    let s := abortSessions ((startDies s).foldl restorePlates (modBoot s fun b => { b with mapUp := true }))
    if s.boot.calStored then (startDies s).foldl storedCoefs s
    else (startDies s).foldl (fun s d => implicitWindow s d s.slc) s
  | 0x0C =>
    let s := chooseProfile s
    let s := modBoot s fun b => { b with ready := true, active := false }
    modNv (rset64 s pgBoot 0x5C s.belv.tb) fun v => { v with failRun := 0, newLogs := v.newLogs - s.boot.shutdowns }
  | _ => s

/-- Safe boot is entered when its last step has ended, or when memory training failed: then the first 32 MiB of device addresses
lie in the ingest SRAM (R415). -/
def enterSafe (s : State) (trained : Bool) : State :=
  let s := modBoot s fun b => { b with safe := true, active := false, noDdr := !trained, ddrFull := true }
  let s := if trained then s else ev s pgBoot 0 9
  ev s pgBoot 2 0

/-- Whether the device has done what a step needs before it can end: PERST# is de-asserted at 0x04, and the implicit window has
ended at 0x0B. -/
def stepReady (s : State) (n : Nat) : Bool :=
  if n = 4 then !s.bus.perst
  else if n = 0x0B then s.engines.all fun e => !e.2.inBringUp
  else true

/-- ENDED is written, and the next step begins. -/
def bootNext (s : State) (n : Nat) : State :=
  let s := modNv (modBoot s fun b => { b with ended := n }) fun v => { v with ended := n }
  let s := if n = 1 ∨ (n = 2 ∧ s.boot.vigil = true) then count s pgBoot 0x64 1 else s
  if n = 0x0C then s
  else if n = 9 ∧ safeStart s = true then enterSafe s true
  else beginStep s (stepAfter s n)

/-- Step 0x04 outside a start ends. -/
def endRelink (s : State) : State :=
  let s := modBoot { s with bus := { s.bus with linkUp := true } } fun b => { b with relink := none }
  if s.boot.active then s else modNv (modBoot s fun b => { b with ended := 4 }) fun v => { v with ended := 4 }

/-- A start-up step's outcome, which is that of a step 0x04 outside the start where one runs and nothing failed (DESIGN CHOICE, log 19):
with a failed part the step does not end, and the record names the lowest such die (R412). Microcode that does not verify ends no step
0x07 (R392). -/
def stepEndOp (s : State) (res : BootResult) : State :=
  let n := s.boot.begun
  let bad := res.badDies.filter fun d => (dieAt s d).st == .on && decide (d < s.part.member.dies)
  if s.boot.relink.isSome ∧ res.ok = true ∧ res.badDies = [] then endRelink s
  else if s.boot.active = false ∨ s.pwr.held ∨ stepReady s n = false then s
  else if (n = 5 ∨ n = 6 ∨ n = 7) ∧ bad ≠ [] then
    if n = 7 then s else modNv s fun v => { v with die := bad.min? }
  else if res.ok = false then
    if n = 9 ∧ safeStart s = true then
      modNv (enterSafe (modBoot s fun b => { b with ended := n }) false) fun v => { v with ended := n }
    else s
  else if n = 7 ∧ (tryImage s (running s) true).1 = false then (tryImage s (running s) true).2
  else bootNext (endStep s n) n

/-- A step of a start, of an exit or of a die's rejoining, or a step 0x04 outside the start, overruns its limit: a power-on reset with cause WATCHDOG (R412). -/
def watchdogOp (s : State) : State :=
  let late := fun (n : Nat) (t : Int) => decide (t + stepLimit n * 1000000 ≤ s.belv.tb) && !(n == 4 && s.bus.perst)
  let main := (s.boot.active || (s.boot.ready && s.boot.begun != s.boot.ended)) &&
    late s.boot.begun (if linkAhead s ∧ s.boot.begun = 4 then max s.bus.perstAt s.boot.startAt else s.boot.stepAt)
  let link := match s.boot.relink with | some t => late 4 t | none => false
  if s.pwr.held = false ∧ (main || link) = true then powerOn s 3 else s

/-- BOOT_CTRL.RETRY in safe boot: FAIL_RUN returns to 0, and a power-on reset with cause RETRY follows (R416). -/
def retryOp (s : State) : State :=
  if s.boot.safe then powerOn (modNv s fun v => { v with failRun := 0 }) 5 else s

/-- BOOT_SKIP_CLR clears skip marks; it takes effect at the next start (R413). -/
def skipClr (s : State) (w : W32) : State :=
  modNv s fun v => { v with skip := v.skip &&& ~~~BitVec.ofNat 16 (fld w 15 0) }

/-! ### A die rejoins (R376, R380, R409, R417) -/

/-- A die runs steps 0x06, 0x07, 0x08, 0x0A and 0x0B of its bring-up. Microcode that does not verify leaves it down (R392). For a die that
fell back in an exit the steps are recorded (R417). -/
def dieRejoinOp (s : State) (d : Nat) : State :=
  if mayRejoin s d = false then s
  else
    let fell := (dieAt s d).fell
    let r := tryImage s (running s) true
    if r.1 = false then (if fell then recordStep r.2 7 6 else r.2)
    else
      let s := bringUp r.2 d s.slc
      if fell then recordWindow (recordStep s 0x0B 0x0A) else s

/-! ### SYSCLK (R433) -/

/-- No SYSCLK edge for 10 µs: the module is held in reset while SYSCLK is absent. -/
def sysclkLossOp (s : State) : State := holdInReset s none

/-- SYSCLK returns: a power-on reset with cause 2, once no supply is below its reset level (R427). -/
def sysclkReturnOp (s : State) : State :=
  if s.pwr.noClk = false then s
  else if s.pwr.resetBy.isSome then modPwr s fun p => { p with noClk := false }
  else powerOn s 2

def execSysclkLoss (s : State) : Host.Outcome State Fault Refusal := done (sysclkLossOp s)
def execSysclkReturn (s : State) : Host.Outcome State Fault Refusal := done (sysclkReturnOp s)
def execPowerOnReset (s : State) : Host.Outcome State Fault Refusal := done (powerOnResetOp s)
def execSysRst (s : State) : Host.Outcome State Fault Refusal := done (sysRstOp s)
def execPerstAssert (s : State) : Host.Outcome State Fault Refusal := done (perstAssertOp s)
def execPerstDeassert (s : State) : Host.Outcome State Fault Refusal := done (perstDeassertOp s)
def execHotReset (s : State) : Host.Outcome State Fault Refusal := done (hostResetOp s 4)
def execFlr (s : State) : Host.Outcome State Fault Refusal := done (hostResetOp s 5)
def execFlrComplete (s : State) : Host.Outcome State Fault Refusal := done (flrCompleteOp s)
def execBootStepEnd (res : BootResult) (s : State) : Host.Outcome State Fault Refusal := done (stepEndOp s res)
def execBootWatchdog (s : State) : Host.Outcome State Fault Refusal := done (watchdogOp s)
def execDieRejoin (die : Nat) (s : State) : Host.Outcome State Fault Refusal := done (dieRejoinOp s die)
/-- The end of an engine calibration may end step 0x0B of an exit or of a die's rejoining. -/
def execEngineCalEnd (eng : Nat) (groups : List CalMeas) (s : State) : Host.Outcome State Fault Refusal :=
  done (recordWindow (engineCalEndOp s eng groups))

end Sys2Proof.Machine
end

