-- ==== Sys2Proof/Machine/Isu.lean ====
section
/-! DEFINITION. The illuminator and sense unit: strobes and their limits (R346, R347), the interlock (R348 to R350),
setpoint outputs (R351 to R354), converters and sequences (R355 to R358), plausibility (R359), calibration (R360 to
R362). Its domain D3 may be off, and then nothing of it acts (R231, R350). -/

namespace Sys2Proof.Machine

open Sys2Proof

def stbAt (s : State) (n : Nat) : Strobe := tget Strobe.zero s.isu.stb n
def modIsu (s : State) (f : Isu → Isu) : State := { s with isu := f s.isu }
def putStb (s : State) (n : Nat) (v : Strobe) : State := modIsu s fun i => { i with stb := tset Strobe.zero i.stb n v }
def watchAt (s : State) (n : Nat) : Watch := tget Watch.zero s.isu.watch n
def putWatch (s : State) (n : Nat) (v : Watch) : State := modIsu s fun i => { i with watch := tset Watch.zero i.watch n v }
def dacAt (s : State) (n : Nat) : Dac := tget Dac.zero s.isu.dac n
def putDac (s : State) (n : Nat) (v : Dac) : State := modIsu s fun i => { i with dac := tset Dac.zero i.dac n v }
def convAt (s : State) (k : Nat) : Conv := tget Conv.zero s.isu.conv k
def putConv (s : State) (k : Nat) (v : Conv) : State := modIsu s fun i => { i with conv := tset Conv.zero i.conv k v }

/-! ### Conversion sequences (R356, R357) -/

def seqCfg (s : State) (q : Nat) : W32 := rget s pgIsu2 (0xA0 + 8 * q)

/-- The channels of a sequence's slots below LEN. -/
def seqChans (s : State) (q : Nat) : List Nat :=
  let w := rget s pgIsu2 (0xA4 + 8 * q)
  (List.range (fld (seqCfg s q) 3 0)).map fun i => fld w (4 * i + 3) (4 * i)

/-- A trigger of a sequence on a converter takes a snapshot of it; a bad one starts nothing, and one that finds the
pending place of its kind occupied is dropped (R356, R357). On converter A it also takes a plausibility pair (R359). -/
def seqTrigger (s : State) (k : Nat) (inj : Bool) (q : Nat) : State :=
  let ch := seqChans s q
  if ch.isEmpty || ch.any (· == 15) || !rbit s pgIsu2 0x40 k then ev s pgIsu2 8 q
  else
    let c := convAt s k
    let x : Seq := ⟨q, ch, s.belv.tb + fld (seqCfg s q) 31 16, false⟩
    let pl := rget s pgIsu2 0x4C
    let c' := if k = 0 ∧ bit pl 31 then { c with plaus := c.plaus ++ [(fld pl 19 16, q)] } else c
    let drop := fun (_ : Unit) => ev (count s pgIsu2 0x124 1) pgIsu2 2 k
    if inj then
      match c.inj, c.injNext with
      | none, _ => putConv s k { c' with inj := some x }
      | some _, none => putConv s k { c' with injNext := some x }
      | some _, some _ => drop ()
    else
      match c.reg, c.regNext with
      | none, _ => putConv s k { c' with reg := some x }
      | some _, none => putConv s k { c' with regNext := some x }
      | some _, some _ => drop ()

/-- The sequences that an edge of a strobe triggers, in ascending order (R356). -/
def strobeSeqs (s : State) (out : Nat) (falling : Bool) : State :=
  (List.range 16).foldl (fun s q =>
    let w := seqCfg s q
    if bit w 15 && fld w 14 13 == out && bit w 12 == falling then seqTrigger s (fld w 10 10) (bit w 11) q else s) s

/-! ### Strobes (R346, R347) -/

/-- An edge at the pin fires STROBE entries and triggers sequences (R223, R356). -/
def strobeEdge (s : State) (out : Nat) (falling : Bool) : State :=
  strobeSeqs (triggerStrobe s out falling s.belv.tb) out falling

/-- A high pin falls. -/
def strobeFall (s : State) (out : Nat) : State :=
  let b := stbAt s out
  if b.high then
    let past := (b.past ++ [(b.rise, (s.belv.tb : Int))]).filter fun x => decide ((s.belv.tb : Int) < x.2 + 1000000000)
    strobeEdge (putStb s out { b with high := false, past := past }) out true
  else s

/-- The pin's high time in the window of WIN ms that ends at an instant, were the pin high from now on (R347). -/
def highTime (s : State) (out t : Nat) : Nat :=
  let b := stbAt s out
  let lo : Int := (t : Int) - (rfld s pgIsu0 0x48 9 0 * 1000000 : Nat)
  let from_ : Int := if b.high then b.rise else s.belv.tb
  (b.past.map fun x => (x.2 - max x.1 lo).toNat).sum + (t - max from_ lo).toNat

/-- The duty budget in ns: DUTY / 1,000 × WIN (R347). -/
def dutyBudget (s : State) : Nat := rfld s pgIsu0 0x44 21 12 * rfld s pgIsu0 0x48 9 0 * 1000

/-- Whether one more nanosecond high would exceed the duty budget. -/
def dutyFull (s : State) (out : Nat) : Bool := decide (dutyBudget s < highTime s out (s.belv.tb + 1))

/-- Whether EXTEST, CLAMP or HIGHZ is in force, under which the strobes stay low (R437). -/
def scanLow (s : State) : Bool := s.tap.ir == 0 || s.tap.ir == 3 || s.tap.ir == 4

/-- The STROBE_PULSE action (R346, R347, R349): blocked while the interlock is tripped or the output is disabled; an
output already high has its end moved; a pulse that finds the budget used up makes no edge, and neither does one under a boundary
instruction that holds the pins (R437; that it is then lost uncounted: DESIGN CHOICE, log 37). -/
def strobePulse (s : State) (out width : Nat) : State :=
  let b := stbAt s out
  if s.isu.tripped || !rbit s pgIsu0 0x40 out then ev (count s pgIsu0 0x78 1) pgIsu0 2 out
  else if scanLow s then s
  else if b.high then putStb s out { b with until_ := max b.until_ (s.belv.tb + width) }
  else if dutyFull s out then ev (count s pgIsu0 0x74 1) pgIsu0 1 out
  else strobeEdge (putStb s out { b with high := true, rise := s.belv.tb, until_ := s.belv.tb + width }) out false

/-- A pulse reaches its end (R346). -/
def strobeEndOp (s : State) (out : Nat) : State :=
  let b := stbAt s out
  if b.high ∧ b.until_ ≤ s.belv.tb then strobeFall s out else s

/-- A pin high for MAX_W µs falls (R347). -/
def widthClipOp (s : State) (out : Nat) : State :=
  let b := stbAt s out
  if b.high ∧ b.rise + (rfld s pgIsu0 0x44 10 0 * 1000 : Nat) ≤ s.belv.tb then
    strobeFall (ev (count s pgIsu0 0x70 1) pgIsu0 0 out) out
  else s

/-- A pin falls at the instant its high time would exceed the duty budget (R347). -/
def dutyOp (s : State) (out : Nat) : State :=
  if (stbAt s out).high ∧ dutyFull s out = true then strobeFall (ev (count s pgIsu0 0x74 1) pgIsu0 1 out) out else s

/-- Outputs whose EN is 0 are driven low (R346). -/
def strobeEnables (s : State) : State :=
  (List.range 4).foldl (fun s n => if rbit s pgIsu0 0x40 n then s else strobeFall s n) s

/-! ### Setpoint outputs (R352, R353) -/

/-- A load of the outputs in a mask: each enabled one takes its staged code up to MAX; under a ramp the load is held. -/
def dacLoad1 (s : State) (n : Nat) : State :=
  let d := dacAt s n
  if rbit s pgIsu1 (0x50 + 16 * n) 0 = false then s
  else if d.ramp.isSome then putDac s n { d with held := true }
  else
    let c := rfld s pgIsu1 (0x54 + 16 * n) 15 0
    let m := rfld s pgIsu1 (0x5C + 16 * n) 15 0
    let s := putDac s n { d with code := BitVec.ofNat 16 (min c m) }
    if m < c then ev (count s pgIsu1 0x44 1) pgIsu1 8 n else s

def dacLoad (s : State) (mask : Nat) : State :=
  (List.range 4).foldl (fun s n => if mask.testBit n then dacLoad1 s n else s) s

/-- An output's active and staged codes become 0, and a driven one ramps to zero (R353). -/
def dacToZero (s : State) (n : Nat) : State :=
  let d := dacAt s n
  rset (putDac s n { d with code := 0, ramp := if d.driven then some s.belv.tb else d.ramp }) pgIsu1 (0x54 + 16 * n) 0

/-- A write of ISU_DAC_CFGn with the value it stores (R353). -/
def dacCfg (s : State) (n : Nat) (w : W32) : State :=
  let old := rget s pgIsu1 (0x50 + 16 * n)
  let s := rset s pgIsu1 (0x50 + 16 * n) w
  if bit old 0 then
    if bit w 0 = false ∨ fld old 2 1 ≠ fld w 2 1 then dacToZero s n else s
  else if bit w 0 then putDac s n { dacAt s n with driven := true, code := 0 }
  else dacToZero s n

/-- A ramp ends within 20 µs: a held load is applied, and a disabled output returns to high impedance (R353). -/
def dacRampEndOp (s : State) (n : Nat) : State :=
  let d := dacAt s n
  if d.ramp.isSome then
    let s := putDac s n { d with ramp := none, held := false, driven := rbit s pgIsu1 (0x50 + 16 * n) 0 }
    if d.held then dacLoad1 s n else s
  else s

/-- SC in voltage mode, live while the output is held at its current limit (R354); the operand says which edge came. -/
def dacScOp (s : State) (n : Nat) (live : Bool) : State :=
  let d := dacAt s n
  if live then
    if d.driven ∧ rbit s pgIsu1 (0x50 + 16 * n) 1 = false then ev (putDac s n { d with scLive := true }) pgIsu1 n n else s
  else putDac s n { d with scLive := false }

/-- OPEN in current mode (R354). -/
def dacOpenOp (s : State) (n : Nat) (live : Bool) : State :=
  let d := dacAt s n
  if live then
    if d.driven ∧ rbit s pgIsu1 (0x50 + 16 * n) 1 then ev (putDac s n { d with opLive := true }) pgIsu1 (4 + n) n else s
  else putDac s n { d with opLive := false }

/-! ### The interlock (R348 to R350) -/

/-- The interlock trips: every strobe is driven low, SAFE# is asserted, and the outputs of DAC_OFF ramp to zero (R349).
While it is tripped, no further trip changes it. -/
def trip (s : State) (byPlaus : Bool) (w : Nat) : State :=
  if s.isu.tripped then s
  else
    let s := modIsu s fun i => { i with tripped := true, byPlaus := byPlaus, watchNo := BitVec.ofNat 2 w
                                        watch := tmap Watch.zero (fun x => { x with seen := false }) i.watch }
    let s := (List.range 4).foldl strobeFall s
    let s := (List.range 4).foldl (fun s n =>
      if rbit s pgIsu0 0x4C (8 + n) then dacToZero s n else s) s
    ev (count s pgIsu0 0x7C 1) pgIsu0 3 (if byPlaus then 0 else w)

/-- The watches that a channel's result concerns. -/
def watchesOf (s : State) (ch : Nat) : List Nat :=
  (List.range 4).filter fun w =>
    let cfg := rget s pgIsu0 (0x50 + 8 * w)
    bit cfg 31 && fld cfg 27 24 == ch

/-- A watch after it has examined a result (R348). -/
def examine1 (s : State) (w code : Nat) (ovr : Bool) : State :=
  let above := ovr || decide (rfld s pgIsu0 (0x50 + 8 * w) 15 0 < code)
  putWatch s w ⟨if above then min ((watchAt s w).count + 1) 15 else 0, BitVec.ofNat 16 code, true, !ovr⟩

/-- Every watch of a channel examines a result; the lowest whose count has reached N with it trips the interlock (R348). -/
def examine (s : State) (ch code : Nat) (ovr : Bool) : State :=
  let ws := watchesOf s ch
  let s := ws.foldl (fun s w => examine1 s w code ovr) s
  match ws.find? fun w =>
      let n := (watchAt s w).count
      n != 0 && decide (rfld s pgIsu0 (0x50 + 8 * w) 23 20 ≤ n) with
  | some w => trip s false w
  | none => s

/-- A RELEASE is accepted only if every enabled watch has examined a result since the trip and its latest is in limit
with OVR at 0 (R350). -/
def releaseOk (s : State) : Bool :=
  (List.range 4).all fun w =>
    let cfg := rget s pgIsu0 (0x50 + 8 * w)
    let x := watchAt s w
    !bit cfg 31 || (x.seen && x.inLim && decide (x.last.toNat ≤ fld cfg 15 0))

/-- A RELEASE, which is accepted or refused (R350). -/
def ilkRelease (s : State) : State :=
  if releaseOk s then
    modIsu s fun i => { i with tripped := false, watch := tmap Watch.zero (fun x => { x with count := 0 }) i.watch }
  else ev s pgIsu0 4 0

/-! ### Conversions (R355, R357, R358, R360) -/

/-- A raw code corrected by the coefficients of its pair (R360). -/
def corrected (s : State) (k ch : Nat) (r : Int) : Nat :=
  let c := tget CalCoef.zero s.nv.isuCoef (k * 16 + ch)
  if c.valid then
    (clampInt 0 65535 (c.zt + divAway ((64 * r - c.sz) * ((c.ft : Int) - c.zt)) (max c.d 1))).toNat
  else (clampInt 0 65535 r).toNat

/-- The code that a result reads; one outside the span reads its end (R355). -/
def resultCode (s : State) (k ch : Nat) (m : Meas) : Nat :=
  if m.sat then (if m.code ≤ 0 then 0 else 65535) else corrected s k ch m.code

/-- A result goes to the data register and to ISU_CH_LAST (R358). -/
def adcResult (s : State) (k ch q code : Nat) (inj ovr : Bool) : State :=
  let c := convAt s k
  let orun := bit c.data 31
  let w := putBit 31 true ||| putBit 30 orun ||| putBit 29 ovr ||| putBit 28 inj ||| put 27 24 q ||| put 23 20 ch ||| put 15 0 code
  let s := putConv s k { c with data := w }
  let last := putBit 31 true ||| putBit 29 ovr ||| putBit 28 (k == 1) ||| put 15 0 code
  let s := modIsu s fun i => { i with chLast := tset 0 i.chLast ch last }
  let s := if orun then ev (count s pgIsu2 0x120 1) pgIsu2 k k else s
  if ovr then ev s pgIsu2 7 k else s

/-- Whether a sequence is due, or has begun. -/
def seqDue (s : State) (q : Option Seq) : Bool :=
  match q with
  | some q => q.begun || decide (q.at_ ≤ s.belv.tb)
  | none => false

/-- Whether a converter has injected work: a pair or an injected conversion in progress, or an injected sequence that is
due or has begun (R357). -/
def injWork (s : State) (k : Nat) : Bool :=
  let c := convAt s k
  (match c.busy with
    | some (.injected, _, _) => true
    | some (.plaus, _, _) => true
    | _ => false) || seqDue s c.inj || seqDue s c.injNext

/-- Injected work that holds a calibration command back: what is pending counts, in its DELAY too, and a plausibility pair counts on
both converters (R357, R359, R362). -/
def calHeld (s : State) (k : Nat) : Bool :=
  injWork s k || (convAt s k).inj.isSome || (convAt s k).injNext.isSome || !(convAt s 0).plaus.isEmpty

/-- The same, for converter A before a plausibility pair: a sequence whose first conversion waits for the pair does not
count (R359). -/
def injBegun (s : State) : Bool :=
  let c := convAt s 0
  (match c.busy with
    | some (.injected, _, _) => true
    | some (.plaus, _, _) => true
    | _ => false) ||
  (match c.inj with
    | some q => q.begun
    | none => false)

/-- Whether a calibration holds a converter, and whether one takes its conversions there (R362). -/
def calOn (s : State) (k : Nat) : Bool :=
  match s.isu.cal with
  | some c => c.conv == k
  | none => false
def calRuns (s : State) (k : Nat) : Bool :=
  match s.isu.cal with
  | some c => c.conv == k && !c.wait
  | none => false

/-- Whether a sequence may take its next conversion: it has begun, or its start has come and no pair precedes it. -/
def seqReady (s : State) (k : Nat) (q : Seq) : Bool :=
  q.begun || (decide (q.at_ ≤ s.belv.tb) && (k != 0 || (convAt s 0).plaus.isEmpty))

/-- Whether an injected conversion takes its turn on a converter: one is in progress, or a sequence may take its next one. One that
waits for a pair, which waits for calibrations to end, does not yet (R359). -/
def injTurn (s : State) (k : Nat) : Bool :=
  let c := convAt s k
  let ready := fun (q : Option Seq) => match q with | some q => seqReady s k q | none => false
  (match c.busy with
    | some (.injected, _, _) => true
    | some (.plaus, _, _) => true
    | _ => false) || ready c.inj || ready c.injNext

/-- The sequence that comes first of a running and a pending one: the one that has begun, and else the first to be due (R357). -/
def seqOrder (a b : Option Seq) : Option Seq × Option Seq :=
  match a, b with
  | some x, some y => if !x.begun && decide (y.at_ < x.at_) then (b, a) else (a, b)
  | _, _ => (a, b)

/-- A converter's sequences in the order in which they come. -/
def Conv.ordered (c : Conv) : Conv :=
  let i := seqOrder c.inj c.injNext
  let r := seqOrder c.reg c.regNext
  { c with inj := i.1, injNext := i.2, reg := r.1, regNext := r.2 }

/-- A converter begins its next conversion by precedence: a plausibility pair on both, injected, regular (R357, R359). A
conversion of lower precedence in progress is aborted, and its slot restarts later. -/
def conversionStartOp (s : State) (k : Nat) : State :=
  if s.pwr.d3off then s
  else
    let a := convAt s 0
    let b := convAt s 1
    match a.plaus with
    | (ch, _) :: _ =>
      if !calRuns s 0 && !calRuns s 1 && !injBegun s && !injWork s 1 then
        putConv (putConv s 0 { a with busy := some (.plaus, ch, s.belv.tb), half := none }) 1
          { b with busy := some (.plaus, ch, s.belv.tb), half := none }
      else seqStart s k
    | [] => seqStart s k
where
  /-- The conversion of a sequence begins. -/
  seqStart (s : State) (k : Nat) : State :=
    let c := (convAt s k).ordered
    let inj : Option Seq := match c.busy with
      | some (.injected, _, _) => none
      | some (.plaus, _, _) => none
      | _ => c.inj.filter fun q => seqReady s k q
    match inj with
    | some q => putConv s k { c with inj := some { q with begun := true }, busy := some (.injected, q.chans.headD 0, s.belv.tb) }
    | none =>
      if c.busy.isNone && !calOn s k && !injWork s k then
        match c.reg.filter fun q => seqReady s k q with
        | some q => putConv s k { c with reg := some { q with begun := true }, busy := some (.regular, q.chans.headD 0, s.belv.tb) }
        | none => s
      else s

/-- CAL_CLR: the pair's coefficients are not VALID any more (R361). -/
def calClear (s : State) (key : Nat) : State :=
  let c := tget CalCoef.zero s.nv.isuCoef key
  { s with nv := { s.nv with isuCoef := tset CalCoef.zero s.nv.isuCoef key { c with valid := false } } }

/-- A waiting calibration command begins once no injected work remains on its converter, and a waiting CAL_CLR acts (R362). -/
def calUnwait (s : State) : State :=
  match s.isu.cal with
  | some c =>
    if c.wait && !calHeld s c.conv then
      if c.cmd = 3 then calClear (modIsu s fun i => { i with cal := none }) (c.conv * 16 + c.ch)
      else modIsu s fun i => { i with cal := some { c with wait := false } }
    else s
  | none => s

/-- A sequence less the slot just converted. -/
def Seq.advance (q : Seq) : Option Seq :=
  match q.chans with
  | _ :: c :: l => some { q with chans := c :: l }
  | _ => none

/-- The halves of a plausibility pair are compared once both are in (R359). -/
def plausJudge (s : State) (ch : Nat) : State :=
  let a := convAt s 0
  let b := convAt s 1
  match a.half, b.half with
  | some x, some y =>
    let s := putConv s 0 { a with plaus := a.plaus.tail, half := none }
    let s := putConv s 1 { b with half := none }
    let s := rset s pgIsu2 0x50 (put 31 16 y.code.toNat ||| put 15 0 x.code.toNat)
    let s := examine (examine s ch x.code.toNat x.sat) ch y.code.toNat y.sat
    let diff := (x.code - y.code).natAbs
    if ((x.sat || y.sat) && diff != 0) || decide (rfld s pgIsu2 0x4C 15 0 < diff) then
      let s := ev (count s pgIsu2 0x128 1) pgIsu2 3 0
      if rbit s pgIsu0 0x4C 4 then trip s true 0 else s
    else s
  | _, _ => s

/-- A conversion, 500 ns after its start, gives its result (R355, R358, R359); the operand is what was measured. -/
def conversionDoneOp (s : State) (k : Nat) (m : Meas) : State :=
  let c := convAt s k
  match c.busy with
  | none => s
  | some (kind, ch, t) =>
    if s.belv.tb < t + 500 then s
    else
      let code := resultCode s k ch m
      match kind with
      | .regular =>
        let q := c.reg.getD ⟨0, [], 0, true⟩
        let nx := q.advance
        let s := putConv s k { c with busy := none, reg := if nx.isSome then nx else c.regNext,
                                       regNext := if nx.isSome then c.regNext else none }
        calUnwait (examine (adcResult s k ch q.seq code false m.sat) ch code m.sat)
      | .injected =>
        let q := c.inj.getD ⟨0, [], 0, true⟩
        let nx := q.advance
        let s := putConv s k { c with busy := none, inj := if nx.isSome then nx else c.injNext,
                                       injNext := if nx.isSome then c.injNext else none }
        calUnwait (examine (adcResult s k ch q.seq code true m.sat) ch code m.sat)
      | .plaus =>
        let q := ((convAt s 0).plaus.headD (0, 0)).2
        let s := putConv s k { c with busy := none, half := some ⟨code, m.sat⟩ }
        calUnwait (plausJudge (adcResult s k ch q code true m.sat) ch)
      | .cal => putConv s k { c with busy := none }

/-! ### System calibration (R360 to R362) -/

/-- A refused calibration keeps the coefficients, discards the pending zero and is counted (R361). -/
def calRefuse (s : State) (key res : Nat) : State :=
  count (modIsu s fun i => { i with cal := none, calRes := res, zeroSum := tset none i.zeroSum key none }) pgIsu2 0x12C 1

/-- A write of ISU_CAL (R361, R362). -/
def isuCal (s : State) (w : W32) : State :=
  let cmd := fld w 31 30
  let k := fld w 28 28
  let ch := fld w 27 24
  if cmd = 0 then s
  else if s.isu.cal.isSome then ev s pgIsu2 6 k
  else
    let wait := calHeld s k
    if cmd = 3 ∧ wait = false then calClear s (k * 16 + ch)
    else
      let s := modIsu s fun i => { i with cal := some ⟨cmd, k, ch, wait⟩ }
      if wait then ev s pgIsu2 5 k else s

/-- The 64 conversions of a calibration command have been taken, with no injected conversion to take its turn on the converter (R361,
R362); the operands are their raw results. -/
def isuCalDoneOp (s : State) (codes : List Meas) : State :=
  match s.isu.cal with
  | none => s
  | some c =>
    if c.wait = true ∨ codes.length ≠ 64 ∨ injTurn s c.conv = true then s
    else
      let key := c.conv * 16 + c.ch
      let sum := ((codes.map fun (m : Meas) => m.code).sum).toNat
      let ovr := codes.any fun m => m.sat
      let s := if ovr then ev s pgIsu2 7 c.conv else s
      if c.cmd = 1 then
        if ovr then calRefuse s key 4
        else modIsu s fun i => { i with cal := none, calRes := 1, zeroSum := tset none i.zeroSum key (some sum) }
      else
        let zt := rfld s pgIsu2 0x58 15 0
        let ft := rfld s pgIsu2 0x58 31 16
        match tget none s.isu.zeroSum key with
        | none => ev (calRefuse s key 5) pgIsu2 6 c.conv
        | some sz =>
          if ovr then calRefuse s key 4
          else if ft ≤ zt ∨ 100 * ((sum : Int) - sz) < 4194304 then ev (calRefuse s key 3) pgIsu2 4 c.conv
          else
            let v : CalCoef := ⟨true, sz, (sum : Int) - sz, zt, ft⟩
            let s := modIsu s fun i => { i with cal := none, calRes := 2 }
            { s with nv := { s.nv with isuCoef := tset CalCoef.zero s.nv.isuCoef key v } }

/-- A write of ISU_CAL_INDEX takes a snapshot of a pair's coefficients (R365). -/
def isuCalSnapshot (s : State) : State :=
  let c := tget CalCoef.zero s.nv.isuCoef (rfld s pgIsu2 0x130 4 0)
  rset (rset s pgIsu2 0x134 (putBit 31 c.valid ||| put 21 0 c.sz)) pgIsu2 0x138 (put 21 0 c.d.toNat)

/-- A read of a data register clears VALID and ORUN where byte 3 is enabled (R34, R358). -/
def adcRead (s : State) (k : Nat) (be : BitVec 4) : State :=
  if be.getLsbD 3 then putConv s k { convAt s k with data := (convAt s k).data &&& ~~~maskOf 31 30 } else s

def execIsuCalDone (codes : List Meas) (s : State) : Host.Outcome State Fault Refusal := done (isuCalDoneOp s codes)
def execStrobeEnd (out : Nat) (s : State) : Host.Outcome State Fault Refusal := done (strobeEndOp s out)
def execWidthClip (out : Nat) (s : State) : Host.Outcome State Fault Refusal := done (widthClipOp s out)
def execDutyEnd (out : Nat) (s : State) : Host.Outcome State Fault Refusal := done (dutyOp s out)
def execConversionStart (conv : Nat) (s : State) : Host.Outcome State Fault Refusal := done (conversionStartOp s conv)
def execConversionDone (conv : Nat) (meas : Meas) (s : State) : Host.Outcome State Fault Refusal :=
  done (conversionDoneOp s conv meas)
def execDacRampEnd (out : Nat) (s : State) : Host.Outcome State Fault Refusal := done (dacRampEndOp s out)
def execDacSc (out : Nat) (live : Bool) (s : State) : Host.Outcome State Fault Refusal := done (dacScOp s out live)
def execDacOpen (out : Nat) (live : Bool) (s : State) : Host.Outcome State Fault Refusal := done (dacOpenOp s out live)

end Sys2Proof.Machine
end

