-- ==== Sys2Proof/Machine/Action.lean ====
section
/-! DEFINITION. What an issued action does (R225, R229 to R231), commit groups (R233 to R235, R45 to R47), calibration windows
(R232), and the record of a finished request (R273). -/

namespace Sys2Proof.Machine

open Sys2Proof

/-! ### Commit groups -/

/-- PAGE_COMMIT of a page. -/
def commitWord (s : State) (p : Nat) : W32 := rget s p 0x30

/-- Whether a page is armed for a group (R47). -/
def armedFor (s : State) (g p : Nat) : Bool :=
  let w := commitWord s p
  bit w 31 && fld w 3 0 == g && pageReach s p == .ok

/-- Whether a page is a member of a group whose outcome has been decided and is still to come (R234). -/
def pageHeld (s : State) (p : Nat) : Bool :=
  s.groups.any fun e => e.2.held.isSome && e.2.members.contains p

/-- The outcome of a COMMIT, decided at J on the membership that exists then (R234). -/
def judgeGroup (s : State) (g : Nat) : Verdict :=
  let x := groupAt s g
  let low := rfld s pgBlv3 (0xC0 + 4 * g) 11 0
  if x.members = [] ∧ low = 0 then .empty
  else if x.members ≠ [] ∧ low ≤ x.members.length ∧ (x.members.all fun p => armedFor s g p) = true then .applied
  else .refused

/-- A COMMIT of a group with instant T is dispatched: it is judged at once, or after the outcome that is held. -/
def commitAction (s : State) (g t : Nat) : State :=
  let x := groupAt s g
  match x.held with
  | some _ => putGroup s g { x with after := x.after ++ [t] }
  | none => putGroup s g { x with held := some (t, judgeGroup s g) }

/-- The offsets of a page's shadowed registers (R44). -/
def shadowedOffs (p : Nat) : List Nat :=
  match kindOf p with
  | some (k, _) => if hasShadow k then ((rowsOf k).filter fun r => r.shad).map fun r => r.first else []
  | none => []

/-- A member takes an applied commit: its shadow becomes active, and an applied profile goes to the NV record (R47, R371). -/
def applyMember (s : State) (t p : Nat) : State :=
  let s := (shadowedOffs p).foldl (fun s o => rset s p o (rget s p (0x800 + o))) s
  let s := rset64 (rset s p 0x30 (commitWord s p &&& 0x0000000F)) p 0x34 t
  if p = pgPwr then { s with nv := { s.nv with profile := BitVec.ofNat 2 (rfld s pgPwr 0x44 1 0) } } else s

/-- A member takes a refused commit (R47). -/
def refuseMember (s : State) (g t p : Nat) : State :=
  if pageReach s p ≠ .ok then s
  else
    let w := commitWord s p ||| 0x00010000
    let w := if bit w 31 && fld w 3 0 == g then w &&& 0x7FFFFFFF else w
    ev (rset64 (rset s p 0x30 w) p 0x34 t) p 28 (0x7000 + g)

/-- The members of the next outcome become those that joined, and a COMMIT that waited is judged on them (R234). -/
def nextOutcome (s : State) (g : Nat) (last : BitVec 2) : State :=
  let x := groupAt s g
  let s := putGroup s g { members := x.joining, joining := [], held := none, after := x.after.tail, last := last }
  match x.after with
  | t :: _ => putGroup s g { groupAt s g with held := some (t, judgeGroup s g) }
  | [] => s

/-- The instant of a decided commit comes. A member reset meanwhile does not apply; the others do (R234). -/
def commitApplyOp (s : State) (g : Nat) : State :=
  let x := groupAt s g
  match x.held with
  | none => s
  | some (t, v) =>
    if s.belv.tb < t then s
    else match v with
      | .applied =>
        let s := (x.members.filter fun p => armedFor s g p).foldl (fun s p => applyMember s t p) s
        nextOutcome (count s pgBlv3 0x140 1) g 1
      | .refused =>
        let s := x.members.foldl (fun s p => refuseMember s g t p) s
        nextOutcome (ev (count s pgBlv3 0x144 1) pgBlv0 10 g) g 2
      | .empty => nextOutcome s g 3

/-! ### Calibration windows (R232) -/

/-- CAL_WINDOW is dispatched with instant T: its profile is read now; with nothing to cover it has no effect. -/
def windowAction (s : State) (n k t : Nat) : State :=
  let m := rget s pgBlv3 (0x40 + 8 * k)
  let len := rfld s pgBlv3 (0x44 + 8 * k) 19 0
  let dies := BitVec.ofNat 16 (fld m 15 0)
  if len = 0 ∨ fld m 31 16 = 0 ∨ (bitsOf dies).any (fun d => dieUp s d) = false then noEffect s n
  else
    let w : Window := { openAt := t, closeAt := t + len, dies := dies, cores := BitVec.ofNat 16 (fld m 31 16), isOpen := false, defer := [] }
    { putWin s s.nextWin (some w) with nextWin := s.nextWin + 1 }

/-- A window opens, which ends READY and DOZE (R232, R370). -/
def windowOpenOp (s : State) (n : Nat) : State :=
  match winAt s n with
  | some w => if w.isOpen = false ∧ w.openAt ≤ s.belv.tb then exitOp (openWindow s n) .window else s
  | none => s

/-- A window closes: engines that were deferred throughout stay due and are counted (R104, R110). -/
def windowCloseOp (s : State) (n : Nat) : State :=
  match winAt s n with
  | some w => if w.isOpen ∧ w.closeAt ≤ s.belv.tb then (tryCals (putWin s n none) w.defer).1 else s
  | none => s

/-! ### The actions (R225) -/

/-- An action reaches its unit; `t` is its instant and `late` whether it is late. -/
def perform (s : State) (n : Nat) (e : Entry) (t : Nat) (late : Bool) : State :=
  match e.action with
  | 0 =>
    let r := e.arg 12 0
    if releasable s r then ringRelease s r (e.arg 27 16) late else noEffect s n
  | 1 => if s.pwr.d3off then noEffect s n else seqTrigger s (e.arg 4 4) (decide (e.arg 5 5 = 1)) (e.arg 3 0)
  | 2 => if s.pwr.d3off then noEffect s n else dacLoad s (e.arg 3 0)
  | 3 => if s.pwr.d3off then noEffect s n else strobePulse s (e.arg 1 0) (e.arg 21 2)
  | 4 => commitAction s (e.arg 3 0) t
  | 5 => submitJob s (e.arg 10 8) (e.arg 7 0)
  | _ => windowAction s n (e.arg 3 0) t

/-- The issue of an entry's action, or the dispatch of one with a lead: its lateness is judged, it takes a place of its
microsecond, reaches its unit, meets gates, and fires the CHAIN entries (R223, R228 to R231, R268). -/
def actionIssueOp (s : State) (n : Nat) : State :=
  let s := if launchOn s then judgeLate s n else s
  let e := entryAt s n
  match e.pend with
  | none => s
  | some f =>
    if mayIssue s n f = false then s
    else
      let t := if f.late && e.lead then s.belv.tb + 2000 else f.t
      let s := perform (takeIssue s n f) n e t f.late
      triggerChain (meetGates s n f.late) n s.belv.tb

/-! ### COMPLETION_WRITE (R273) -/

/-- Whether a RUN_TASK request was bound to a stream whose frozen check holds (R279, R343). -/
def frozenReq (s : State) (id : Nat) : Bool :=
  match reqAt s id with
  | some q => q.desc.opc == 1 && q.slot != 0 &&
      (manOf s q.slot).binds.any fun b => b.task == q.desc.task.toNat && (streamAt s b.stream).frozen
  | none => false

/-- A request's record is written, and feeds that no request to come can take are dropped. -/
def completionStep (s : State) (id : Nat) : State := pruneFeeds (completionOp s id (frozenReq s id))

def execActionIssue (entry : Nat) (s : State) : Host.Outcome State Fault Refusal := done (actionIssueOp s entry)
def execCommitApply (group : Nat) (s : State) : Host.Outcome State Fault Refusal := done (commitApplyOp s group)
def execCalWindowOpen (win : Nat) (s : State) : Host.Outcome State Fault Refusal := done (windowOpenOp s win)
def execCalWindowClose (win : Nat) (s : State) : Host.Outcome State Fault Refusal := done (windowCloseOp s win)
def execCompletionWrite (req : Nat) (s : State) : Host.Outcome State Fault Refusal := done (completionStep s req)

end Sys2Proof.Machine
end

