-- ==== Sys2Proof/Machine/Live.lean ====
section
/-! DEFINITION. What registers read as (R23 to R32, R34, R42): the stored bits of a register with the bits that report live
state, page by page. -/

namespace Sys2Proof.Machine

open Sys2Proof

/-! ### The common header (R23 to R32) -/

/-- The index of a page among the pages of its type (R24). -/
def pageInst (k : Kind) (p i : Nat) : Nat :=
  match k with
  | .sec0 | .sec1 | .sec2 | .sec3 => p - 2
  | .blv0 | .blv1 | .blv2 | .blv3 => p - 0x10
  | .cam0 | .cam1 => p - 0x20
  | .isu0 | .isu1 | .isu2 => p - 0x30
  | .chk0 | .chku => p - 0x50
  | .flc0 | .flc1 => p - 0x60
  | .cal0 => i * 2
  | .cal1 => i * 2 + 1
  | .prg0 => i * 4
  | .prg1 => i * 4 + 1
  | .prg2 => i * 4 + 2
  | .prg3 => i * 4 + 3
  | .sys | .hsk | .boot0 | .hdma0 | .rng | .trl0 | .mem0 | .pwr0 | .die | .hk | .plm | .core | .seq | .acc | .vec | .fetch
  | .drain | .cstat | .cdbg => i

/-- The stepping that PAGE_VER gives (R26). -/
def pageStepping (s : State) (p : Nat) : BitVec 8 :=
  match pageDie p with
  | some d => dieStepping s d
  | none => s.part.pavStep

/-- PAGE_ID, PAGE_VER and PAGE_CAP. -/
def pageId (k : Kind) (p i : Nat) : W32 := put 31 16 (typeOf k) ||| put 15 8 (pageInst k p i) ||| put 7 0 1
def pageVer (s : State) (p : Nat) : W32 := put 15 8 (pageStepping s p).toNat ||| put 7 0 s.part.revision.toNat
def pageCap (k : Kind) : W32 := putBit 2 (hasShadow k) ||| putBit 1 (lockable k) ||| putBit 0 (clrOnRead k)

/-! ### The Pavilion -/

def sysLive (s : State) (off : Nat) : W32 :=
  match off with
  | 0x40 => put 31 16 s.part.member.deviceId ||| put 15 8 s.part.member.dies ||| put 7 0 2
  | 0x44 => fwVer s
  | 0x48 => put 15 0 (presentMask s).toNat
  | 0x4C => put 15 0 (onlineMask s).toNat
  | 0x50 => putBit 18 s.boot.ready ||| putBit 17 (degraded s) ||| putBit 16 s.boot.safe |||
      put 9 8 (rfld s pgPwr 0x44 1 0) ||| put 2 0 s.pwr.st.code
  | 0x54 => put 31 16 s.boot.rstCount.toNat ||| put 3 0 s.boot.rstLast.toNat
  | _ => 0

def hskLive (s : State) (off : Nat) : W32 :=
  match off with
  | 0x40 => 7
  | 0x48 => 0x3F
  | 0x58 => putBit 8 (ringsActive s) ||| put 3 0 (version s)
  | _ => 0

/-- A word of the challenge, 0 while none is valid (R406). -/
def chalWord (s : State) (k : Nat) : W32 :=
  match s.sec.chal with
  | some l => BitVec.ofNat 32 (leAt l (4 * k) 4)
  | none => 0

def sec0Live (s : State) (off : Nat) : W32 :=
  match off with
  | 0x40 => (List.range 6).foldl (fun w k => w ||| put (2 * k + 1) (2 * k) (keyAt s k).st.toNat) 0
  | 0x44 => put 23 16 s.otp.flacon ||| put 15 8 s.otp.ucode ||| put 7 0 s.otp.fw
  | 0x4C => put 20 0 s.nv.lmsNext
  | 0x50 => put 1 0 s.sec.level.toNat
  | _ => 0

def sec1Live (s : State) (off : Nat) : W32 :=
  if off = 0x50 then putBit 31 s.sec.busy ||| put 23 16 s.sec.reason.toNat ||| put 1 0 s.sec.result.toNat else 0

def sec2Live (s : State) (off : Nat) : W32 :=
  match off with
  | 0x44 => idWord s (rfld s pgSec2 0x40 11 0)
  | 0x48 => put 13 0 s.nv.cert.length
  | _ => 0

def sec3Live (s : State) (off : Nat) : W32 :=
  if 0x44 ≤ off ∧ off < 0x64 then chalWord s ((off - 0x44) / 4) else 0

def bootLive (s : State) (off : Nat) : W32 :=
  match off with
  | 0x40 => put 15 8 s.boot.ended ||| put 7 0 s.boot.begun
  | 0x44 => putBit 31 s.boot.prevFail ||| put 27 24 s.boot.prevDie ||| put 15 8 s.boot.prevEnd ||| put 7 0 s.boot.prevBeg
  | 0x48 => put 29 28 s.nv.failRun ||| putBit 24 s.nv.prefer ||| put 20 16 s.boot.shutdowns ||| put 11 8 s.boot.cause |||
      putBit 2 s.boot.calStored ||| putBit 1 s.boot.ddrFull ||| putBit 0 s.boot.fallback
  | 0x4C => put 15 0 (ofBits 16 ((List.range 16).filter fun d => (dieAt s d).st == .skipped)).toNat
  | _ => 0

def blv0Live (s : State) (off : Nat) : W32 :=
  match off with
  | 0x14 => putBit 2 s.belv.lock ||| putBit 1 (launchOn s) ||| putBit 0 (s.entries.any fun e => e.2.pend.isSome)
  | 0x44 => putBit 17 s.belv.holdover ||| putBit 16 s.belv.lock
  | 0x48 => lo32 s.belv.tb
  | 0x4C => hi32 s.belv.tb
  | 0x58 => BitVec.ofInt 32 s.belv.offset
  | 0x5C => BitVec.ofInt 32 s.belv.rate
  | _ => 0

def blv1Live (s : State) (off : Nat) : W32 :=
  if 0x40 ≤ off ∧ off < 0x1C0 ∧ (off - 0x40) % 12 = 0 then
    let x := streamAt s ((off - 0x40) / 12)
    put 31 16 x.frame.toNat ||| put 15 0 x.line.toNat
  else 0

def blv2Live (s : State) (off : Nat) : W32 :=
  if off = 0x64 then put 15 0 (min 0xFFFF (s.entries.filter fun e => e.2.en).length) else 0

def blv3Live (s : State) (off : Nat) : W32 :=
  if 0x100 ≤ off ∧ off < 0x140 then
    let g := (off - 0x100) / 4
    let x := groupAt s g
    put 31 30 x.last.toNat ||| putBit 29 x.held.isSome ||| put 27 16 (x.members.filter fun p => armedFor s g p).length |||
      put 11 0 x.members.length
  else 0

def cam0Live (s : State) (port off : Nat) : W32 :=
  if off = 0x14 then putBit 0 (tget false s.lp11 port) else 0

/-- CAM_SSTATE.STATE (R251, R253, R255). -/
def streamCode (s : State) (n : Nat) : Nat :=
  let x := streamAt s n
  if camEn s n = false then 0 else if x.lost then 2 else if x.frozen then 3 else 1

def cam1Live (s : State) (port off : Nat) : W32 :=
  if off = 0x14 then (List.range 4).foldl (fun w v => w ||| putBit v (streamAt s (4 * port + v)).isOpen) 0
  else if 0x40 ≤ off ∧ off < 0x100 then
    let n := 4 * port + (off - 0x40) / 48
    let x := streamAt s n
    match (off - 0x40) % 48 with
    | 0 => put 31 30 (streamCode s n) ||| put 15 0 x.frame.toNat
    | 0x2C => put 14 0 x.lines
    | _ => 0
  else 0

def hdmaLive (s : State) (off : Nat) : W32 :=
  match off with
  | 0x14 => putBit 1 (s.rings.any fun r => r.2.st == .stalled) ||| putBit 0 (ringsActive s)
  | 0x54 => put 12 0 (inflight s)
  | _ => 0

/-- The live words of a ring's slot (R285). -/
def rngLive (s : State) (p64 off : Nat) : W32 :=
  let r := ringAt s (64 * p64 + off / 64)
  match off % 64 with
  | 0x24 => put 31 29 r.st.code ||| put 28 16 r.inflight ||| put 7 0 r.alive.toNat
  | 0x28 => put 31 16 r.tail ||| put 15 0 r.sqHead
  | 0x2C => put 31 16 r.cqHead ||| put 15 0 r.cqTail
  | 0x34 => put 18 16 r.dbErr ||| put 15 0 (min 0xFFFF (r.posted.filter fun p => p.ready.isNone).length)
  | _ => 0

def flc0Live (s : State) (off : Nat) : W32 :=
  match off with
  | 0x14 => putBit 1 (s.slots.any fun x => x.2.st == .activating) ||| putBit 0 (s.slots.any fun x => x.2.st == .loading)
  | 0x44 => s.epoch
  | 0x48 => put 19 16 ((sessionSlot s).getD 0) ||| put 15 0 (ofBits 16 (usedSlotNos s)).toNat
  | 0x5C => put 6 0 (64 - s.staging.length)
  | _ => 0

def memLive (s : State) (off : Nat) : W32 :=
  match off with
  | 0x14 => putBit 0 (s.slow.now.isSome || !s.slow.out.isEmpty)
  | 0x40 => put 5 0 s.nv.slowSize.toNat
  | 0x44 => put 23 0 (hostTop s / 4096)
  | 0x58 => put 17 0 (slowInvalid s)
  | _ => 0

def chk0Live (s : State) (off : Nat) : W32 :=
  if off = 0x14 then (List.range 8).foldl (fun w u => w ||| putBit u (unitAt s u).run.isSome) 0 else 0

def chkuLive (s : State) (u off : Nat) : W32 :=
  let x := unitAt s u
  if off = 0x40 then
    put 31 31 (if x.run.isSome then 1 else 0) ||| put 28 24 x.queue.length |||
      put 23 16 (match x.run with | some r => r.1 | none => x.lastTpl) ||| put 15 0 x.seq.toNat
  else if 0x80 ≤ off ∧ off < 0x180 then
    ((tget LogEnt.zero x.log ((off - 0x80) / 16)).words).getD ((off - 0x80) % 16 / 4) 0
  else 0

def isu0Live (s : State) (off : Nat) : W32 :=
  let i := s.isu
  if off = 0x14 then
    putBit 4 i.tripped ||| (List.range 4).foldl (fun w n => w ||| putBit n (stbAt s n).high) 0
  else if off = 0x4C then putBit 31 i.tripped ||| putBit 30 i.byPlaus ||| put 25 24 i.watchNo.toNat
  else if 0x54 ≤ off ∧ off < 0x74 ∧ (off - 0x54) % 8 = 0 then
    let x := watchAt s ((off - 0x54) / 8)
    put 19 16 x.count ||| put 15 0 x.last.toNat
  else 0

def isu1Live (s : State) (off : Nat) : W32 :=
  if off = 0x14 then
    (List.range 4).foldl (fun w n => w ||| putBit (4 + n) (dacAt s n).opLive ||| putBit n (dacAt s n).scLive) 0
  else if 0x58 ≤ off ∧ off < 0x98 ∧ (off - 0x58) % 16 = 0 then
    let d := dacAt s ((off - 0x58) / 16)
    putBit 31 d.ramp.isSome ||| put 15 0 d.code.toNat
  else 0

def isu2Live (s : State) (off : Nat) : W32 :=
  if off = 0x14 then
    putBit 2 s.isu.cal.isSome ||| putBit 1 ((convAt s 1).busy.isSome || calRuns s 1) |||
      putBit 0 ((convAt s 0).busy.isSome || calRuns s 0)
  else if off = 0x44 then (convAt s 0).data
  else if off = 0x48 then (convAt s 1).data
  else if off = 0x5C then
    putBit 31 s.isu.cal.isSome ||| putBit 30 (match s.isu.cal with | some c => c.wait | none => false) ||| put 29 27 s.isu.calRes
  else if 0x60 ≤ off ∧ off < 0xA0 then tget 0 s.isu.chLast ((off - 0x60) / 4)
  else 0

/-- PWR_DIE_STATE.STATE (R384). -/
def dieCode (s : State) (d : Nat) : Nat :=
  if s.part.member.dies ≤ d then 5
  else match (dieAt s d).st with
    | .on => 0 | .gated => 1 | .supplyReset => 2 | .thermalOff => 3 | .leftOut => 4 | .notPresent => 5 | .skipped => 6

def pwrLive (s : State) (off : Nat) : W32 :=
  if off = 0x14 then putBit 3 s.pwr.entry.isSome ||| put 2 0 s.pwr.st.code
  else if off = 0x54 then put 4 0 s.pwr.live.toNat
  else if off = 0x6C then put 20 16 s.nv.logs.length
  else if 0x80 ≤ off ∧ off < 0xC0 then put 31 29 (dieCode s ((off - 0x80) / 4))
  else 0

/-! ### A die -/

def diePageLive (s : State) (d off : Nat) : W32 :=
  match off with
  | 0x14 => put 1 0 (dieAt s d).warn.toNat
  | 0x40 => putBit 16 (dieAt s d).rise ||| put 15 0 (budget s d)
  | _ => 0

/-- The engines of a die with a mark, the unlisted ones by the die's prototype. -/
def countEngines (s : State) (d : Nat) (f : Engine → Bool) : Nat :=
  let l := dieEngines s d
  (l.filter fun x => f x.2).length + (if f (dieAt s d).proto then 8192 - l.length else 0)

def cal0Live (s : State) (d off : Nat) : W32 :=
  match off with
  | 0x14 => putBit 2 (countEngines s d (fun e => e.stale) != 0) ||| putBit 1 (countEngines s d (fun e => e.due) != 0) |||
      putBit 0 ((s.wins.any fun w => match w.2 with
        | some w => w.isOpen && w.dies.getLsbD d && w.cores != 0
        | none => false) || countEngines s d Engine.inBringUp != 0)
  | 0x54 => put 15 0 (ktOf s d)
  | 0x58 => put 13 0 (countEngines s d fun e => e.due)
  | 0x5C => put 13 0 (countEngines s d fun e => e.stale)
  | _ => 0

/-- The banks of a die that are listed. -/
def dieBanks (s : State) (d : Nat) : List (Nat × Bank) := s.banks.filter fun b => b.1 / 65536 == d

/-- The jobs queued on a die. -/
def jobsQueued (s : State) (d : Nat) : Nat := ((dieEngines s d).map fun x => x.2.jobs.length).sum

/-- Whether the plate map has been loaded: step 0x0A of the last start has ended (R410). -/
def mapLoaded (s : State) : Bool := s.boot.mapUp

def prg0Live (s : State) (d off : Nat) : W32 :=
  match off with
  | 0x14 => putBit 3 (hotHeld s d) ||| putBit 2 (supHeld s d) ||| putBit 1 (dieAt s d).sweep.active |||
      putBit 0 (plateCount s d != 0 || jobsQueued s d != 0)
  | 0x44 => put 7 0 (plateCount s d)
  | 0x48 => put 22 0 (jobsQueued s d)
  | 0x50 => put 17 0 (min 0x3FFFF ((dieBanks s d).foldl (fun m b => max m b.2.wear) 0))
  | 0x54 => put 16 0 ((dieBanks s d).filter fun b => decide (160000 ≤ b.2.wear)).length
  | 0x58 => if mapLoaded s then
      put 22 0 (s.plates.filter fun x => x.1 / 4194304 == d && x.2.st == .bad).length else 0
  | _ => 0

/-- The live registers of PRG1 (R152 to R154); a histogram bin above 32 bits reads its low 32 bits (DESIGN CHOICE, log 31). -/
def prg1Live (s : State) (d off : Nat) : W32 :=
  let w := (dieAt s d).sweep
  match off with
  | 0x44 => putBit 31 w.active ||| put 17 16 w.cause ||| put 15 0 (min 0xFFFF w.passes)
  | 0x48 => put 22 0 w.done.length
  | 0x4C => put 22 0 w.total
  | 0x50 => lo32 w.lastTb
  | 0x54 => hi32 w.lastTb
  | 0x58 => lo32 w.lExam
  | 0x5C => hi32 w.lExam
  | 0x60 => lo32 w.lLow
  | 0x64 => hi32 w.lLow
  | 0x68 => put 7 0 w.lMin
  | 0x6C => put 15 0 w.lDrift
  | _ => if 0x70 ≤ off ∧ off < 0x90 then BitVec.ofNat 32 (w.lHist.getD ((off - 0x70) / 4) 0) else 0

def prg3Live (s : State) (d off : Nat) : W32 :=
  if off = 0x40 then putBit 31 (dieAt s d).driftOv ||| put 14 0 (dieAt s d).drift.length else 0

/-! ### A core -/

/-- The layer works whose set has this core as its home, and those whose set includes it. -/
def homeRuns (s : State) (c : Nat) : List (Nat × Run) :=
  (runList s).filter fun e => (e.2.rc s).tier == 0 && e.2.home s == c
def setRuns (s : State) (c : Nat) : List (Nat × Run) :=
  (runList s).filter fun e => (e.2.rc s).tier == 0 && (e.2.rc s).die == c / 16 &&
    (setCores (e.2.man s) (e.2.rc s) e.2.set).contains (c % 16)

/-- FETCH holds a group that it forms, a claim, or rows still to broadcast (R208). -/
def fetchBusy (s : State) (c : Nat) : Bool :=
  (homeRuns s c).any fun e =>
    let l := e.2.rc s
    let ps := setPlates (e.2.man s) l e.2.set
    !e.2.pool.isEmpty || e.2.claimWait || (setEngines l ps).any fun k => (nextStep l e.2 ps k).isSome

/-- A step is issued to an engine of the core and not passed to STEP (R208). -/
def stepBusy (s : State) (c : Nat) : Bool :=
  s.engines.any fun e => engCore e.1 == c && (!e.2.staged.isEmpty || !e.2.steps.isEmpty)

def coreLive (s : State) (c off : Nat) : W32 :=
  let k := coreAt s c
  match off with
  | 0x40 => putBit 18 (k.vrun.isSome || !k.deliver.isEmpty) ||| putBit 17 (stepBusy s c) ||| putBit 16 (fetchBusy s c) |||
      put 7 0 (k.tiles.filterMap fun e => e.2.bind fun t => (runAt s t.run).map fun w => (w.slot, w.layer)).dedup.length
  | 0x44 => put 7 0 (min 255 ((setRuns s c).map fun e => e.2.req).dedup.length)
  | _ => 0

def accLive (s : State) (c off : Nat) : W32 :=
  if off = 0x40 then put 13 8 (coreAt s c).peak ||| put 5 0 (freeTiles (coreAt s c)).length else 0

/-- A group of a set homed on the core waits for a block to become ready, or for a claim (R211). -/
def fetchLive (s : State) (c off : Nat) : W32 :=
  if off = 0x40 then
    putBit 17 ((homeRuns s c).any fun e => e.2.claimWait) ||| putBit 16 ((homeRuns s c).any fun e => e.2.readyWait) |||
      put 5 0 ((coreAt s c).fetchQ.map fun e => e.2.length).sum
  else 0

def drainLive (s : State) (c off : Nat) : W32 :=
  let k := coreAt s c
  if off = 0x40 then putBit 17 k.waitDel ||| putBit 16 (!k.heldOut.isEmpty) ||| put 3 0 k.drainQ.length else 0

def vecLive (s : State) (c off : Nat) : W32 :=
  let mine := s.qslots.filter fun e => e.1 / 1024 % 256 == c && e.2.isSome
  match off with
  | 0x14 => putBit 1 (mine.any fun e => match e.2 with
        | some q => (q.isOpen && q.waited) || startWaiting s (e.1 / 262144) c (e.1 % 1024) q
        | none => false) |||
      putBit 0 (coreAt s c).vrun.isSome
  | 0x44 => put 26 16 mine.length ||| put 15 0 (s.progs.filter fun e => e.1 / 32768 == c).length
  | _ => 0

def cdbgLive (s : State) (c off : Nat) : W32 :=
  match off with
  | 0x44 => putBit 15 (halted s c) ||| put 14 0 (coreAt s c).pc
  | 0x4C => cdbgWord s c
  | _ => 0

/-! ### Any register -/

/-- The bits of a block register that report live state. -/
def blockLive (s : State) (k : Kind) (i off : Nat) : W32 :=
  match k with
  | .sys => sysLive s off
  | .hsk => hskLive s off
  | .sec0 => sec0Live s off
  | .sec1 => sec1Live s off
  | .sec2 => sec2Live s off
  | .sec3 => sec3Live s off
  | .boot0 => bootLive s off
  | .blv0 => blv0Live s off
  | .blv1 => blv1Live s off
  | .blv2 => blv2Live s off
  | .blv3 => blv3Live s off
  | .cam0 => cam0Live s i off
  | .cam1 => cam1Live s i off
  | .hdma0 => hdmaLive s off
  | .rng => rngLive s i off
  | .flc0 => flc0Live s off
  | .flc1 | .trl0 | .hk | .cal1 | .prg2 | .plm | .seq | .cstat => 0
  | .mem0 => memLive s off
  | .chk0 => chk0Live s off
  | .chku => chkuLive s i off
  | .isu0 => isu0Live s off
  | .isu1 => isu1Live s off
  | .isu2 => isu2Live s off
  | .pwr0 => pwrLive s off
  | .die => diePageLive s i off
  | .cal0 => cal0Live s i off
  | .prg0 => prg0Live s i off
  | .prg1 => prg1Live s i off
  | .prg3 => prg3Live s i off
  | .core => coreLive s i off
  | .acc => accLive s i off
  | .vec => vecLive s i off
  | .fetch => fetchLive s i off
  | .drain => drainLive s i off
  | .cdbg => cdbgLive s i off

/-- The live bits of any register of a page other than an RNG page: the fixed words of the header, and a block's own; the
shadow window has none. -/
def liveWord (s : State) (k : Kind) (i p off : Nat) : W32 :=
  if k = .rng then blockLive s k i off
  else match off with
    | 0x00 => pageId k p i
    | 0x04 => pageVer s p
    | 0x08 => pageCap k
    | _ => if 0x800 ≤ off then 0 else blockLive s k i off

/-- Whether an offset of a page is implemented (R441). -/
def implemented (k : Kind) (off : Nat) : Bool :=
  if k = .rng then true
  else if off < 0x40 then true
  else if 0x800 ≤ off then hasShadow k && (match rowAt k (off - 0x800) with | some r => r.shad | none => false)
  else (rowAt k off).isSome

/-- Whether the debug gate closes a register: a block register of CDBG while the level is 0 (R408). -/
def gated (s : State) (k : Kind) (off : Nat) : Bool := k == .cdbg && decide (0x40 ≤ off) && s.sec.level == 0

/-- What a register reads as, before the rules of pairs and clearing. -/
def peek (s : State) (k : Kind) (i p off : Nat) : W32 :=
  if implemented k off = false ∨ gated s k off = true then 0 else rget s p off ||| liveWord s k i p off

end Sys2Proof.Machine
end

