-- ==== Sys2Proof/Machine/Vec.lean ====
section
/-! DEFINITION. The vector unit (R163 to R169): the running of a program and every instruction but those of the quantiser. -/

namespace Sys2Proof.Machine

open Sys2Proof

/-! ### Running a program (R167, R169) -/

/-- The instruction of a core's program store, where one is loaded (R164). -/
def progWord (s : State) (c pc : Nat) : Option W64 := tget none s.progs (c * 32768 + pc)

/-- Whether an instruction is the next of the program that runs on a core, whose clocks run. -/
def vecReady (s : State) (c op : Nat) (f : VF) : Bool :=
  let k := coreAt s c
  coreClocks s && k.vrun.isSome && (!halted s c || k.step) && progWord s c k.pc == some (vWord op f)

/-- Where a program goes on from an index: at the end of a LOOP's body the body is repeated or left. -/
def loopBack : List LoopSt → Nat → List LoopSt × Nat
  | [], pc => ([], pc)
  | l :: ls, pc =>
    if l.stop = pc then (if 1 < l.left then ({ l with left := l.left - 1 } :: ls, l.start) else loopBack ls pc)
    else (l :: ls, pc)

/-- The program goes on at an index, and faults where that leaves its own instructions (R169). -/
def vecNext (s : State) (c pc : Nat) : State :=
  let k := coreAt s c
  match k.vrun with
  | none => s
  | some v =>
    let (ls, pc) := loopBack k.loops pc
    let s := putCore s c { k with loops := ls, pc := pc, step := false }
    if v.first ≤ pc ∧ pc < v.first + v.count then s else progFault s c pc

/-- What an instruction does: nothing where it faults. -/
abbrev VAct := VF → Nat → Core → State → Option State

/-- The issue cycles of an operation; VQEND has a rule of its own (R167). -/
def vecCycles (op : Nat) : Nat :=
  if op = 0x05 then 2
  else if op = 0x19 ∨ (0x30 ≤ op ∧ op ≤ 0x36) then 4
  else if 0x38 ≤ op ∧ op ≤ 0x3A then 6
  else 1

/-- One instruction issues (R163, R167): its issue cycles are counted, its operation is done, and the program goes on. -/
def issue (s : State) (c op : Nat) (f : VF) (act : VAct) : State :=
  if vecReady s c op f then
    let k := coreAt s c
    let s := count64 s (pgVec c) 0x4C (vecCycles op)
    match act f c k s with
    | none => progFault s c k.pc
    | some s => vecNext s c (k.pc + 1)
  else s

/-- A per-lane operation. -/
def lanes (g : Core → VF → Nat → W32) : VAct := fun f c k s => some (putCore s c (k.setLanes f (g k f)))

/-- A lane of two integer sources, held or wrapped in DT. -/
def laneII (h : Int → Int → Int) (k : Core) (f : VF) (i : Nat) : W32 :=
  let dt := f.dt.toNat
  ofLane (intFit dt f.sat (h (laneInt dt (k.lane f.va.toNat i)) (laneInt dt (k.laneB f i))))

/-- A lane of two FP32 sources. -/
def laneFF (h : Fv → Fv → W32) (k : Core) (f : VF) (i : Nat) : W32 :=
  h (f32v (k.lane f.va.toNat i)) (f32v (k.laneB f i))

/-- Whether DT is FP32. -/
def isFp (f : VF) : Bool := f.dt == 0xC

/-- A lane of two sources, of integers or of FP32. -/
def lane2 (h : Int → Int → Int) (g : Fv → Fv → W32) : VAct :=
  lanes fun k f i => if isFp f then laneFF g k f i else laneII h k f i

/-- A lane of one source, of integers or of FP32 by its sign bit. -/
def lane1 (h : Int → Int) (g : Fv → W32) : VAct :=
  lanes fun k f i =>
    let w := k.lane f.va.toNat i
    if isFp f then g (f32v w) else ofLane (intFit f.dt.toNat f.sat (h (laneInt f.dt.toNat w)))

/-! ### Loads and stores (R166, R167) -/

/-- Bytes that one element takes at its address. -/
def elemBytes (dt : Nat) : Nat := max 1 (fmtWidth dt / 8)

/-- Enabled lanes. -/
def Core.on (k : Core) (f : VF) : List Nat := (List.range 64).filter fun i => k.enabled f i

/-- A raw element as a lane holds it (R163). -/
def widen (dt raw : Nat) : W32 := if fmtIsInt dt then ofLane (intOf dt raw) else fpWiden dt raw

/-- A lane narrowed into a format as VCVT does: integers from INT32, and floating-point formats from FP32 (R167). -/
def narrow (dt : Nat) (sat : Bool) (w : W32) : Nat :=
  if fmtIsInt dt then (intFit dt sat (laneInt 5 w) % 2 ^ fmtWidth dt).toNat
  else if dt = 0xC then w.toNat else fpNarrow dt (f32v w)

def vldAct : VAct := fun f c k s =>
  let dt := f.dt.toNat
  let b := k.base f f.va.toNat
  if (k.on f).all fun i => accessOk (elemAddr dt b i) (elemBytes dt) then
    some (putCore s c (k.setLanes f fun i => widen dt (coreElem s c dt b i)))
  else none

def vldbAct : VAct := fun f c k s =>
  let dt := f.dt.toNat
  let b := k.base f f.va.toNat
  if (k.on f).isEmpty || accessOk b (elemBytes dt) then
    some (putCore s c (k.setLanes f fun _ => widen dt (coreElem s c dt b 0)))
  else none

def vstAct : VAct := fun f c k s =>
  let dt := f.dt.toNat
  let b := k.base f f.vb.toNat
  if (k.on f).all fun i => accessOk (elemAddr dt b i) (elemBytes dt) then
    some ((k.on f).foldl (fun s i => coreElemPut s c dt b i (narrow dt f.sat (k.lane f.va.toNat i))) s)
  else none

def vlutAct : VAct := fun f c k s =>
  let a := fun i => (k.scalar (f.imm.toNat % 16)).toNat + 4 * ((k.lane f.va.toNat i).toNat % 256)
  if (k.on f).all fun i => accessOk (a i) 4 then
    some (putCore s c (k.setLanes f fun i => BitVec.ofNat 32 (numAt s.coreMem (coreKey c (a i)) 4)))
  else none

/-! ### Arithmetic (R160, R167) -/

def nopAct : VAct := fun _ _ _ s => some s
def vaddAct : VAct := lane2 (· + ·) fpAdd
def vsubAct : VAct := lane2 (· - ·) fpSub
def vmulAct : VAct := lane2 (· * ·) fpMul
def vminAct : VAct := lane2 min fpMin
def vmaxAct : VAct := lane2 max fpMax

def vmacAct : VAct := lanes fun k f i =>
  let dt := f.dt.toNat
  let a := k.lane f.va.toNat i
  let b := k.laneB f i
  let d := k.lane f.vd.toNat i
  if isFp f then fpFma (f32v a) (f32v b) (f32v d)
  else ofLane (intFit dt f.sat (laneInt dt d + laneInt dt a * laneInt dt b))

def vabsAct : VAct := lane1 (fun v => v.natAbs) fun v => f32Of v.abs
def vnegAct : VAct := lane1 (fun v => -v) fun v => f32Of v.neg

/-- Byte k of a word as INT8. -/
def byteInt (w : W32) (k : Nat) : Int := intOf 2 (w.toNat / 256 ^ k)

def vdotAct : VAct := lanes fun k f i =>
  let a := k.lane f.va.toNat i
  let b := k.laneB f i
  let sum := ((List.range 4).map fun j => byteInt a j * byteInt b j).sum
  ofLane (intFit 5 f.sat (laneInt 5 (k.lane f.vd.toNat i) + sum))

def vdivAct : VAct := lanes (laneFF fpDiv)

/-- A bitwise operation on the lanes of an integer format. -/
def laneBits (h : W32 → W32 → W32) : VAct := lanes fun k f i =>
  let dt := f.dt.toNat
  ofLane (intOf dt (h (k.lane f.va.toNat i) (k.laneB f i)).toNat)

def vandAct : VAct := laneBits (· &&& ·)
def vorAct : VAct := laneBits (· ||| ·)
def vxorAct : VAct := laneBits (· ^^^ ·)

/-- A shift: the count is VB modulo 32. -/
def laneShift (h : Int → Nat → Int) : VAct := lanes fun k f i =>
  let dt := f.dt.toNat
  ofLane (intFit dt f.sat (h (laneInt dt (k.lane f.va.toNat i)) ((k.laneB f i).toNat % 32)))

def vshlAct : VAct := laneShift fun v n => v * 2 ^ n
def vshraAct : VAct := laneShift fun v n => v / 2 ^ n
def vshrrAct : VAct := laneShift fun v n => divAway v (2 ^ n)

/-- The order of two lanes: none for a comparison with NaN. -/
def laneOrder (k : Core) (f : VF) (i : Nat) : Option Int :=
  let a := k.lane f.va.toNat i
  let b := k.laneB f i
  if isFp f then
    if f32v a = .nan ∨ f32v b = .nan then none else some (fvCmp (f32v a) (f32v b))
  else some (laneInt f.dt.toNat a - laneInt f.dt.toNat b)

def vcmpAct : VAct := fun f c k s =>
  let r := f.vd.toNat % 8
  let old := k.mask r
  let m : W64 := ofBits 64 ((List.range 64).filter fun i =>
    if k.enabled f i then condHolds (f.imm.toNat % 8) (laneOrder k f i) else !f.mz && old.getLsbD i)
  some (putCore s c (k.setMask r m))

def vselAct : VAct := fun f c k s =>
  some (putCore s c (k.setVec f.vd.toNat fun i => if k.enabled f i then k.lane f.va.toNat i else k.laneB f i))

/-- A function of one FP32 source. -/
def laneF (h : Fv → W32) : VAct := lanes fun k f i => h (f32v (k.lane f.va.toNat i))

def vexpAct : VAct := laneF fpExp
def vlogAct : VAct := laneF fpLog
def vrcpAct : VAct := laneF fpRcp
def vrsqrtAct : VAct := laneF fpRsqrt
def vtanhAct : VAct := laneF fpTanh
def verfAct : VAct := laneF fpErf
def vsqrtAct : VAct := laneF fpSqrt

/-! ### Reductions (R168) -/

/-- Lanes combined in the fixed tree: at each stage the first half with the second. -/
def tree {α : Type} (h : α → α → α) : Nat → List α → List α
  | 0, l => l
  | n + 1, l => tree h n (List.zipWith h (l.take (2 ^ n)) (l.drop (2 ^ n)))

/-- A reduction of the enabled lanes of VA into a scalar register; the others enter as a given word. -/
def reduce (h : VF → W32 → W32 → W32) (z : VF → W32) (g : W32 → W32) : VAct := fun f c k s =>
  let l := (List.range 64).map fun i => if k.enabled f i then g (k.lane f.va.toNat i) else z f
  some (putCore s c (k.setScalar (f.vd.toNat % 16) ((tree (h f) 6 l).headD 0)))

def vrsumAct : VAct := reduce
  (fun f a b => if isFp f then fpAdd (f32v a) (f32v b) else ofLane (intFit 5 f.sat (laneInt 5 a + laneInt 5 b)))
  (fun _ => 0) id
def vrmaxAct : VAct := reduce
  (fun f a b => if isFp f then fpMax (f32v a) (f32v b) else ofLane (max (laneInt 5 a) (laneInt 5 b)))
  (fun f => if isFp f then f32Inf true else 0x80000000) id
def vramaxAct : VAct := reduce (fun _ a b => fpMax (f32v a) (f32v b)) (fun _ => 0)
  fun w => if f32v w = .nan then 0 else f32Of (f32v w).abs

/-! ### Moves and conversion (R161, R167) -/

def vslideAct : VAct := lanes fun k f i =>
  let j := (i : Int) - sext 7 (f.imm.toNat % 128)
  if 0 ≤ j ∧ j < 64 then k.lane f.va.toNat j.toNat else 0

def vbcastAct : VAct := lanes fun k f _ => k.lane f.va.toNat (f.imm.toNat % 64)

/-- A lane converted from one format to another (R161). -/
def convert (src dst : Nat) (sat : Bool) (w : W32) : W32 :=
  if fmtIsInt src then
    let v := laneInt src w
    if fmtIsInt dst then ofLane (intFit dst sat v) else fpWiden dst (fpEncode dst (decide (v < 0)) v.natAbs 1)
  else if fmtIsInt dst then ofLane (fpToInt dst (f32v w))
  else fpWiden dst (fpNarrow dst (f32v w))

/-- NaN inputs of an instruction are counted and reported (R161, R182). -/
def noteNans (s : State) (c n code : Nat) : State :=
  if n = 0 then s else ev (count s (pgVec c) 0x6C n) (pgVec c) 2 code

def vcvtAct : VAct := fun f c k s =>
  let dt := f.dt.toNat
  let n := if fmtIsInt dt then 0 else ((k.on f).filter fun i => f32v (k.lane f.va.toNat i) == .nan).length
  let k' := k.setLanes f fun i => convert dt (f.imm.toNat % 16) f.sat (k.lane f.va.toNat i)
  some (noteNans (putCore s c k') c n (0x8000 + k.pc % 32768))

def smovAct : VAct := fun f c k s => some (putCore s c (k.setScalar (f.vd.toNat % 16) f.imm))
def saddAct : VAct := fun f c k s =>
  some (putCore s c (k.setScalar (f.vd.toNat % 16) (k.scalar (f.va.toNat % 16) + f.imm)))

/-! ### LOOP and END -/

/-- LOOP repeats the next instructions; a count of 0 skips them; a fifth level of nesting faults (R167, R169). -/
def loopIssue (s : State) (c : Nat) (f : VF) : State :=
  if vecReady s c 0x52 f then
    let k := coreAt s c
    let n := fld f.imm 31 16
    let t := fld f.imm 15 0
    let s := count64 s (pgVec c) 0x4C 1
    if t = 0 ∨ n = 0 then vecNext s c (k.pc + 1 + n)
    else if 4 ≤ k.loops.length then progFault s c k.pc
    else
      let s := putCore s c { k with loops := ⟨k.pc + 1, k.pc + 1 + n, t⟩ :: k.loops }
      vecNext s c (k.pc + 1)
  else s

/-- A row program has ended: DRAIN goes to the next valid row, or the tile is freed and its output released (R191). -/
def rowEnded (s : State) (c t : Nat) : State :=
  let k := coreAt s c
  match tget none k.tiles t with
  | none => s
  | some x =>
    match runAt s x.run with
    | none => s
    | some w =>
      let l := w.rc s
      if x.row + 1 < blockRows w.rows x.mb then
        putCore s c { k with tiles := tset none k.tiles t (some { x with row := x.row + 1 }) }
      else
        let s := putCore s c { k with tiles := tdel k.tiles t }
        let s := count (count s (pgAcc c) 0x4C 1) (pgDrain c) 0x44 1
        let s := if l.cols x.nt < 64 then count s (pgDrain c) 0x50 1 else s
        releaseTile s c x w

/-- END ends the program: of a row, or of a layer on the core (R191, R192). -/
def endIssue (s : State) (c : Nat) (f : VF) : State :=
  if vecReady s c 0x5F f then
    let k := coreAt s c
    let s := count64 s (pgVec c) 0x4C 1
    match k.vrun with
    | none => s
    | some v =>
      let s := putCore s c { k with vrun := none, loops := [], step := false }
      match v.tile with
      | some t => rowEnded s c t
      | none =>
        match runAt s v.run with
        | none => s
        | some w =>
          let s := (siblings s w).foldl (fun s e =>
            modRun s e.1 fun x => { x with ended := if (setCores (w.man s) (w.rc s) x.set).contains (c % 16) then c :: x.ended else x.ended }) s
          checkDone s w.req
  else s

def execVecNop (core : Nat) (f : VF) (s : State) : Host.Outcome State Fault Refusal := done (issue s core 0x00 f nopAct)
def execVld (core : Nat) (f : VF) (s : State) : Host.Outcome State Fault Refusal := done (issue s core 0x01 f vldAct)
def execVst (core : Nat) (f : VF) (s : State) : Host.Outcome State Fault Refusal := done (issue s core 0x02 f vstAct)
def execVldb (core : Nat) (f : VF) (s : State) : Host.Outcome State Fault Refusal := done (issue s core 0x03 f vldbAct)
def execVlut (core : Nat) (f : VF) (s : State) : Host.Outcome State Fault Refusal := done (issue s core 0x05 f vlutAct)
def execVadd (core : Nat) (f : VF) (s : State) : Host.Outcome State Fault Refusal := done (issue s core 0x10 f vaddAct)
def execVsub (core : Nat) (f : VF) (s : State) : Host.Outcome State Fault Refusal := done (issue s core 0x11 f vsubAct)
def execVmul (core : Nat) (f : VF) (s : State) : Host.Outcome State Fault Refusal := done (issue s core 0x12 f vmulAct)
def execVmac (core : Nat) (f : VF) (s : State) : Host.Outcome State Fault Refusal := done (issue s core 0x13 f vmacAct)
def execVmin (core : Nat) (f : VF) (s : State) : Host.Outcome State Fault Refusal := done (issue s core 0x14 f vminAct)
def execVmax (core : Nat) (f : VF) (s : State) : Host.Outcome State Fault Refusal := done (issue s core 0x15 f vmaxAct)
def execVabs (core : Nat) (f : VF) (s : State) : Host.Outcome State Fault Refusal := done (issue s core 0x16 f vabsAct)
def execVneg (core : Nat) (f : VF) (s : State) : Host.Outcome State Fault Refusal := done (issue s core 0x17 f vnegAct)
def execVdot (core : Nat) (f : VF) (s : State) : Host.Outcome State Fault Refusal := done (issue s core 0x18 f vdotAct)
def execVdiv (core : Nat) (f : VF) (s : State) : Host.Outcome State Fault Refusal := done (issue s core 0x19 f vdivAct)
def execVand (core : Nat) (f : VF) (s : State) : Host.Outcome State Fault Refusal := done (issue s core 0x20 f vandAct)
def execVor (core : Nat) (f : VF) (s : State) : Host.Outcome State Fault Refusal := done (issue s core 0x21 f vorAct)
def execVxor (core : Nat) (f : VF) (s : State) : Host.Outcome State Fault Refusal := done (issue s core 0x22 f vxorAct)
def execVshl (core : Nat) (f : VF) (s : State) : Host.Outcome State Fault Refusal := done (issue s core 0x23 f vshlAct)
def execVshra (core : Nat) (f : VF) (s : State) : Host.Outcome State Fault Refusal := done (issue s core 0x24 f vshraAct)
def execVshrr (core : Nat) (f : VF) (s : State) : Host.Outcome State Fault Refusal := done (issue s core 0x25 f vshrrAct)
def execVcmp (core : Nat) (f : VF) (s : State) : Host.Outcome State Fault Refusal := done (issue s core 0x28 f vcmpAct)
def execVsel (core : Nat) (f : VF) (s : State) : Host.Outcome State Fault Refusal := done (issue s core 0x29 f vselAct)
def execVexp (core : Nat) (f : VF) (s : State) : Host.Outcome State Fault Refusal := done (issue s core 0x30 f vexpAct)
def execVlog (core : Nat) (f : VF) (s : State) : Host.Outcome State Fault Refusal := done (issue s core 0x31 f vlogAct)
def execVrcp (core : Nat) (f : VF) (s : State) : Host.Outcome State Fault Refusal := done (issue s core 0x32 f vrcpAct)
def execVrsqrt (core : Nat) (f : VF) (s : State) : Host.Outcome State Fault Refusal := done (issue s core 0x33 f vrsqrtAct)
def execVtanh (core : Nat) (f : VF) (s : State) : Host.Outcome State Fault Refusal := done (issue s core 0x34 f vtanhAct)
def execVerf (core : Nat) (f : VF) (s : State) : Host.Outcome State Fault Refusal := done (issue s core 0x35 f verfAct)
def execVsqrt (core : Nat) (f : VF) (s : State) : Host.Outcome State Fault Refusal := done (issue s core 0x36 f vsqrtAct)
def execVrsum (core : Nat) (f : VF) (s : State) : Host.Outcome State Fault Refusal := done (issue s core 0x38 f vrsumAct)
def execVrmax (core : Nat) (f : VF) (s : State) : Host.Outcome State Fault Refusal := done (issue s core 0x39 f vrmaxAct)
def execVramax (core : Nat) (f : VF) (s : State) : Host.Outcome State Fault Refusal := done (issue s core 0x3A f vramaxAct)
def execVslide (core : Nat) (f : VF) (s : State) : Host.Outcome State Fault Refusal := done (issue s core 0x3B f vslideAct)
def execVbcast (core : Nat) (f : VF) (s : State) : Host.Outcome State Fault Refusal := done (issue s core 0x3C f vbcastAct)
def execVcvt (core : Nat) (f : VF) (s : State) : Host.Outcome State Fault Refusal := done (issue s core 0x40 f vcvtAct)
def execSmov (core : Nat) (f : VF) (s : State) : Host.Outcome State Fault Refusal := done (issue s core 0x50 f smovAct)
def execSadd (core : Nat) (f : VF) (s : State) : Host.Outcome State Fault Refusal := done (issue s core 0x51 f saddAct)
def execVloop (core : Nat) (f : VF) (s : State) : Host.Outcome State Fault Refusal := done (loopIssue s core f)
def execVend (core : Nat) (f : VF) (s : State) : Host.Outcome State Fault Refusal := done (endIssue s core f)

end Sys2Proof.Machine
end

