-- ==== Sys2Proof/Machine/Quant.lean ====
section
/-! DEFINITION. The quantiser (R173 to R180): passes, VQNT, VQEND, VQSCALE, scale groups, the emptying of histories, and the
snapshot of a slot (R183). -/

namespace Sys2Proof.Machine

open Sys2Proof

/-! ### Places of an element (R173, log 21) -/

/-- The scale of an element by its offset in the tensor. -/
def scaleIdx (g : QSlotEnt) (off : Nat) : Nat :=
  if g.gran = 0 then 0 else if g.gran = 1 then off % max g.cols 1 else off / max g.cols 1

/-- An element's place in the core's share of the tensor: rows of the core's own N-tiles side by side. -/
def localIdx (g : QSlotEnt) (tiles : List Nat) (off : Nat) : Nat :=
  let col := off % max g.cols 1
  off / max g.cols 1 * 64 * tiles.length + 64 * tiles.idxOf (col / 64) + col % 64

/-- The session slot, request and core tiles of the program that runs on a core. -/
def progRun (s : State) (k : Core) : Option Run := k.vrun.bind fun v => runAt s v.run

def modQ (s : State) (key : Nat) (f : QSlot → QSlot) : State :=
  match qslotAt s key with
  | none => s
  | some q => putQSlot s key (some (f q))

/-! ### Pass start (R175, R179) -/

/-- Where an entry of a scale's history lies in the slot's history area: the entries of a scale side by side, oldest first (R198, log 21). -/
def histAddr (g : QSlotEnt) (k j : Nat) : Nat := g.hist + 4 * (k * max g.depth 1 + j)

/-- A history as the activation SRAM of the core holds it (R173). -/
def histFrom (s : State) (c : Nat) (q : QSlot) : Tab (List W32) :=
  q.hist.map fun e => (e.1, e.2.zipIdx.map fun x => BitVec.ofNat 32 (numAt s.coreMem (coreKey c (histAddr q.cfg e.1 x.2)) 4))

/-- A scale's history written to the SRAM. -/
def putHist (s : State) (c : Nat) (g : QSlotEnt) (k : Nat) (l : List W32) : State :=
  l.zipIdx.foldl (fun s x => corePut s c (histAddr g k x.2) (leBytes 4 x.1.toNat)) s

/-- The other members of a slot's scale group, by core and slot. -/
def otherMembers (s : State) (slot c : Nat) (g : QSlotEnt) : List (Nat × Nat) :=
  ((manOf s slot).qslots.filter fun e => e.group == g.group && !(coreIdx e.die e.core == c && e.slot == g.slot)).map
    fun e => (coreIdx e.die e.core, e.slot)

/-- Whether some other member keeps its history. -/
def othersKeep (s : State) (slot c : Nat) (g : QSlotEnt) : Bool :=
  (otherMembers s slot c g).any fun e => match qslotAt s (qKey slot e.1 e.2) with
    | some q => !q.clear && q.hist.any fun h => !h.2.isEmpty
    | none => false

/-- A pass of a slot begins for a request, unless it already runs. -/
def passStart (s : State) (slot c n req : Nat) : State :=
  let key := qKey slot c n
  match qslotAt s key with
  | none => s
  | some q =>
    if q.isOpen then s
    else
      let lost := q.clear && othersKeep s slot c q.cfg
      let q := if q.clear then { q with hist := [], passes := 0, clear := false, lost := lost } else { q with hist := histFrom s c q }
      let s := putQSlot s key (some { q with isOpen := true, req := req, amax := [], elems := [], satN := [], posted := false, waited := false, startWait := q.startWait.erase req })
      if lost then ev s (pgVec c) 4 (n % 1024) else s

/-! ### VQNT (R174, R175, R177) -/

/-- The code of one element written to the output codes of the core's share. -/
def putCode (s : State) (c : Nat) (g : QSlotEnt) (tiles : List Nat) (off : Nat) (code : Int) : State :=
  coreElemPut s c g.fmt g.codes (localIdx g tiles off) (code % 2 ^ fmtWidth g.fmt).toNat

/-- One element is quantised: its code in delayed mode, none in current mode. Under a slot that QSLOTS does not define there is nothing to do,
and VD takes 0 (DESIGN CHOICE, log 45). -/
def quantOne (s : State) (c key : Nat) (tiles : List Nat) (off : Nat) (x : W32) : State × W32 :=
  match qslotAt s key with
  | none => (s, 0)
  | some q =>
    let g := q.cfg
    let k := scaleIdx g off
    let v := f32v x
    let a := match v with
      | .fin _ _ _ => maxWord (tget 0 q.amax k) (f32Of v.abs)
      | _ => tget 0 q.amax k
    let q := { q with amax := tset 0 q.amax k a, elems := tset false q.elems off true }
    let spill := fun (s : State) => corePut s c (g.spill + 4 * localIdx g tiles off) (leBytes 4 x.toNat)
    match passScale q k with
    | none => (spill (putQSlot s key (some q)), 0)
    | some sc =>
      let (code, sat) := quantise g.fmt v (f32v sc)
      let q := if sat then { q with satN := tset 0 q.satN k (tget 0 q.satN k + 1) } else q
      let s := putCode (putQSlot s key (some q)) c g tiles off code
      (if g.policy = 1 then spill s else s, widen g.fmt (code % 2 ^ fmtWidth g.fmt).toNat)

/-- VQNT (R167, R175): the lanes that MK does not enable are not quantised. -/
def vqntAct : VAct := fun f c k s =>
  match progRun s k with
  | none => some s
  | some w =>
    let n := f.imm.toNat % 65536
    let key := qKey w.slot c n
    let s := passStart s w.slot c n w.req
    let tiles := coreTiles (w.man s) (w.rc s) (c % 16)
    let base := (k.scalar (f.vb.toNat % 16)).toNat
    let x := fun i => k.lane f.va.toNat i
    let (s, codes) := (k.on f).foldl (fun (a : State × Tab W32) i =>
      let (s, w) := quantOne a.1 c key tiles ((base + i) % 2 ^ 32) (x i)
      (s, tset 0 a.2 i w)) (s, [])
    let nans := ((k.on f).filter fun i => f32v (x i) == .nan).length
    some (noteNans (putCore s c ((coreAt s c).setLanes f fun i => tget 0 codes i)) c nans (n % 1024))

/-! ### VQEND (R176 to R180) -/

/-- The elements of one scale of the running pass. -/
def scaleElems (q : QSlot) (k : Nat) : List Nat := (q.elems.map fun e => e.1).filter fun o => scaleIdx q.cfg o == k

/-- Every element of a scale is quantised again from the spill area (R176, R177). -/
def requantise (s : State) (c : Nat) (q : QSlot) (tiles : List Nat) (k : Nat) (sc : W32) : State :=
  (scaleElems q k).foldl (fun s o =>
    let x := BitVec.ofNat 32 (numAt s.coreMem (coreKey c (q.cfg.spill + 4 * localIdx q.cfg tiles o)) 4)
    putCode s c q.cfg tiles o (quantise q.cfg.fmt (f32v x) (f32v sc)).1) s

/-- The scale field of a scale (R173). -/
def putScale (s : State) (c : Nat) (g : QSlotEnt) (k : Nat) (v : W32) : State :=
  corePut s c (g.scale + 4 * k) (leBytes 4 v.toNat)

/-- Appending to a history drops what lies beyond its depth (R176). -/
def histPush (g : QSlotEnt) (h : List W32) (a : W32) : List W32 :=
  let l := h ++ [a]
  l.drop (l.length - max g.depth 1)

/-- One scale of a pass is ended with its merged amax by the first row of R176 that applies, on every member alike, also one that holds no
element of it; the result tells whether the pass was re-quantised. -/
def endScale (s : State) (c key n req : Nat) (tiles : List Nat) (k : Nat) (a : W32) (empty : Bool) : State × Bool :=
  match qslotAt s key with
  | none => (s, false)
  | some q =>
    let g := q.cfg
    let h := if empty then [] else tget [] q.hist k
    let push := fun (s : State) (l : List W32) =>
      if g.gran = 2 then s else modQ (putHist s c g k l) key fun q => { q with hist := tset [] q.hist k l }
    if a = 0 then
      let s := (scaleElems q k).foldl (fun s o => putCode s c g tiles o 0) s
      let s := putScale s c g k 0x3F800000
      let s := setQual (count s (pgVec c) 0x58 1) req qZeroRange
      (push s (histPush g h 0), false)
    else match passScale q k with
      | none =>
        let sc := scaleOf g.fmt a
        (push (putScale (requantise s c q tiles k sc) c g k sc) (histPush g h a), false)
      | some sc =>
        let above := decide (0 < cmpScaled a 0 sc (qMax g.fmt))
        let jump := decide (0 < cmpScaled a (-(g.qsTol : Int)) sc (qMax g.fmt))
        let next := if jump then [a] else histPush g h a
        if above then
          let s := if jump then ev (count s (pgVec c) 0x60 1) (pgVec c) 3 (n % 1024) else s
          if g.policy = 1 then
            let sc' := scaleOf g.fmt a
            (push (putScale (requantise s c q tiles k sc') c g k sc') next, true)
          else
            let s := count s (pgVec c) 0x54 (tget 0 q.satN k)
            (push (putScale (setQual s req qQsat) c g k sc) next, false)
        else
          let under := decide (cmpScaled a 4 sc (qMax g.fmt) < 0)
          let s := putScale s c g k sc
          let s := if under then setQual (count s (pgVec c) 0x5C 1) req qUnder else s
          (push s (histPush g h a), false)

/-- A member's amaxes of a pass, in order of scale. -/
def amaxList (q : QSlot) (rows : Nat) : List W32 := (List.range (q.scaleCount rows)).map fun k => tget 0 q.amax k

/-- The scales of which a member holds elements in its running pass. -/
def hasList (q : QSlot) (rows : Nat) : List Bool := (List.range (q.scaleCount rows)).map fun k => !(scaleElems q k).isEmpty

/-- A member posts its local amax to every other member, in a CTRL packet of 64 bytes for each 16 scales where the member lies on another
die (R178, R317). With no route left the posts are discarded, and the request ends (R319). -/
def postAmax (s : State) (slot c n rows : Nat) : State :=
  match qslotAt s (qKey slot c n) with
  | none => s
  | some q =>
    if q.posted then s
    else
      let l := amaxList q rows
      let others := otherMembers s slot c q.cfg
      let far := (others.map fun e => e.1 / 16).filter fun d => d != c / 16
      let s := putQSlot s (qKey slot c n) (some { q with
        posted := true
        sent := q.sent ++ others.map fun e => ⟨e.1, q.req, l, q.lost, hasList q rows⟩ })
      let s := far.foldl (fun s d => sendPackets s .ctrl (c / 16) [d] (ceilDiv l.length 16)) s
      if (lostDests s (c / 16) far).isEmpty then s else failReq s q.req 0x7F

/-- The posts of the other members for a pass that have arrived, if all have. -/
def allPosts (s : State) (slot c n req : Nat) : Option (List Post) :=
  match qslotAt s (qKey slot c n) with
  | none => some []
  | some q =>
    let got := (otherMembers s slot c q.cfg).map fun e => q.posts.find? fun p => p.core == e.1 && p.pass == req
    if got.all Option.isSome then some (got.filterMap id) else none

/-- The issue cycles of VQEND: one per 64 elements of the member's share where it quantises them, in current mode or again
(R167, R177). -/
def vqendCycles (q : QSlot) (scales : List Nat) (again : Bool) : Nat :=
  if again || scales.any fun k => (passScale q k).isNone then max 1 (ceilDiv q.elems.length 64) else 1

/-- VQEND ends the pass once every member's post has arrived; until then the program waits at it, and the wait counts once
(R176, R178). For a slot that QSLOTS does not define it takes one cycle and does nothing (DESIGN CHOICE, log 45). -/
def vqendIssue (s : State) (c : Nat) (f : VF) : State :=
  if vecReady s c 0x42 f then
    let k := coreAt s c
    match progRun s k with
    | none => s
    | some w =>
      let n := f.imm.toNat % 65536
      let key := qKey w.slot c n
      let s := postAmax (passStart s w.slot c n w.req) w.slot c n w.rows
      if (progRun s (coreAt s c)).isNone then s else
      match allPosts s w.slot c n w.req with
      | none =>
        match qslotAt s key with
        | some q => if q.waited then s else count (putQSlot s key (some { q with waited := true })) (pgVec c) 0x70 1
        | none => s
      | some posts =>
        match qslotAt s key with
        | none => vecNext (count64 s (pgVec c) 0x4C 1) c (k.pc + 1)
        | some q =>
          let tiles := coreTiles (w.man s) (w.rc s) (c % 16)
          let empty := q.lost || posts.any fun p => p.reset
          let scales := (List.range (q.scaleCount w.rows)).filter fun i =>
            q.cfg.gran == 0 || !(scaleElems q i).isEmpty || posts.any fun p => p.has.getD i false
          let (s, req) := scales.foldl (fun (x : State × Bool) i =>
            let a := posts.foldl (fun a p => maxWord a (p.amax.getD i 0)) (tget 0 q.amax i)
            let (s, r) := endScale x.1 c key n w.req tiles i a empty
            (s, x.2 || r)) (s, false)
          let s := if req then count s (pgVec c) 0x64 1 else s
          let s := count64 s (pgVec c) 0x4C (vqendCycles q scales req)
          let s := modQ s key fun q => { q with
            isOpen := false
            lost := false
            passes := if empty then 1 else q.passes + 1
            posts := q.posts.filter fun p => p.pass != w.req }
          vecNext (releaseHeld s c) c (k.pc + 1)
  else s

/-- A member's post arrives at another member (R178); it waits while a link on its way holds it back, and with no way left it is
discarded (R317, R319). -/
def quantPostOp (s : State) (c n src : Nat) (amaxes : List W32) (pass : Nat) (reset : Bool) : State :=
  let is := fun (p : Post) => p.core == c && p.pass == pass && p.amax == amaxes && p.reset == reset
  match s.qslots.find? fun e => e.1 / 1024 % 256 == src && (match e.2 with
      | some q => q.sent.any is &&
          (match qslotAt s (qKey (e.1 / 262144) c n) with
            | some r => r.cfg.group == q.cfg.group
            | none => false)
      | none => false) with
  | none => s
  | some (key, q) =>
    match (q.bind fun q => q.sent.find? is) with
    | none => s
    | some post =>
      let from_ := src / 16
      let gone := fun (s : State) => modQ s key fun q => { q with sent := q.sent.erase post }
      if from_ = c / 16 ∨ (reaches s from_ (c / 16) ∧ wayOpen s .ctrl from_ [c / 16]) then
        modQ (gone s) (qKey (key / 262144) c n) fun q => { q with posts := q.posts ++ [{ post with core := src }] }
      else if reaches s from_ (c / 16) then s
      else failReq (discardPackets (gone s) [c / 16] (ceilDiv amaxes.length 16)) pass 0x7F

/-- VQSCALE (R167): the scale of the running pass, or of the one that would begin; a history that is to be emptied is so at the next pass
start (R179); in current mode the manual states none, and the value is free (log 11), as it is for a slot that QSLOTS does not define; the
scale of a COL slot is that of its column 0 (DESIGN CHOICE, log 45). -/
def vqscaleAct : VAct := fun f c k s =>
  match progRun s k with
  | none => some s
  | some w =>
    match (qslotAt s (qKey w.slot c (f.imm.toNat % 65536))).bind fun q => if q.clear && !q.isOpen then none else passScale (if q.isOpen then q else { q with hist := histFrom s c q }) 0 with
    | some sc => some (putCore s c (k.setScalar (f.vd.toNat % 16) sc))
    | none =>
      let (v, s) := drawFree s
      some (putCore s c (k.setScalar (f.vd.toNat % 16) v))

/-! ### Emptying histories, and the snapshot of a slot (R179, R183) -/

/-- Every slot of a core empties its history at its next pass start (R179). -/
def clearHist (s : State) (c : Nat) : State :=
  { s with qslots := tmapi none (fun k q => if k / 1024 % 256 = c then q.map fun x => { x with clear := true } else q) s.qslots }

/-- The session slot whose definition of a quantiser slot is shown: of an ACTIVE flacon, or of one that still runs. -/
def shownSlot (s : State) (c n : Nat) : Option (Nat × QSlot) :=
  let ok := fun (st : SlotSt) => (List.range 16).filterMap fun k =>
    if (slotAt s k).st = st then (qslotAt s (qKey k c n)).map fun q => (k, q) else none
  (ok .active ++ ok .retiring).head?

/-- A write of VEC_SLOT_INDEX takes a snapshot of the slot (R183). -/
def vecSnapshot (s : State) (c : Nat) : State :=
  match shownSlot s c (rfld s (pgVec c) 0x74 9 0) with
  | none => rset (rset s (pgVec c) 0x78 0) (pgVec c) 0x7C 0
  | some (slot, q) =>
    let h := tget [] (histFrom s c q) 0
    let s := rset s (pgVec c) 0x78 (putBit 31 true ||| put 30 29 q.cfg.gran ||| put 28 24 h.length ||| put 23 20 q.cfg.fmt |||
      put 19 16 (otherMembers s slot c q.cfg).length ||| put 15 0 q.passes)
    rset s (pgVec c) 0x7C (h.foldl maxWord 0)

/-! ### One instruction by its word, for the debug window (R408) -/

/-- The operation of each instruction that ends within its issue (R167). -/
def actOf (op : Nat) : Option VAct :=
  match op with
  | 0x00 => some nopAct | 0x01 => some vldAct | 0x02 => some vstAct | 0x03 => some vldbAct | 0x05 => some vlutAct
  | 0x10 => some vaddAct | 0x11 => some vsubAct | 0x12 => some vmulAct | 0x13 => some vmacAct | 0x14 => some vminAct
  | 0x15 => some vmaxAct | 0x16 => some vabsAct | 0x17 => some vnegAct | 0x18 => some vdotAct | 0x19 => some vdivAct
  | 0x20 => some vandAct | 0x21 => some vorAct | 0x22 => some vxorAct | 0x23 => some vshlAct | 0x24 => some vshraAct
  | 0x25 => some vshrrAct | 0x28 => some vcmpAct | 0x29 => some vselAct | 0x30 => some vexpAct | 0x31 => some vlogAct
  | 0x32 => some vrcpAct | 0x33 => some vrsqrtAct | 0x34 => some vtanhAct | 0x35 => some verfAct | 0x36 => some vsqrtAct
  | 0x38 => some vrsumAct | 0x39 => some vrmaxAct | 0x3A => some vramaxAct | 0x3B => some vslideAct | 0x3C => some vbcastAct
  | 0x40 => some vcvtAct | 0x41 => some vqntAct | 0x43 => some vqscaleAct | 0x50 => some smovAct | 0x51 => some saddAct
  | _ => none

/-- The next instruction of the program that runs on a core issues. -/
def stepProg (s : State) (c : Nat) : State :=
  match progWord s c (coreAt s c).pc with
  | none => s
  | some w =>
    let f := vFields w
    match vOp w with
    | 0x42 => vqendIssue s c f
    | 0x52 => loopIssue s c f
    | 0x5F => endIssue s c f
    | op => match actOf op with
      | some a => issue s c op f a
      | none => s

def execVqnt (core : Nat) (f : VF) (s : State) : Host.Outcome State Fault Refusal := done (issue s core 0x41 f vqntAct)
def execVqend (core : Nat) (f : VF) (s : State) : Host.Outcome State Fault Refusal := done (vqendIssue s core f)
def execVqscale (core : Nat) (f : VF) (s : State) : Host.Outcome State Fault Refusal := done (issue s core 0x43 f vqscaleAct)
def execQuantPostArrival (core slot fromCore : Nat) (amaxes : List W32) (pass : Nat) (reset : Bool) (s : State) :
    Host.Outcome State Fault Refusal := done (quantPostOp s core slot fromCore amaxes pass reset)

end Sys2Proof.Machine
end

