-- ==== Sys2Proof/Machine/Host.lean ====
section
/-! DEFINITION. What the host's requests do: register reads and writes under the access codes (R21 to R47, R441), doorbells
(R36), configuration requests (R256, R411), and errors of requests (R258). -/

namespace Sys2Proof.Machine

open Sys2Proof

/-! ### 64-bit pairs (R42, R43) -/

/-- Whether an offset is the LO of a pair, and whether it is the HI of one. -/
def isLo (k : Kind) (off : Nat) : Bool :=
  (k != .rng && (off == 0x28 || off == 0x34)) ||
  match rowAt k off with
  | some r => r.pair && (k == .rng || decide (0x40 ≤ off))
  | none => false
def isHi (k : Kind) (off : Nat) : Bool := decide (4 ≤ off) && isLo k (off - 4)

/-- The pairs that hold no readable state (R238, R283). -/
def woPair (k : Kind) (off : Nat) : Bool := (k == .blv0 && off == 0x50) || (k == .hdma0 && off == 0x4C)

/-- The bits of `old` outside a mask with the bits of `w` inside it. -/
def merge (old w m : W32) : W32 := (old &&& ~~~m) ||| (w &&& m)

/-- The value that LO holds for the next write of HI: the staged one, or the current LO (R43). -/
def stagedLo (s : State) (k : Kind) (p off : Nat) : W32 :=
  (tget none s.loStage (dwAddr p off)).getD (if woPair k off then 0 else rget s p off)

/-- A write of LO stages its value. -/
def stageLo (s : State) (k : Kind) (p off : Nat) (w m : W32) : State :=
  { s with loStage := tset none s.loStage (dwAddr p off) (some (merge (stagedLo s k p off) w m)) }

/-- What a write of HI writes in one cycle: bits [63:32] with the staged LO. -/
def pairValue (s : State) (k : Kind) (p lo : Nat) (w m : W32) : Nat :=
  (stagedLo s k p lo).toNat + (merge (if woPair k lo then 0 else rget s p (lo + 4)) w m).toNat * 2 ^ 32

/-- After a commit the staged LO is the current LO. -/
def unstage (s : State) (p lo : Nat) : State := { s with loStage := tset none s.loStage (dwAddr p lo) none }

/-- Whether the write of HI commits its pair, in place of being refused (R58, R216, R283). -/
def pairTakes (s : State) (k : Kind) (lo v : Nat) : Bool :=
  match k with
  | .hsk => !ringsActive s
  | .blv0 => tbSrc s == 0 && mayLoad s v
  | .hdma0 => lo != 0x40 || !ringsActive s
  | _ => true

/-! ### Errors of accesses (R33, R35, R37) -/

/-- ACCESS with its kind and byte offset, in the page of the request, or in HDMA for a slot of a ring. -/
def accessErr (s : State) (p kind off : Nat) : State :=
  match kindOf p with
  | some (.rng, _) => ev s pgHdma 31 (kind * 4096 + off)
  | _ => ev s p 31 (kind * 4096 + off)

/-! ### Header writes (R28, R39, R45, R46) -/

/-- A page arms under a group and so becomes a member, of the outcome after the next while the group is held (R233, R234). -/
def joinGroup (s : State) (g p : Nat) : State :=
  let x := groupAt s g
  let add := fun (l : List Nat) => if l.contains p then l else l ++ [p]
  putGroup s g (if x.held.isSome then { x with joining := add x.joining } else { x with members := add x.members })

/-- A whole-word write of PAGE_COMMIT. -/
def commitWrite (s : State) (p : Nat) (w : W32) : State :=
  let old := commitWord s p
  if pageHeld s p ∨ (bit w 31 ∧ bit old 31) then ev s p 31 0x8030
  else
    let s := rset s p 0x30 ((old &&& 0x00010000) ||| (w &&& 0x8000000F))
    if bit w 31 then joinGroup s (fld w 3 0) p else s

/-- A whole-word write of PAGE_CLR. -/
def clrWrite (s : State) (k : Kind) (p : Nat) (w : W32) : State :=
  if clrOnRead k then ev s p 31 0x9020
  else if w = rget s p 0x1C then rset (rset s p 0x18 0) p 0x24 (rget s p 0x24 &&& 0x7FFFFFFF)
  else s

/-- A write to the header of a page. -/
def headerWrite (s : State) (k : Kind) (p off : Nat) (dw : Dw) : State :=
  if off = 0x0C ∨ off = 0x20 ∨ off = 0x30 then
    if dw.be ≠ 0xF then accessErr s p 1 off
    else if off = 0x0C then rset s p 0x0C (rget s p 0x0C ||| (dw.data &&& 1))
    else if off = 0x20 then clrWrite s k p dw.data
    else commitWrite s p dw.data
  else s

/-! ### Values that a field stores otherwise than written -/

/-- A field held within bounds. -/
def capFld (w : W32) (hi lo a b : Nat) : W32 := ins w hi lo (max a (min b (fld w hi lo)))

/-- The value that a register stores for a written one, as its chapter's field table gives. -/
def normal (k : Kind) (off : Nat) (w : W32) : W32 :=
  match k with
  | .blv0 =>
    if off = 0x44 then
      let w := capFld w 31 24 1 255
      if fld w 1 0 = 3 then ins w 1 0 0 else w
    else if off = 0x64 then capFld w 23 0 1 0xFFFFFF else w
  | .cam0 =>
    if off = 0x40 then capFld w 2 1 0 2
    else if (off - 0x60) % 32 = 0 ∧ 0x60 ≤ off then capFld w 7 6 0 2
    else if (off - 0x60) % 32 = 0x14 ∧ 0x60 ≤ off then capFld w 17 16 0 2
    else w
  | .isu0 =>
    if off = 0x44 then capFld (capFld w 21 12 1 1000) 10 0 1 1048
    else if off = 0x48 then capFld w 9 0 1 1000
    else if 0x50 ≤ off ∧ off < 0x70 then capFld (capFld w 27 24 0 14) 23 20 1 15
    else w
  | .isu2 => if 0xA0 ≤ off ∧ off < 0x120 ∧ off % 8 = 0 then capFld w 3 0 0 8 else w
  | .pwr0 =>
    if off = 0x44 then capFld w 1 0 0 2
    else if off = 0x48 then capFld (capFld (capFld w 31 24 70 110) 15 8 1 255) 7 0 1 255
    else w
  | .cal0 => if off = 0x44 then capFld w 3 0 1 15 else w
  | .prg0 => if off = 0x40 then capFld w 1 0 0 2 else w
  | .prg1 => if off = 0x40 then capFld w 15 8 1 255 else w
  | .flc0 => if off = 0x40 then capFld w 15 0 1 0xFFFF else w
  | .sys | .hsk | .sec0 | .sec1 | .sec2 | .sec3 | .boot0 | .blv1 | .blv2 | .blv3 | .cam1 | .hdma0 | .rng | .flc1 | .trl0
  | .mem0 | .chk0 | .chku | .isu1 | .die | .hk | .cal1 | .prg2 | .prg3 | .plm | .core | .seq | .acc | .vec | .fetch
  | .drain | .cstat | .cdbg => w

/-! ### Block writes -/

/-- A 64-bit write that a HI completes. -/
def pairCommit (s : State) (k : Kind) (p lo v : Nat) : State :=
  if k = .hsk then hskFeat s v
  else if k = .blv0 then tbSet s v
  else if k = .hdma0 ∧ lo = 0x40 then sumBase s v
  else if k = .hdma0 then sumClr s v
  else rset64 s p lo v

/-- A write of BLV_CTRL (R219, R238, R440). -/
def blvCtrl (s : State) (new : W32) : State :=
  let old := ltEn s
  let s := ltEnChanged (rset s pgBlv0 0x40 new) old (bit new 0)
  if bit new 1 then s else modBelv s fun b => { b with tbOut := false }

/-- A write of BLV_TB_SRC: a change of SRC starts the new source (R215, R216). -/
def tbSrcWrite (s : State) (new : W32) : State :=
  let old := tbSrc s
  let s := rset s pgBlv0 0x44 new
  if fld new 1 0 = old then s else srcChanged s (fld new 1 0)

/-- A write that reaches a register of a block, with the value `new` that its stored bits take and the bits `eff` written. -/
def blockAct (s : State) (k : Kind) (i p off : Nat) (new eff : W32) : State :=
  let keep := rset s p off new
  match k with
  | .hsk => if off = 0x44 then hskSelect s (fld new 3 0) else keep
  | .sec1 => if off = 0x4C then cmdGo s eff else keep
  | .sec3 => if off = 0x40 then dbgCtrl s eff else keep
  | .boot0 =>
    if off = 0x50 then skipClr s eff
    else if off = 0x54 then (if bit eff 0 then retryOp s else s)
    else if off = 0x58 then bootDieReset s eff
    else keep
  | .blv0 => if off = 0x40 then blvCtrl s new else if off = 0x44 then tbSrcWrite s new else keep
  | .blv2 => if off = 0x40 then ltSnapshot keep else if off = 0x54 then ltCmd s eff else keep
  | .cam0 =>
    if off = 0x40 then portCtrl s i new
    else if off < 0x60 then keep
    else
      let n := 4 * i + (off - 0x60) / 32
      match (off - 0x60) % 32 with
      | 0 => scfgWrite s n new
      | 4 | 8 | 0x0C | 0x14 => camCfgWrite s n off new
      | _ => keep
  | .flc1 => if off = 0x40 then flcSnapshot keep else keep
  | .trl0 => if off = 0x40 then trlSnapshot keep else keep
  | .mem0 => if off = 0x40 then memSlowSize s (fld eff 5 0) else keep
  | .chk0 =>
    if off = 0x40 then submitJob s (fld eff 10 8) (fld eff 7 0)
    else if off = 0x44 then tplSnapshot keep
    else if off = 0x5C then (if bit eff 0 then tplWrite s else s)
    else keep
  | .isu0 =>
    if off = 0x40 then strobeEnables keep
    else if off = 0x4C then (if bit eff 0 then ilkRelease (if releaseOk s then keep else s) else keep)
    else keep
  | .isu1 =>
    if off = 0x40 then dacLoad s (fld eff 3 0)
    else if 0x50 ≤ off ∧ off < 0x90 ∧ off % 16 = 0 then dacCfg s ((off - 0x50) / 16) new
    else keep
  | .isu2 => if off = 0x54 then isuCal s eff else if off = 0x130 then isuCalSnapshot keep else keep
  | .pwr0 =>
    if off = 0x40 then pwrReq s eff
    else if off = 0x58 then dieRestart s eff
    else if off = 0x6C then pwrLogSnapshot keep
    else keep
  | .cal0 => if off = 0x40 ∧ bit new 1 = false then mapEngines keep (fun d => d == i) (Engine.track false 0 0) else keep
  | .cal1 => if off = 0x40 then calSnapshot keep i else keep
  | .prg1 => if off = 0x40 then (if bit eff 0 then startPass keep i 2 else keep) else keep
  | .prg2 => if off = 0x40 then wearSnapshot keep i else keep
  | .prg3 => if off = 0x44 then driftSnapshot keep i else keep
  | .plm => if off = 0x40 then (if mapLoaded s then plmSnapshot keep i else keep) else keep
  | .vec =>
    if off = 0x40 then (if bit eff 0 then clearHist s i else s)
    else if off = 0x74 then vecSnapshot keep i
    else keep
  | .cdbg => if off = 0x40 then cdbgCtrl s i ((new &&& 1) ||| (eff &&& 2)) else keep
  | .sys | .sec0 | .sec2 | .blv1 | .blv3 | .cam1 | .hdma0 | .rng | .flc0 | .chku | .die | .hk | .prg0 | .core | .seq
  | .acc | .fetch | .drain | .cstat => keep

/-- The bits that a write of a write-only register acts on (R34). -/
def woMask (k : Kind) (off : Nat) : W32 :=
  match k with
  | .sec1 => if off = 0x4C then 0xFF0F else 0
  | .sec3 => if off = 0x40 then 3 else 0
  | .boot0 => if off = 0x50 ∨ off = 0x58 then 0xFFFF else if off = 0x54 then 1 else 0
  | .blv0 => if off = 0x50 ∨ off = 0x54 then 0xFFFFFFFF else 0
  | .blv2 => if off = 0x54 then 3 else 0
  | .hdma0 => if off = 0x4C ∨ off = 0x50 then 0xFFFFFFFF else 0
  | .chk0 => if off = 0x40 then 0x7FF else if off = 0x5C then 1 else 0
  | .isu0 => if off = 0x4C then 1 else 0
  | .isu1 => if off = 0x40 then 0xF else 0
  | .isu2 => if off = 0x54 then 0xDF000000 else 0
  | .pwr0 => if off = 0x58 then 0xFFFF else 0
  | .prg1 => if off = 0x40 then 1 else 0
  | .vec => if off = 0x40 then 1 else 0
  | .cdbg => if off = 0x40 then 2 else 0
  | .sys | .hsk | .sec0 | .sec2 | .blv1 | .blv3 | .cam0 | .cam1 | .rng | .flc0 | .flc1 | .trl0 | .mem0 | .chku | .die | .hk
  | .cal0 | .cal1 | .prg0 | .prg2 | .prg3 | .plm | .core | .seq | .acc | .fetch | .drain | .cstat => 0

/-- A write of a shadowed register goes to its shadow copy, unless the page is armed or held (R44, R46, R234). -/
def shadowWrite (s : State) (k : Kind) (p off : Nat) (w m : W32) : State :=
  if pageHeld s p ∨ bit (commitWord s p) 31 then ev s p 31 (0x8000 + off)
  else rset s p (off + 0x800) (normal k off (merge (rget s p (off + 0x800)) w m))

/-- A write to a register of a block's map: bits under LOCK are kept, LO stages, HI commits, and a register with an effect has it
where an enabled byte reaches one of its fields (R29, R34, R43, R44). A HI write that is refused commits nothing, so the staged LO stays. HDMA_SUM_BASE_LO takes a write only while no ring is
enabled (R283). -/
def blockWrite (s : State) (k : Kind) (i p off : Nat) (r : RegRow) (dw : Dw) : State :=
  let en := beMask dw.be
  let locked := bit (rget s p 0x0C) 0
  let s := if locked ∧ en &&& r.lm ≠ 0 then ev s p 30 (0x5000 + off) else s
  let wo := woMask k off
  let m := en &&& r.wm &&& (if locked then ~~~r.lm else 0xFFFFFFFF)
  if r.shad then shadowWrite s k p off dw.data m
  else if en &&& (r.wm ||| wo) = 0 then s
  else if isLo k off then
    if k = .hdma0 ∧ off = 0x40 ∧ ringsActive s then ev s pgHdma 2 0
    else stageLo s k p off dw.data (en &&& (r.wm ||| wo))
  else if isHi k off then
    let v := pairValue s k p (off - 4) dw.data (en &&& (r.wm ||| wo))
    let t := pairCommit s k p (off - 4) v
    if pairTakes s k (off - 4) v then unstage t p (off - 4) else t
  else blockAct s k i p off (normal k off (merge (rget s p off) dw.data m)) (dw.data &&& en &&& (r.wm ||| wo))

/-! ### Ring slots (R263, R284, R285) -/

/-- The effect on a slot's register of a write with the value its stored bits take: an enable before READY is refused, but for
safe boot (R411). -/
def slotWrite (s : State) (n o : Nat) (new : W32) : State :=
  if o = 0 then
    if bit new 31 ∧ s.boot.ready = false ∧ s.boot.safe = false then ev s pgHdma 2 n else ringCtrl s n new
  else if o = 0x30 then rgSet s n 0x30 new
  else ringCfgWrite s n o new

/-- A write to a ring's slot. -/
def ringWrite (s : State) (p off : Nat) (r : RegRow) (dw : Dw) : State :=
  let n := (p - 0x100) * 64 + off / 64
  let o := off % 64
  let m := beMask dw.be &&& r.wm
  if o = 0x24 ∨ o = 0x28 ∨ o = 0x2C ∨ o = 0x34 then ev s pgHdma 29 (0x6000 + off)
  else if m = 0 then s
  else if isLo .rng off then stageLo s .rng p off dw.data m
  else if isHi .rng off then
    let t := ringCfgWrite64 s n (o - 4) (pairValue s .rng p (off - 4) dw.data m)
    if (ringAt s n).st = .disabled then unstage t p (off - 4) else t
  else slotWrite s n o (merge (rget s p off) dw.data m)

/-! ### Writes of BAR0 (R21, R22, R35, R441) -/

/-- One DW written to a page that answers. -/
def writeDw (s : State) (p off : Nat) (dw : Dw) : State :=
  match kindOf p with
  | none => s
  | some (k, i) =>
    if implemented k off = false then accessErr s p 3 off
    else if k ≠ .rng ∧ off < 0x40 then headerWrite s k p off dw
    else if k ≠ .rng ∧ 0x800 ≤ off then s
    else if gated s k off then ev s p 0 off
    else match rowAt k off with
      | none => s
      | some r => if k = .rng then ringWrite s p off r dw else blockWrite s k i p off r dw

/-- The DWs of a request in turn, the lower address first: each is an access of its own, in a cycle of its own (R35). -/
def writeDws (s : State) (p off : Nat) : List Dw → State
  | [] => s
  | d :: l => writeDws (settle (writeDw s p off d)) p (off + 4) l

/-- A write request to BAR0. One to the page of a die that is off, or to an unmapped page, is one access, and one event, however long it is
(DESIGN CHOICE, log 44: R21 speaks of a write and R22 of an access, and both say of a malformed write that it is dropped whole, while
R35 makes two accesses of 2 DW). -/
def bar0Write (s : State) (addr : Nat) (dws : List Dw) : State :=
  let p := addr / 4096
  let off := addr % 4096 / 4 * 4
  match pageReach s p with
  | .unmapped => ev s pgSys 1 p
  | .off => ev s pgSys 0 p
  | .ok =>
    if 2 < dws.length then accessErr s p 2 off
    else if 4096 < off + 4 * dws.length then accessErr s p 4 off
    else writeDws s p off dws

/-! ### Reads of BAR0 (R34, R38, R42) -/

/-- The value that a read returns. -/
def readValue (s : State) (k : Kind) (i p off : Nat) : W32 :=
  if isHi k off then tget 0 s.hiShadow (dwAddr p (off - 4)) else peek s k i p off

/-- A read of LO latches the HI of its pair. -/
def latchHi (s : State) (k : Kind) (i p off : Nat) : State :=
  if isLo k off then { s with hiShadow := tset 0 s.hiShadow (dwAddr p off) (peek s k i p (off + 4)) } else s

/-- A read of BLV_POS latches its stream's stamp into the pair that follows it (R221). -/
def posLatch (s : State) (n : Nat) : State :=
  let t := (streamAt s n).stamp
  let s := rset64 s pgBlv1 (0x44 + 12 * n) t
  { s with hiShadow := tset 0 s.hiShadow (dwAddr pgBlv1 (0x44 + 12 * n)) (hi32 t) }

/-- A read of PAGE_STICKY or PAGE_FIRST in a page that clears on read (R38). -/
def clearRead (s : State) (p off : Nat) (be : BitVec 4) : State :=
  if off = 0x18 then rset s p 0x18 (rget s p 0x18 &&& ~~~beMask be)
  else if off = 0x24 ∧ be.getLsbD 3 then rset s p 0x24 (rget s p 0x24 &&& 0x7FFFFFFF)
  else s

/-- What a read with an enabled byte does. -/
def readAct (s : State) (k : Kind) (i p off : Nat) (be : BitVec 4) : State :=
  let s := latchHi s k i p off
  let s := if clrOnRead k then clearRead s p off be else s
  match k with
  | .isu2 => if off = 0x44 then adcRead s 0 be else if off = 0x48 then adcRead s 1 be else s
  | .sec2 => if off = 0x44 then idRead s else s
  | .cdbg => if off = 0x4C ∧ gated s k off = false then cdbgAdvance s i else s
  | .blv1 => if 0x40 ≤ off ∧ off < 0x1C0 ∧ (off - 0x40) % 12 = 0 then posLatch s ((off - 0x40) / 12) else s
  | .sys | .hsk | .sec0 | .sec1 | .sec3 | .boot0 | .blv0 | .blv2 | .blv3 | .cam0 | .cam1 | .hdma0 | .rng | .flc0 | .flc1
  | .trl0 | .mem0 | .chk0 | .chku | .isu0 | .isu1 | .pwr0 | .die | .hk | .cal0 | .cal1 | .prg0 | .prg1 | .prg2 | .prg3
  | .plm | .core | .seq | .acc | .vec | .fetch | .drain | .cstat => s

/-- A read request of one DW to BAR0. One to the page of a die that is off sets DIE_OFF_ACCESS even with no byte enabled (DESIGN
CHOICE, log 44: R22 says each access, where R35 denies such a read its side effects in a page that answers). -/
def bar0Read (s : State) (addr : Nat) (be : BitVec 4) : State :=
  let p := addr / 4096
  let off := addr % 4096 / 4 * 4
  match pageReach s p, kindOf p with
  | .off, _ => answer (ev s pgSys 0 p) .ok [0]
  | .ok, some (k, i) =>
    let v := readValue s k i p off
    answer (if be = 0 ∨ implemented k off = false then s else readAct s k i p off be) .ok [v]
  | _, _ => answer s .ok [0]

/-- The DWs of a read request to BAR0 in turn, the lower address first, each an access in a cycle of its own (R35), also in a page of a
die that is off (log 44). -/
def bar0Reads (s : State) (addr : Nat) : List (BitVec 4) → State
  | [] => answer s .ok []
  | [be] => bar0Read s addr be
  | be :: l =>
    let a := settle (bar0Read s addr be)
    let b := bar0Reads a (addr + 4) l
    answer b .ok (a.bus.data ++ b.bus.data)

/-- A read request: one that is longer than 2 DW, or that crosses into another page, is aborted with no side effect, and one to
BAR2 returns 0 (R35, R36). -/
def readRequest (s : State) (bar addr : Nat) (bes : List (BitVec 4)) : State :=
  if 2 < bes.length ∨ (bar = 0 ∧ 4096 < addr % 4096 / 4 * 4 + 4 * bes.length) then answer s .ca []
  else if bar = 2 then answer s .ok (bes.map fun _ => 0)
  else bar0Reads s addr bes

/-! ### Doorbells (R36) -/

/-- A write to BAR2. -/
def bar2Write (s : State) (addr : Nat) (dws : List Dw) : State :=
  let n := addr / 8
  match dws, decide (addr % 8 = 0) with
  | [a, b], true =>
    if a.be = 0xF ∧ b.be = 0xF then doorbell s n (b.data ++ a.data)
    else ev s pgHdma 31 (if n < 4096 then 0xA000 + n else 0xB000 + (n - 4096))
  | _, _ => ev s pgHdma 31 (if n < 4096 then 0xA000 + n else 0xB000 + (n - 4096))

/-! ### The link, and SLEEP (R258, R370, R411) -/

/-- Whether the module is in VIGIL, with no exit under way: nothing reaches it (R370). -/
def inVigil (s : State) : Bool := s.pwr.st == .vigil && s.pwr.exitTo.isNone

/-- Whether memory requests reach the device: step 0x04 has ended, and neither D3hot, an FLR, a held reset nor VIGIL bars
them. -/
def linkOpen (s : State) : Bool :=
  s.bus.linkUp && !s.bus.flr && !s.bus.d3hot && !s.pwr.held && !inVigil s

/-- Whether a request waits for the exit from SLEEP: it is to BAR2, or to a page other than SYS and PWR0. -/
def sleepWaits (s : State) (bar addr : Nat) : Bool :=
  s.pwr.st == .sleep && (bar == 2 || (addr / 4096 != pgSys && addr / 4096 != pgPwr))

/-- Whether an address lies in its BAR (R17). -/
def inBar (bar addr : Nat) : Bool := decide ((bar = 0 ∧ addr < 0x1000000) ∨ (bar = 2 ∧ addr < 0x10000))

/-- A request that has reached the device takes effect. -/
def accessNow (s : State) (a : Access) : State :=
  match a with
  | .write bar addr dws => answer (if bar = 2 then bar2Write s addr dws else bar0Write s addr dws) .posted []
  | .read bar addr bes => readRequest s bar addr bes

/-- A request that must wait starts the exit from SLEEP. -/
def accessWaits (s : State) (bar : Nat) (a : Access) : State :=
  exitOp { s with bus := { s.bus with status := .none, data := [], waiting := s.bus.waiting ++ [a] } }
    (if bar = 2 then .bar2Access else .bar0Access)

/-- A memory write of the host; one that reaches nothing is discarded. -/
def hostWrite (s : State) (bar addr : Nat) (dws : List Dw) : State :=
  if linkOpen s = false ∨ inBar bar addr = false then answer s .posted []
  else if sleepWaits s bar addr then accessWaits s bar (.write bar addr dws)
  else accessNow s (.write bar addr dws)

/-- A memory read of the host (R258, R411). -/
def hostRead (s : State) (bar addr : Nat) (bes : List (BitVec 4)) : State :=
  if linkOpen s = false ∨ inBar bar addr = false then
    answer s (if s.bus.linkUp && !s.pwr.held && !inVigil s then .ur else .none) []
  else if sleepWaits s bar addr then accessWaits s bar (.read bar addr bes)
  else accessNow s (.read bar addr bes)

/-- The requests that waited take effect, in their order, each in a cycle of its own. -/
def runWaiting (s : State) : State :=
  s.bus.waiting.foldl (fun s a => settle (accessNow s a)) { s with bus := { s.bus with waiting := [] } }

/-- An exit ends, and the requests that waited for it complete (R370). -/
def exitDoneHost (s : State) : State :=
  let s := exitDoneStep s
  if s.pwr.exitTo = none ∧ s.pwr.st ≠ .sleep then runWaiting (settle s) else s

/-- A write of one register with one DW. -/
def regWrite (s : State) (p off : Nat) (dw : Dw) : State := hostWrite s 0 (p * 4096 + off) [dw]
/-- A whole-word write of one register. -/
def wordWrite (s : State) (p off : Nat) (w : W32) : State := regWrite s p off ⟨w, 0xF⟩
/-- A read of one register. -/
def regRead (s : State) (p off : Nat) (be : BitVec 4) : State := hostRead s 0 (p * 4096 + off) [be]

/-! ### Configuration requests (R256, R411) -/

/-- What the writable bits of a register of configuration space hold before anything is written: Device Control with relaxed ordering
enabled and read requests of 512 B, and else 0, the completion timeout of 50 µs to 50 ms among it (R257; PRESUMED, log 26). -/
def cfgDefault (reg : Nat) : W32 := if reg = Config.capAt 1 + 8 then 0x2010 else 0

/-- The bits of a register of configuration space that a write stores: Command, the base addresses, the interrupt line, Device Control,
Device Control 2, and the ECRC enables of AER (R256, R257; PRESUMED, log 26). -/
def cfgKept (reg : Nat) : W32 :=
  if reg = 4 then 0x146
  else if reg = 0x10 then 0xFF000000
  else if reg = 0x18 then 0xFFFF0000
  else if reg = 0x14 ∨ reg = 0x1C then 0xFFFFFFFF
  else if reg = 0x3C then 0xFF
  else if reg = Config.capAt 1 + 8 then 0x71FF
  else if reg = Config.capAt 1 + 0x28 then 0x101F
  else if reg = 0x118 then 0x140
  else 0

/-- The stored bits of a register of configuration space. -/
def cfgStored (s : State) (reg : Nat) : W32 := tget (cfgDefault reg) s.bus.bars reg

/-- The registers of configuration space that R256 and R257 lay down, each with its value and the mask of the bits that they give. What
each item is named after, the PCI Express Base Specification, places it in its register (PRESUMED, log 26), and the bit of an option
that they do not list reads 0 (R5). -/
def cfgHeader (s : State) : List (Nat × W32 × W32) :=
  let all : W32 := 0xFFFFFFFF
  let ids := put 31 16 s.part.member.deviceId ||| put 15 0 s.part.vendorId.toNat
  [(0, ids, all), (4, 0x00100000 ||| cfgStored s 4, 0x001007FF), (8, put 31 8 0x120000 ||| put 7 0 s.part.pavStep.toNat, all),
   (0x0C, 0, 0xFFFFFF00), (0x10, cfgStored s 0x10 ||| 4, all), (0x14, cfgStored s 0x14, all), (0x18, cfgStored s 0x18 ||| 4, all),
   (0x1C, cfgStored s 0x1C, all), (0x20, 0, all), (0x24, 0, all), (0x28, 0, all), (0x2C, ids, all), (0x30, 0, all),
   (0x34, put 7 0 (Config.capAt 0), all), (0x38, 0, all), (0x3C, cfgStored s 0x3C, all)]

/-- The two capabilities: Power Management with PowerState and No_Soft_Reset and without PME, and PCI Express, an endpoint with a payload of
512 B, function-level reset, ASPM L1 alone with its latency, five rates, four lanes, completion timeout ranges A and B, 10-bit tags, and
its controls; the list ends there, with no MSI and no MSI-X (R256, R257). -/
def cfgCaps (s : State) : List (Nat × W32 × W32) :=
  let all : W32 := 0xFFFFFFFF
  let pm := Config.capAt 0
  let pe := Config.capAt 1
  [(pm, put 15 8 pe ||| 1, 0xFFF8FFFF), (pm + 4, putBit 3 true ||| put 1 0 (if s.bus.d3hot then 3 else 0), all),
   (pe, put 19 16 2 ||| 0x10, all), (pe + 4, putBit 28 true ||| putBit 15 true ||| putBit 5 true ||| put 2 0 2, 0xF003803F),
   (pe + 8, cfgStored s (pe + 8), 0x0000FFFF),
   (pe + 0x0C, put 17 15 5 ||| put 11 10 2 ||| put 9 4 4 ||| put 3 0 5, 0x00BF8FFF),
   (pe + 0x14, 0, all), (pe + 0x18, 0, all), (pe + 0x1C, 0, all), (pe + 0x20, 0, all),
   (pe + 0x24, putBit 17 true ||| putBit 16 true ||| put 3 0 3, 0xFFFFFFEF), (pe + 0x28, cfgStored s (pe + 0x28), all),
   (pe + 0x2C, put 7 1 0x1F, all), (pe + 0x34, 0, all), (pe + 0x38, 0, all)]

/-- The extended capabilities, each with the place of the next: AER, PTM, L1 PM Substates, Secondary PCI Express, 16.0 GT/s, 32.0 GT/s,
Lane Margining and Data Link Feature (R256); PTM as requester alone, the substates of L1, and the ECRC of AER with its enables (R257). -/
def cfgExt (s : State) : List (Nat × W32 × W32) :=
  let at_ := fun (i : Nat) => if i = 0 then 0x100 else Config.ecapAt i
  let ids : List Nat := [0x0001, 0x001F, 0x001E, 0x0019, 0x0026, 0x002A, 0x0027, 0x0025]
  (ids.zipIdx.map fun e => (at_ e.2, put 31 20 (if e.2 = 7 then 0 else at_ (e.2 + 1)) ||| put 15 0 e.1, 0xFFF0FFFF)) ++
  [(0x118, 0xA0 ||| cfgStored s 0x118, 0xFFFFFFE0), (at_ 1 + 4, 1, 0xFFFFFFFF), (at_ 2 + 4, 0x1F, 0xFF)]

/-- A register of configuration space, with the mask of the bits that the rules give. -/
def cfgWord (s : State) (reg : Nat) : W32 × W32 :=
  match (cfgHeader s ++ cfgCaps s ++ cfgExt s).find? fun e => e.1 == reg with
  | some e => e.2
  | none => (0, 0)

/-- A write to configuration space stores the writable bits, moves PowerState, and initiates an FLR (R256 to R258). -/
def cfgWrite (s : State) (reg : Nat) (data : W32) : State :=
  if reg = Config.capAt 0 + 4 then
    { s with bus := { s.bus with d3hot := if fld data 1 0 = 3 then true else if fld data 1 0 = 0 then false else s.bus.d3hot } }
  else
    let s := { s with bus := { s.bus with bars := tset (cfgDefault reg) s.bus.bars reg (data &&& cfgKept reg) } }
    if reg = Config.capAt 1 + 8 ∧ bit data 15 = true then hostResetOp s 5 else s

/-- A configuration request is answered, or retried until step 0x04 has ended and during an FLR; bits that the manual does not
give are free (log 11). -/
def configOp (s : State) (write : Bool) (reg : Nat) (data : W32) : State :=
  if s.bus.perst ∨ s.pwr.held ∨ inVigil s = true then answer s .none []
  else if s.bus.linkUp = false ∨ s.bus.flr then answer s .crs []
  else if write then cfgWrite (answer s .ok []) reg data
  else
    let (v, m) := cfgWord s reg
    let (w, s) := drawFree s
    answer s .ok [v ||| (w &&& ~~~m)]

/-! ### Errors (R258) -/

/-- A memory request that hits no BAR, or arrives in D3hot or during an FLR: a read completes with Unsupported Request, and a write
is discarded. -/
def unsupportedOp (s : State) (write : Bool) (bar : Option Nat) : State :=
  if s.bus.linkUp = false ∨ s.pwr.held = true then s
  else if bar = none ∨ s.bus.d3hot ∨ s.bus.flr then answer s (if write then .posted else .ur) [] else s

def reportAer (s : State) (a : Aer) : State := { s with bus := { s.bus with aer := s.bus.aer ++ [a] } }

/-- A poisoned write is dropped and reported through AER. -/
def poisonedOp (s : State) (bar addr : Nat) : State :=
  if linkOpen s then reportAer (answer s .posted []) (.poisonedWrite bar addr) else answer s .posted []

/-- A device read of host memory that ends in an error is reported, and has the outcome of the read that failed: the ring enters
FAULT (R267), the request fails (R278), or the job ends with ERROR (R340). -/
def hostReadErrorOp (s : State) (o : ReadOwner) : State :=
  match o with
  | .ring n =>
    let r := ringAt s n
    if (r.st = .running ∨ r.st = .stalled) ∧ (r.posted.any fun p => !p.isRead) = true then
      ev (count (putRing (reportAer s (.hostRead o)) n { r with st := .fault }) pgHdma 0x6C 1) pgHdma 4 n
    else s
  | .req id =>
    match reqAt s id with
    | some q =>
      if q.phase = .finished then s
      else ev (count (failReq (reportAer s (.hostRead o)) id 0x7F) pgHdma 0x6C 1) pgHdma 4 q.ring
    | none => s
  | .sillage u =>
    match (unitAt s u).run with
    | some (_, _, c) =>
      if c.mode ≠ 3 ∧ c.space = 3 then count (jobEndOp (reportAer s (.hostRead o)) u true) pgHdma 0x6C 1 else s
    | none => s

/-! ### The commands -/

def execRegisterWrite (addr : Nat) (dws : List Dw) (s : State) : Host.Outcome State Fault Refusal := done (hostWrite s 0 addr dws)
def execPageLockWrite (page : Nat) (dw : Dw) (s : State) : Host.Outcome State Fault Refusal := done (regWrite s page 0x0C dw)
def execPageClrWrite (page : Nat) (dw : Dw) (s : State) : Host.Outcome State Fault Refusal := done (regWrite s page 0x20 dw)
def execPageCommitWrite (page : Nat) (dw : Dw) (s : State) : Host.Outcome State Fault Refusal := done (regWrite s page 0x30 dw)
def execPageStickyRead (page : Nat) (be : BitVec 4) (s : State) : Host.Outcome State Fault Refusal := done (regRead s page 0x18 be)
def execPageFirstRead (page : Nat) (be : BitVec 4) (s : State) : Host.Outcome State Fault Refusal := done (regRead s page 0x24 be)
def execLoReadLatch (bar addr : Nat) (bes : List (BitVec 4)) (s : State) : Host.Outcome State Fault Refusal :=
  done (hostRead s bar addr bes)
def execHiWriteCommit (addr : Nat) (dw : Dw) (s : State) : Host.Outcome State Fault Refusal := done (hostWrite s 0 addr [dw])
def execDoorbellWrite (addr : Nat) (dws : List Dw) (s : State) : Host.Outcome State Fault Refusal := done (hostWrite s 2 addr dws)
def execHskSelectWrite (dw : Dw) (s : State) : Host.Outcome State Fault Refusal := done (regWrite s pgHsk 0x44 dw)
def execHskFeatSelectWrite (dw : Dw) (s : State) : Host.Outcome State Fault Refusal := done (regWrite s pgHsk 0x54 dw)
def execTbSetWrite (dw : Dw) (s : State) : Host.Outcome State Fault Refusal := done (regWrite s pgBlv0 0x54 dw)
def execLtEnWrite (dw : Dw) (s : State) : Host.Outcome State Fault Refusal := done (regWrite s pgBlv0 0x40 dw)
def execLtIndexWrite (dw : Dw) (s : State) : Host.Outcome State Fault Refusal := done (regWrite s pgBlv2 0x40 dw)
def execLtCmdWrite (dw : Dw) (s : State) : Host.Outcome State Fault Refusal := done (regWrite s pgBlv2 0x54 dw)
def execLtCmdClearPend (dw : Dw) (s : State) : Host.Outcome State Fault Refusal := done (regWrite s pgBlv2 0x54 dw)
def execBlvPosRead (stream : Nat) (be : BitVec 4) (s : State) : Host.Outcome State Fault Refusal :=
  done (if stream < 32 then regRead s pgBlv1 (0x40 + 12 * stream) be else s)
def execCalEngIndexWrite (die : Nat) (dw : Dw) (s : State) : Host.Outcome State Fault Refusal := done (regWrite s (pgCal1 die) 0x40 dw)
def execSweepCtrlStart (die : Nat) (dw : Dw) (s : State) : Host.Outcome State Fault Refusal := done (regWrite s (pgPrg1 die) 0x40 dw)
def execWearIndexWrite (die : Nat) (dw : Dw) (s : State) : Host.Outcome State Fault Refusal := done (regWrite s (pgPrg2 die) 0x40 dw)
def execDriftIndexWrite (die : Nat) (dw : Dw) (s : State) : Host.Outcome State Fault Refusal := done (regWrite s (pgPrg3 die) 0x44 dw)
def execPlmIndexWrite (die : Nat) (dw : Dw) (s : State) : Host.Outcome State Fault Refusal := done (regWrite s (pgPlm die) 0x40 dw)
def execHistClr (die core : Nat) (dw : Dw) (s : State) : Host.Outcome State Fault Refusal :=
  done (regWrite s (pgVec (die * 16 + core % 16)) 0x40 dw)
def execVecSlotIndexWrite (die core : Nat) (dw : Dw) (s : State) : Host.Outcome State Fault Refusal :=
  done (regWrite s (pgVec (die * 16 + core % 16)) 0x74 dw)
def execCamStreamEnable (stream : Nat) (dw : Dw) (s : State) : Host.Outcome State Fault Refusal :=
  done (regWrite s (camPage stream) (0x60 + camOff stream) dw)
def execRingEnable (ring : Nat) (dw : Dw) (s : State) : Host.Outcome State Fault Refusal :=
  done (regWrite s (pgRng ring) (slotOff ring) dw)
def execRingDisable (ring : Nat) (dw : Dw) (s : State) : Host.Outcome State Fault Refusal :=
  done (regWrite s (pgRng ring) (slotOff ring) dw)
def execHdmaSumBaseWrite (dw : Dw) (s : State) : Host.Outcome State Fault Refusal := done (regWrite s pgHdma 0x40 dw)
def execHdmaSumClr (dw : Dw) (s : State) : Host.Outcome State Fault Refusal := done (regWrite s pgHdma 0x50 dw)
def execFlcSlotIndexWrite (dw : Dw) (s : State) : Host.Outcome State Fault Refusal := done (regWrite s pgFlc1 0x40 dw)
def execTrlLinkIndexWrite (dw : Dw) (s : State) : Host.Outcome State Fault Refusal := done (regWrite s pgTrl 0x40 dw)
def execMemSlowSizeWrite (dw : Dw) (s : State) : Host.Outcome State Fault Refusal := done (regWrite s pgMem 0x40 dw)
def execChkSubmit (dw : Dw) (s : State) : Host.Outcome State Fault Refusal := done (regWrite s pgChk0 0x40 dw)
def execChkTplIndexWrite (dw : Dw) (s : State) : Host.Outcome State Fault Refusal := done (regWrite s pgChk0 0x44 dw)
def execChkTplWrite (dw : Dw) (s : State) : Host.Outcome State Fault Refusal := done (regWrite s pgChk0 0x5C dw)
def execIlkRelease (dw : Dw) (s : State) : Host.Outcome State Fault Refusal := done (regWrite s pgIsu0 0x4C dw)
def execDacCfgWrite (out : Nat) (dw : Dw) (s : State) : Host.Outcome State Fault Refusal :=
  done (regWrite s pgIsu1 (0x50 + 16 * (out % 4)) dw)
def execIsuDacLoad (dw : Dw) (s : State) : Host.Outcome State Fault Refusal := done (regWrite s pgIsu1 0x40 dw)
def execAdcDataRead (conv : Nat) (be : BitVec 4) (s : State) : Host.Outcome State Fault Refusal :=
  done (regRead s pgIsu2 (if conv = 0 then 0x44 else 0x48) be)
def execCalZero (conv ch : Nat) (s : State) : Host.Outcome State Fault Refusal :=
  done (wordWrite s pgIsu2 0x54 (put 31 30 1 ||| put 28 28 conv ||| put 27 24 ch))
def execCalFs (conv ch : Nat) (s : State) : Host.Outcome State Fault Refusal :=
  done (wordWrite s pgIsu2 0x54 (put 31 30 2 ||| put 28 28 conv ||| put 27 24 ch))
def execCalClr (conv ch : Nat) (s : State) : Host.Outcome State Fault Refusal :=
  done (wordWrite s pgIsu2 0x54 (put 31 30 3 ||| put 28 28 conv ||| put 27 24 ch))
def execIsuCalIndexWrite (dw : Dw) (s : State) : Host.Outcome State Fault Refusal := done (regWrite s pgIsu2 0x130 dw)
def execPwrReqWrite (dw : Dw) (s : State) : Host.Outcome State Fault Refusal := done (regWrite s pgPwr 0x40 dw)
def execPwrDieRestart (dw : Dw) (s : State) : Host.Outcome State Fault Refusal := done (regWrite s pgPwr 0x58 dw)
def execPwrLogIndexWrite (dw : Dw) (s : State) : Host.Outcome State Fault Refusal := done (regWrite s pgPwr 0x6C dw)
def execFwStage (arg : BitVec 8) (s : State) : Host.Outcome State Fault Refusal :=
  done (wordWrite s pgSec1 0x4C (put 15 8 arg.toNat ||| 1))
def execRollbackCommit (arg : BitVec 8) (s : State) : Host.Outcome State Fault Refusal :=
  done (wordWrite s pgSec1 0x4C (put 15 8 arg.toNat ||| 2))
def execOwnerEnrol (arg : BitVec 8) (s : State) : Host.Outcome State Fault Refusal :=
  done (wordWrite s pgSec1 0x4C (put 15 8 arg.toNat ||| 3))
def execOwnerRevoke (arg : BitVec 8) (s : State) : Host.Outcome State Fault Refusal :=
  done (wordWrite s pgSec1 0x4C (put 15 8 arg.toNat ||| 4))
def execOdfenRevoke (arg : BitVec 8) (s : State) : Host.Outcome State Fault Refusal :=
  done (wordWrite s pgSec1 0x4C (put 15 8 arg.toNat ||| 5))
def execDbgUnlock (arg : BitVec 8) (s : State) : Host.Outcome State Fault Refusal :=
  done (wordWrite s pgSec1 0x4C (put 15 8 arg.toNat ||| 6))
def execNewChal (dw : Dw) (s : State) : Host.Outcome State Fault Refusal := done (regWrite s pgSec3 0x40 dw)
def execRelock (dw : Dw) (s : State) : Host.Outcome State Fault Refusal := done (regWrite s pgSec3 0x40 dw)
def execSecIdDataRead (be : BitVec 4) (s : State) : Host.Outcome State Fault Refusal := done (regRead s pgSec2 0x44 be)
def execCdbgHalt (die core : Nat) (dw : Dw) (s : State) : Host.Outcome State Fault Refusal :=
  done (regWrite s (pgCdbg (die * 16 + core % 16)) 0x40 dw)
def execCdbgStep (die core : Nat) (dw : Dw) (s : State) : Host.Outcome State Fault Refusal :=
  done (regWrite s (pgCdbg (die * 16 + core % 16)) 0x40 dw)
def execCdbgDataRead (die core : Nat) (be : BitVec 4) (s : State) : Host.Outcome State Fault Refusal :=
  done (regRead s (pgCdbg (die * 16 + core % 16)) 0x4C be)
def execBootRetry (dw : Dw) (s : State) : Host.Outcome State Fault Refusal := done (regWrite s pgBoot 0x54 dw)
def execBootDieReset (dw : Dw) (s : State) : Host.Outcome State Fault Refusal := done (regWrite s pgBoot 0x58 dw)
def execConfigRequest (write : Bool) (reg : Nat) (data : W32) (s : State) : Host.Outcome State Fault Refusal :=
  done (configOp s write reg data)
def execUnsupportedRequest (write : Bool) (bar : Option Nat) (s : State) : Host.Outcome State Fault Refusal :=
  done (unsupportedOp s write bar)
def execPoisonedWrite (bar : Nat) (addr : Nat) (s : State) : Host.Outcome State Fault Refusal := done (poisonedOp s bar addr)
def execHostReadError (owner : ReadOwner) (s : State) : Host.Outcome State Fault Refusal := done (hostReadErrorOp s owner)
def execPstateExitDone (s : State) : Host.Outcome State Fault Refusal := done (exitDoneHost s)

end Sys2Proof.Machine
end

