-- ==== Sys2Proof/Machine/Tap.lean ====
section
/-! DEFINITION. The test access port (R436, R437): its instructions, the data registers that they select, and what the boundary
instructions do to the pins. -/

namespace Sys2Proof.Machine

open Sys2Proof

/-- SAFE# is driven low while a trip is held, and is high-impedance else; a VAUX below its reset level holds none (R432). -/
def safeLow (s : State) : Bool := s.isu.tripped

/-- Whether domain D0 has its supplies, and D3 its power (R366, R376). -/
def d0On (s : State) : Bool := s.pwr.resetBy != some .vaux && s.pwr.resetBy != some .vio
def d3On (s : State) : Bool := d0On s && !s.pwr.d3off

/-- The boundary register: one cell per low-speed ball in the order of R429, ISU_STB0 at bit 0 and TRST# at bit 15. Cells of a pin whose
domain is off capture 0; a strobe's cell captures its pin, TB_OUT's what the module drives, SAFE#'s 0 under a trip and PERST#'s its
level; the levels that the board gives the other pins are free (R437, logs 11 and 37). -/
def boundaryCapture (s : State) (board : W32) : W32 :=
  let stb := (List.range 4).foldl (fun w n => w ||| putBit n (d3On s && (stbAt s n).high)) (0 : W32)
  let rest := putBit 5 s.belv.tbOut ||| putBit 6 (bit board 6 && !safeLow s) ||| putBit 8 (!s.bus.perst) ||| (board &&& 0xFE90)
  if d0On s then stb ||| rest else 0

/-- An instruction of the port takes force, and the register that it selects captures. -/
def tapLoad (s : State) (ir : Nat) (reg : TapReg) (data : W32) : State :=
  { s with tap := { s.tap with ir := BitVec.ofNat 5 ir, reg := reg, data := data } }

/-- EXTEST, CLAMP and HIGHZ suspend the module's own drive of the cell-equipped pins until Test-Logic-Reset, and the strobes go low;
SAFE# keeps its function (R437). -/
def tapSuspend (s : State) : State :=
  (List.range 4).foldl strobeFall { s with tap := { s.tap with suspended := true } }

/-- EXTEST and SAMPLE/PRELOAD select the boundary register. -/
def tapBoundary (s : State) (ir : Nat) : State :=
  let (w, s) := drawFree s
  tapLoad s ir .boundary (boundaryCapture s w)

/-- An instruction that selects the bypass register, which captures 0. -/
def tapBypass (s : State) (ir : Nat) : State := tapLoad s ir .bypass 0

/-- IDCODE. -/
def tapIdcode (s : State) : State := tapLoad s 2 .identity (idcode s)

/-- DBG opens the debug path, and acts as BYPASS at debug level 0 (R401, R436). What the path shows is not given: a free value. -/
def tapDebug (s : State) : State :=
  if s.sec.level = 0 then tapBypass s 0x10
  else
    let (w, s) := drawFree s
    tapLoad s 0x10 .debug w

/-- Test-Logic-Reset: IDCODE is selected, and the pins resume their function. -/
def tapResetOp (s : State) : State := { s with tap := { Tap.zero with data := idcode s } }

def execTapReset (s : State) : Host.Outcome State Fault Refusal := done (tapResetOp s)
def execTapExtest (s : State) : Host.Outcome State Fault Refusal := done (tapSuspend (tapBoundary s 0))
def execTapSamplePreload (s : State) : Host.Outcome State Fault Refusal := done (tapBoundary s 1)
def execTapIdcode (s : State) : Host.Outcome State Fault Refusal := done (tapIdcode s)
def execTapClamp (s : State) : Host.Outcome State Fault Refusal := done (tapSuspend (tapBypass s 3))
def execTapHighz (s : State) : Host.Outcome State Fault Refusal := done (tapSuspend (tapBypass s 4))
def execTapDbg (s : State) : Host.Outcome State Fault Refusal := done (tapDebug s)
def execTapBypass (s : State) : Host.Outcome State Fault Refusal := done (tapBypass s 0x1F)

end Sys2Proof.Machine
end

