-- ==== Sys2Proof/Machine/Dispatch.lean ====
section
/-! DEFINITION. The meaning of each command: one arm for each constructor of `Instr`, each a call of that command's own
meaning. -/

namespace Sys2Proof.Machine

open Sys2Proof

def exec (i : Instr) (s : State) : Host.Outcome State Fault Refusal :=
  match i with
  | .registerWrite addr dws => Sys2Proof.Machine.execRegisterWrite addr dws s
  | .pageLockWrite page dw => Sys2Proof.Machine.execPageLockWrite page dw s
  | .pageClrWrite page dw => Sys2Proof.Machine.execPageClrWrite page dw s
  | .pageCommitWrite page dw => Sys2Proof.Machine.execPageCommitWrite page dw s
  | .pageStickyRead page be => Sys2Proof.Machine.execPageStickyRead page be s
  | .pageFirstRead page be => Sys2Proof.Machine.execPageFirstRead page be s
  | .loReadLatch bar addr bes => Sys2Proof.Machine.execLoReadLatch bar addr bes s
  | .hiWriteCommit addr dw => Sys2Proof.Machine.execHiWriteCommit addr dw s
  | .doorbellWrite addr dws => Sys2Proof.Machine.execDoorbellWrite addr dws s
  | .hskSelectWrite dw => Sys2Proof.Machine.execHskSelectWrite dw s
  | .hskFeatSelectWrite dw => Sys2Proof.Machine.execHskFeatSelectWrite dw s
  | .tbSetWrite dw => Sys2Proof.Machine.execTbSetWrite dw s
  | .ltEnWrite dw => Sys2Proof.Machine.execLtEnWrite dw s
  | .ltIndexWrite dw => Sys2Proof.Machine.execLtIndexWrite dw s
  | .ltCmdWrite dw => Sys2Proof.Machine.execLtCmdWrite dw s
  | .ltCmdClearPend dw => Sys2Proof.Machine.execLtCmdClearPend dw s
  | .blvPosRead stream be => Sys2Proof.Machine.execBlvPosRead stream be s
  | .calEngIndexWrite die dw => Sys2Proof.Machine.execCalEngIndexWrite die dw s
  | .sweepCtrlStart die dw => Sys2Proof.Machine.execSweepCtrlStart die dw s
  | .wearIndexWrite die dw => Sys2Proof.Machine.execWearIndexWrite die dw s
  | .driftIndexWrite die dw => Sys2Proof.Machine.execDriftIndexWrite die dw s
  | .plmIndexWrite die dw => Sys2Proof.Machine.execPlmIndexWrite die dw s
  | .histClr die core dw => Sys2Proof.Machine.execHistClr die core dw s
  | .vecSlotIndexWrite die core dw => Sys2Proof.Machine.execVecSlotIndexWrite die core dw s
  | .camStreamEnable stream dw => Sys2Proof.Machine.execCamStreamEnable stream dw s
  | .ringEnable ring dw => Sys2Proof.Machine.execRingEnable ring dw s
  | .ringDisable ring dw => Sys2Proof.Machine.execRingDisable ring dw s
  | .ringDrained ring => Sys2Proof.Machine.execRingDrained ring s
  | .hdmaSumBaseWrite dw => Sys2Proof.Machine.execHdmaSumBaseWrite dw s
  | .hdmaSumClr dw => Sys2Proof.Machine.execHdmaSumClr dw s
  | .flcSlotIndexWrite dw => Sys2Proof.Machine.execFlcSlotIndexWrite dw s
  | .trlLinkIndexWrite dw => Sys2Proof.Machine.execTrlLinkIndexWrite dw s
  | .memSlowSizeWrite dw => Sys2Proof.Machine.execMemSlowSizeWrite dw s
  | .chkSubmit dw => Sys2Proof.Machine.execChkSubmit dw s
  | .chkTplIndexWrite dw => Sys2Proof.Machine.execChkTplIndexWrite dw s
  | .chkTplWrite dw => Sys2Proof.Machine.execChkTplWrite dw s
  | .ilkRelease dw => Sys2Proof.Machine.execIlkRelease dw s
  | .dacCfgWrite out dw => Sys2Proof.Machine.execDacCfgWrite out dw s
  | .isuDacLoad dw => Sys2Proof.Machine.execIsuDacLoad dw s
  | .adcDataRead conv be => Sys2Proof.Machine.execAdcDataRead conv be s
  | .calZero conv ch => Sys2Proof.Machine.execCalZero conv ch s
  | .calFs conv ch => Sys2Proof.Machine.execCalFs conv ch s
  | .calClr conv ch => Sys2Proof.Machine.execCalClr conv ch s
  | .isuCalDone codes => Sys2Proof.Machine.execIsuCalDone codes s
  | .isuCalIndexWrite dw => Sys2Proof.Machine.execIsuCalIndexWrite dw s
  | .pwrReqWrite dw => Sys2Proof.Machine.execPwrReqWrite dw s
  | .pwrDieRestart dw => Sys2Proof.Machine.execPwrDieRestart dw s
  | .pwrLogIndexWrite dw => Sys2Proof.Machine.execPwrLogIndexWrite dw s
  | .fwStage arg => Sys2Proof.Machine.execFwStage arg s
  | .rollbackCommit arg => Sys2Proof.Machine.execRollbackCommit arg s
  | .ownerEnrol arg => Sys2Proof.Machine.execOwnerEnrol arg s
  | .ownerRevoke arg => Sys2Proof.Machine.execOwnerRevoke arg s
  | .odfenRevoke arg => Sys2Proof.Machine.execOdfenRevoke arg s
  | .dbgUnlock arg => Sys2Proof.Machine.execDbgUnlock arg s
  | .newChal dw => Sys2Proof.Machine.execNewChal dw s
  | .relock dw => Sys2Proof.Machine.execRelock dw s
  | .secIdDataRead be => Sys2Proof.Machine.execSecIdDataRead be s
  | .cdbgHalt die core dw => Sys2Proof.Machine.execCdbgHalt die core dw s
  | .cdbgStep die core dw => Sys2Proof.Machine.execCdbgStep die core dw s
  | .cdbgDataRead die core be => Sys2Proof.Machine.execCdbgDataRead die core be s
  | .bootRetry dw => Sys2Proof.Machine.execBootRetry dw s
  | .bootDieReset dw => Sys2Proof.Machine.execBootDieReset dw s
  | .configRequest write reg data => Sys2Proof.Machine.execConfigRequest write reg data s
  | .unsupportedRequest write bar => Sys2Proof.Machine.execUnsupportedRequest write bar s
  | .poisonedWrite bar addr => Sys2Proof.Machine.execPoisonedWrite bar addr s
  | .hostReadError owner => Sys2Proof.Machine.execHostReadError owner s
  | .ptmRequest => Sys2Proof.Machine.execPtmRequest s
  | .ptmResponse master => Sys2Proof.Machine.execPtmResponse master s
  | .ppsEdge => Sys2Proof.Machine.execPpsEdge s
  | .holdover => Sys2Proof.Machine.execHoldover s
  | .tbSyncMessage skews => Sys2Proof.Machine.execTbSyncMessage skews s
  | .tbOutRise => Sys2Proof.Machine.execTbOutRise s
  | .tbOutFall => Sys2Proof.Machine.execTbOutFall s
  | .descriptorRead ring => Sys2Proof.Machine.execDescriptorRead ring s
  | .descriptorReady ring => Sys2Proof.Machine.execDescriptorReady ring s
  | .dispatch => Sys2Proof.Machine.execDispatch s
  | .runTask req => Sys2Proof.Machine.execRunTask req s
  | .issueVerdict req => Sys2Proof.Machine.execIssueVerdict req s
  | .readTensor req => Sys2Proof.Machine.execReadTensor req s
  | .writeTensor req => Sys2Proof.Machine.execWriteTensor req s
  | .flaconBegin req => Sys2Proof.Machine.execFlaconBegin req s
  | .shard req => Sys2Proof.Machine.execShard req s
  | .shardSend req => Sys2Proof.Machine.execShardSend req s
  | .shardDieReceive req die payload => Sys2Proof.Machine.execShardDieReceive req die payload s
  | .flaconActivate req => Sys2Proof.Machine.execFlaconActivate req s
  | .activateTimeout slot => Sys2Proof.Machine.execActivateTimeout slot s
  | .activationPrepared slot => Sys2Proof.Machine.execActivationPrepared slot s
  | .activationJudged slot => Sys2Proof.Machine.execActivationJudged slot s
  | .activationApply slot => Sys2Proof.Machine.execActivationApply slot s
  | .nvRecordWrite => Sys2Proof.Machine.execNvRecordWrite s
  | .flaconRetire req => Sys2Proof.Machine.execFlaconRetire req s
  | .flaconAbort req => Sys2Proof.Machine.execFlaconAbort req s
  | .slotDrained slot => Sys2Proof.Machine.execSlotDrained slot s
  | .inPlaceDrained slot => Sys2Proof.Machine.execInPlaceDrained slot s
  | .calibrate req => Sys2Proof.Machine.execCalibrate req s
  | .verifySweep req => Sys2Proof.Machine.execVerifySweep req s
  | .attest req => Sys2Proof.Machine.execAttest req s
  | .fence req => Sys2Proof.Machine.execFence req s
  | .nopReq req => Sys2Proof.Machine.execNopReq req s
  | .completionWrite req => Sys2Proof.Machine.execCompletionWrite req s
  | .headWordWrite ring => Sys2Proof.Machine.execHeadWordWrite ring s
  | .atTrigger entry => Sys2Proof.Machine.execAtTrigger entry s
  | .everyTrigger entry => Sys2Proof.Machine.execEveryTrigger entry s
  | .actionIssue entry => Sys2Proof.Machine.execActionIssue entry s
  | .lateJudgement entry => Sys2Proof.Machine.execLateJudgement entry s
  | .commitApply group => Sys2Proof.Machine.execCommitApply group s
  | .calWindowOpen win => Sys2Proof.Machine.execCalWindowOpen win s
  | .calWindowClose win => Sys2Proof.Machine.execCalWindowClose win s
  | .engineCalEnd eng groups => Sys2Proof.Machine.execEngineCalEnd eng groups s
  | .deadlineMiss req => Sys2Proof.Machine.execDeadlineMiss req s
  | .entryUe entry => Sys2Proof.Machine.execEntryUe entry s
  | .frameStart stream hdrFixed => Sys2Proof.Machine.execFrameStart stream hdrFixed s
  | .frameEnd stream hdrFixed => Sys2Proof.Machine.execFrameEnd stream hdrFixed s
  | .longPacket pkt => Sys2Proof.Machine.execLongPacket pkt s
  | .hdrUe port lost => Sys2Proof.Machine.execHdrUe port lost s
  | .lineStartPacket pkt => Sys2Proof.Machine.execLineStartPacket pkt s
  | .lineEndPacket pkt => Sys2Proof.Machine.execLineEndPacket pkt s
  | .stripePush stream stripe => Sys2Proof.Machine.execStripePush stream stripe s
  | .streamLost stream => Sys2Proof.Machine.execStreamLost stream s
  | .readIntegrate eng => Sys2Proof.Machine.execReadIntegrate eng s
  | .confidenceDecision eng errs => Sys2Proof.Machine.execConfidenceDecision eng errs s
  | .saturationDecision eng errs => Sys2Proof.Machine.execSaturationDecision eng errs s
  | .fetchGroup run => Sys2Proof.Machine.execFetchGroup run s
  | .counterClaim run => Sys2Proof.Machine.execCounterClaim run s
  | .pavilionClaim run => Sys2Proof.Machine.execPavilionClaim run s
  | .rowBroadcast run row ks => Sys2Proof.Machine.execRowBroadcast run row ks s
  | .accAllocate run => Sys2Proof.Machine.execAccAllocate run s
  | .tileQueue core tile => Sys2Proof.Machine.execTileQueue core tile s
  | .drainRow core => Sys2Proof.Machine.execDrainRow core s
  | .endProg run core => Sys2Proof.Machine.execEndProg run core s
  | .tileDelivery core => Sys2Proof.Machine.execTileDelivery core s
  | .sramEccError core addr corrected req => Sys2Proof.Machine.execSramEccError core addr corrected req s
  | .quantPostArrival core slot fromCore amaxes pass reset => Sys2Proof.Machine.execQuantPostArrival core slot fromCore amaxes pass reset s
  | .vecNop core f => Sys2Proof.Machine.execVecNop core f s
  | .vld core f => Sys2Proof.Machine.execVld core f s
  | .vst core f => Sys2Proof.Machine.execVst core f s
  | .vldb core f => Sys2Proof.Machine.execVldb core f s
  | .vlut core f => Sys2Proof.Machine.execVlut core f s
  | .vadd core f => Sys2Proof.Machine.execVadd core f s
  | .vsub core f => Sys2Proof.Machine.execVsub core f s
  | .vmul core f => Sys2Proof.Machine.execVmul core f s
  | .vmac core f => Sys2Proof.Machine.execVmac core f s
  | .vmin core f => Sys2Proof.Machine.execVmin core f s
  | .vmax core f => Sys2Proof.Machine.execVmax core f s
  | .vabs core f => Sys2Proof.Machine.execVabs core f s
  | .vneg core f => Sys2Proof.Machine.execVneg core f s
  | .vdot core f => Sys2Proof.Machine.execVdot core f s
  | .vdiv core f => Sys2Proof.Machine.execVdiv core f s
  | .vand core f => Sys2Proof.Machine.execVand core f s
  | .vor core f => Sys2Proof.Machine.execVor core f s
  | .vxor core f => Sys2Proof.Machine.execVxor core f s
  | .vshl core f => Sys2Proof.Machine.execVshl core f s
  | .vshra core f => Sys2Proof.Machine.execVshra core f s
  | .vshrr core f => Sys2Proof.Machine.execVshrr core f s
  | .vcmp core f => Sys2Proof.Machine.execVcmp core f s
  | .vsel core f => Sys2Proof.Machine.execVsel core f s
  | .vexp core f => Sys2Proof.Machine.execVexp core f s
  | .vlog core f => Sys2Proof.Machine.execVlog core f s
  | .vrcp core f => Sys2Proof.Machine.execVrcp core f s
  | .vrsqrt core f => Sys2Proof.Machine.execVrsqrt core f s
  | .vtanh core f => Sys2Proof.Machine.execVtanh core f s
  | .verf core f => Sys2Proof.Machine.execVerf core f s
  | .vsqrt core f => Sys2Proof.Machine.execVsqrt core f s
  | .vrsum core f => Sys2Proof.Machine.execVrsum core f s
  | .vrmax core f => Sys2Proof.Machine.execVrmax core f s
  | .vramax core f => Sys2Proof.Machine.execVramax core f s
  | .vslide core f => Sys2Proof.Machine.execVslide core f s
  | .vbcast core f => Sys2Proof.Machine.execVbcast core f s
  | .vcvt core f => Sys2Proof.Machine.execVcvt core f s
  | .vqnt core f => Sys2Proof.Machine.execVqnt core f s
  | .vqend core f => Sys2Proof.Machine.execVqend core f s
  | .vqscale core f => Sys2Proof.Machine.execVqscale core f s
  | .smov core f => Sys2Proof.Machine.execSmov core f s
  | .sadd core f => Sys2Proof.Machine.execSadd core f s
  | .vloop core f => Sys2Proof.Machine.execVloop core f s
  | .vend core f => Sys2Proof.Machine.execVend core f s
  | .housekeepingRound die temp vcoreMv varrMv biasOk => Sys2Proof.Machine.execHousekeepingRound die temp vcoreMv varrMv biasOk s
  | .pavilionTempRead temp => Sys2Proof.Machine.execPavilionTempRead temp s
  | .calCoefSave die => Sys2Proof.Machine.execCalCoefSave die s
  | .governorTick die => Sys2Proof.Machine.execGovernorTick die s
  | .sweepInterval die => Sys2Proof.Machine.execSweepInterval die s
  | .sweepRead eng refErrs errs => Sys2Proof.Machine.execSweepRead eng refErrs errs s
  | .plateProgramBegin eng => Sys2Proof.Machine.execPlateProgramBegin eng s
  | .eraseSegment eng codes => Sys2Proof.Machine.execEraseSegment eng codes s
  | .pulseVerifyPair eng codes => Sys2Proof.Machine.execPulseVerifyPair eng codes s
  | .touchUp eng before after => Sys2Proof.Machine.execTouchUp eng before after s
  | .flitCrcError link replayed => Sys2Proof.Machine.execFlitCrcError link replayed s
  | .linkRetrain link ok => Sys2Proof.Machine.execLinkRetrain link ok s
  | .transferAck xfer dest => Sys2Proof.Machine.execTransferAck xfer dest s
  | .memEccError addr corrected req => Sys2Proof.Machine.execMemEccError addr corrected req s
  | .patrolScrub found => Sys2Proof.Machine.execPatrolScrub found s
  | .slowTierBlock run => Sys2Proof.Machine.execSlowTierBlock run s
  | .sillageJobStart unit => Sys2Proof.Machine.execSillageJobStart unit s
  | .sillageJobEnd unit readError => Sys2Proof.Machine.execSillageJobEnd unit readError s
  | .strobeEnd out => Sys2Proof.Machine.execStrobeEnd out s
  | .widthClip out => Sys2Proof.Machine.execWidthClip out s
  | .dutyEnd out => Sys2Proof.Machine.execDutyEnd out s
  | .conversionStart conv => Sys2Proof.Machine.execConversionStart conv s
  | .conversionDone conv meas => Sys2Proof.Machine.execConversionDone conv meas s
  | .dacRampEnd out => Sys2Proof.Machine.execDacRampEnd out s
  | .dacSc out live => Sys2Proof.Machine.execDacSc out live s
  | .dacOpen out live => Sys2Proof.Machine.execDacOpen out live s
  | .supplyWarning mon => Sys2Proof.Machine.execSupplyWarning mon s
  | .supplyWarningClear mon => Sys2Proof.Machine.execSupplyWarningClear mon s
  | .supplyReset mon => Sys2Proof.Machine.execSupplyReset mon s
  | .dieRejoin die => Sys2Proof.Machine.execDieRejoin die s
  | .pstateEntry => Sys2Proof.Machine.execPstateEntry s
  | .pstateExit trigger => Sys2Proof.Machine.execPstateExit trigger s
  | .pstateExitDone => Sys2Proof.Machine.execPstateExitDone s
  | .sysclkLoss => Sys2Proof.Machine.execSysclkLoss s
  | .sysclkReturn => Sys2Proof.Machine.execSysclkReturn s
  | .powerOnReset => Sys2Proof.Machine.execPowerOnReset s
  | .sysRst => Sys2Proof.Machine.execSysRst s
  | .perstAssert => Sys2Proof.Machine.execPerstAssert s
  | .perstDeassert => Sys2Proof.Machine.execPerstDeassert s
  | .hotReset => Sys2Proof.Machine.execHotReset s
  | .flr => Sys2Proof.Machine.execFlr s
  | .bootStepEnd res => Sys2Proof.Machine.execBootStepEnd res s
  | .bootWatchdog => Sys2Proof.Machine.execBootWatchdog s
  | .tapReset => Sys2Proof.Machine.execTapReset s
  | .tapExtest => Sys2Proof.Machine.execTapExtest s
  | .tapSamplePreload => Sys2Proof.Machine.execTapSamplePreload s
  | .tapIdcode => Sys2Proof.Machine.execTapIdcode s
  | .tapClamp => Sys2Proof.Machine.execTapClamp s
  | .tapHighz => Sys2Proof.Machine.execTapHighz s
  | .tapDbg => Sys2Proof.Machine.execTapDbg s
  | .tapBypass => Sys2Proof.Machine.execTapBypass s
  | .supHoldEnd die => Sys2Proof.Machine.execSupHoldEnd die s
  | .dataLanesLeaveLp11 port => Sys2Proof.Machine.execDataLanesLeaveLp11 port s
  | .flrComplete => Sys2Proof.Machine.execFlrComplete s

end Sys2Proof.Machine
end

