-- ==== Sys2Proof/Machine/Step.lean ====
section
/-! DEFINITION. One step of the module: the command at the front of the queue, or, with no command waiting, one
nanosecond of the clock. -/

namespace Sys2Proof.Machine

open Sys2Proof

/-- The state with another queue of waiting commands. -/
def State.withPending (s : State) (l : List Instr) : State := { s with pending := l }

/-- The command that the table's bits spell is put at the front of the queue; where they spell none, nothing changes. -/
def State.withFetchWord (s : State) (nbits w : Nat) : State :=
  match decodeTableWord nbits w with
  | none => s
  | some i => s.withPending (i :: s.pending)

/-- One step: the command at the front is taken and run with the rest of the queue waiting; an empty queue lets one
nanosecond pass, unless the module is held in reset (log 4, R433). -/
def step (s : State) : Host.Outcome State Fault Refusal :=
  match s.pending with
  | [] => .next (if s.pwr.held then s else landArrivals (fabricCycle (chargeCals (tick s))))
  | i :: l => exec i (s.withPending l)

end Sys2Proof.Machine
end

