-- ==== Sys2Proof/Safety.lean ====
section
/-! DEFINITION. What the statements about the module speak of: when the module is settled between commands, when a page answers
the host, the memories' canonical form, the order of the fuses, and what a command leaves alone. -/

namespace Sys2Proof

open Sys2Proof.Machine

/-- No sticky event is left to be taken: the state between two commands. -/
abbrev Settled (s : State) : Prop := s.evq = []

/-- The form of the five byte stores: addresses strictly rising, and no entry that an unlisted byte reads as (logs 7, 8). -/
def Memory.wf (s : State) : Bool :=
  tabOk (fun _ => 0) s.hostMem && tabOk (fun _ => 0) s.pkgMem && tabOk (fun _ => 0) s.coreMem &&
  tabOk (fun _ => 0) s.weights && tabOk (fun _ => 0) s.ingest

/-- The invariant that every step keeps. -/
def Invariant (s : State) : Prop := Settled s ∧ Memory.wf s = true

/-- Whether a register access of the host to a page takes effect there at once: the link is open (R411), the page answers (R21,
R22), and it does not wait for an exit from SLEEP (R370). -/
def answers (s : State) (p : Nat) : Bool :=
  linkOpen s && decide (p < 4096) && decide (pageReach s p = .ok) &&
  (decide (s.pwr.st ≠ .sleep) || p == pgSys || p == pgPwr)

/-- Whether a page is not locked, not armed and not held under a commit group (R29, R46, R234). -/
def unlocked (s : State) (p : Nat) : Bool := !bit (rget s p 0x0C) 0 && !bit (commitWord s p) 31 && !pageHeld s p

/-- A whole-word write of the host. -/
def whole (w : W32) : Dw := ⟨w, 0xF⟩

/-- The state after an event of a page that answers has been taken into its header (R31, R32). -/
def noted (s : State) (p b code : Nat) : State := settlePage s p [⟨p, b, code⟩]

/-- Key slot states only advance: EMPTY to ACTIVE, ACTIVE to REVOKED (R388). -/
def slotAdvance (a b : BitVec 2) : Bool := a == b || (a == 0 && b == 1) || (a == 1 && b == 3)

/-- The key slots as production leaves them and every step keeps them: none holds the unused state 2, and an Odfen slot is never EMPTY
(R387, R388). -/
def FuseForm (a : Otp) : Prop :=
  (∀ k, (tget KeySlot.zero a.keys k).st ≠ 2) ∧
  ∀ k, k < 2 → (tget KeySlot.zero a.keys k).st = 1 ∨ (tget KeySlot.zero a.keys k).st = 3

/-- The fuses of `b` are those of `a` or later: no key slot went back, and no security version number fell (R387, R388). -/
def otpAdvance (a b : Otp) : Prop :=
  (∀ k, slotAdvance (tget KeySlot.zero a.keys k).st (tget KeySlot.zero b.keys k).st = true) ∧
  a.fw ≤ b.fw ∧ a.ucode ≤ b.ucode ∧ a.flacon ≤ b.flacon

end Sys2Proof
end

