-- ==== Sys2Proof/Certificates/Slice0/Obligations.lean ====
section
/-! DEFINITION. What is stated of the module, for the provers: each statement says what a command does and leaves alone. -/

open Sys2Proof Sys2Proof.Machine

/-- For every command c and every state s whose queue is c followed by l, a step is exec of c on s with the queue l. The queue is
the model's own (the row's cut), not the spec's. -/
def Obligations.StepRunsFront : Prop :=
  ∀ (s : State) (c : Instr) (l : List Instr), s.pending = c :: l → step s = exec c { s with pending := l }

/-- With an empty queue and the module not held in reset, a step adds to TB the whole nanoseconds of 1 plus the disciplining rate
(in parts per 10^9) plus the carried fraction, keeps the rest of the fraction, and ends the BUSY of a command of SEC1. With no
engine calibrating, no packet on the links of Trellis and nothing that they bring still to land, it changes nothing else.
Otherwise it also counts the calibration reads that begin, moves the packets on their links, and lets land what has arrived,
in this order, and changes nothing else. Held in reset, a step changes nothing. That an empty queue lets one nanosecond pass
is the model's choice (log 4), and so is the end of BUSY with it (log 20). -/
def Obligations.StepIdleTicks : Prop :=
  ∀ s : State, s.pending = [] →
    (s.pwr.held = true → step s = .next s) ∧
    (s.pwr.held = false →
      let ticked : State := { s with belv := { s.belv with
        tb := s.belv.tb + ((s.belv.frac + 1000000000 + s.belv.rate) / 1000000000).toNat
        frac := (s.belv.frac + 1000000000 + s.belv.rate) % 1000000000 }, sec := { s.sec with busy := false } }
      ((∀ e ∈ s.engines, e.2.calEnd = none) → s.flows = [] → s.landing = [] → step s = .next ticked) ∧
      ∃ t, step s = .next (landArrivals t) ∧
        { t with flows := s.flows, flitAt := s.flitAt, links := s.links } = chargeCals ticked)

/-- In the reset state every register word of every page holds its reset value, TB is 0, LT_EN is 0, every launch entry is 0, the
debug level is 0, no ring is enabled, no page holds a sticky event, the profile selected is that of the NV record, step 0x01
of the start-up has begun, and PERST# is asserted with the link down. That PERST# is asserted and the link down is the model's
choice (log 13). -/
def Obligations.ResetValues : Prop :=
  (∀ p off, rget State.reset p off = regDef (dwAddr p off)) ∧
  State.reset.belv.tb = 0 ∧ ltEn State.reset = false ∧ (∀ n, entryAt State.reset n = Entry.zero) ∧
  State.reset.sec.level = 0 ∧ (∀ n, (ringAt State.reset n).st = .disabled) ∧ State.reset.evq = [] ∧
  (∀ p, p < 4096 → rget State.reset p 0x18 = 0 ∧ rget State.reset p 0x1C = 0 ∧ rget State.reset p 0x24 = 0) ∧
  State.reset.boot.begun = 1 ∧ State.reset.boot.ended = 0 ∧ State.reset.boot.active = true ∧
  State.reset.bus.perst = true ∧ State.reset.bus.linkUp = false ∧
  rfld State.reset 0x40 0x44 1 0 = State.reset.nv.profile.toNat

/-- In the reset state no sticky event is left to be taken, the five byte stores are in their canonical form, no fuse key slot
reads the unused state 2, and the two Odfen slots are each ACTIVE or REVOKED. The canonical form is the model's own (logs 7
and 8). -/
def Obligations.ResetInvariant : Prop := Invariant State.reset ∧ FuseForm State.reset.otp

/-- From every state in which no sticky event is left to be taken and the five byte stores (host memory, package memory, the
cores' memories, the plates' cells, ingest SRAM) are in canonical form, every step that answers a next state answers one of
the same kind. Reachable or not, no state of that kind is left. The canonical form is the model's own way to hold bytes (logs
7 and 8), and that the events of a command's cycle are taken within its step is the model's reading of R31. -/
def Obligations.StepKeepsInvariant : Prop := ∀ s t : State, Invariant s → step s = .next t → Invariant t

/-- Every command on every state answers a next state: no access, message or event stops the module. What production fixed in the
part (R48: the fixed fields never change) and the queue of waiting commands are unchanged, and no sticky event is left to be
taken. -/
def Obligations.EveryCommandCompletes : Prop :=
  ∀ (i : Instr) (s : State), ∃ t, exec i s = .next t ∧ t.part = s.part ∧ t.pending = s.pending ∧ t.evq = []

/-- From every state in which no key slot reads the unused state 2 and each of the two Odfen slots is ACTIVE or REVOKED, every
step that answers a next state keeps this form; each key slot keeps its state or advances (EMPTY to ACTIVE, ACTIVE to
REVOKED), and no security version number of the fuses falls. That the reset state has the form is stated with the reset's
invariants. -/
def Obligations.FusesOnlyAdvance : Prop :=
  ∀ s t : State, FuseForm s.otp → step s = .next t → otpAdvance s.otp t.otp ∧ FuseForm t.otp

/-- Setting one register word makes it read as the value set, and every other register of every page reads as before; setting a LO
and HI pair makes the pair read as the number set modulo 2^64, and every other register reads as before. -/
def Obligations.RegisterWriteFrame : Prop :=
  ∀ (s : State) (p q off o : Nat), off < 4088 → o < 4096 → off % 4 = 0 → o % 4 = 0 →
    (∀ v : W32, rget (rset s p off v) p off = v ∧ ((p ≠ q ∨ off ≠ o) → rget (rset s p off v) q o = rget s q o)) ∧
    (∀ v : Nat, rget64 (rset64 s p off v) p off = v % 2 ^ 64 ∧
      ((p ≠ q ∨ (off ≠ o ∧ off + 4 ≠ o)) → rget (rset64 s p off v) q o = rget s q o))

/-- An event counter that counts n events holds the lesser of its old value plus n and 0xFFFFFFFF, and every other register reads
as before; PAGE_SEQ of a page that takes an event wraps modulo 2^32. -/
def Obligations.CountersStop : Prop :=
  (∀ (s : State) (p off n q o : Nat), off < 4096 → o < 4096 → off % 4 = 0 → o % 4 = 0 →
    (rget (count s p off n) p off).toNat = min ((rget s p off).toNat + n) 0xFFFFFFFF ∧
    ((p ≠ q ∨ off ≠ o) → rget (count s p off n) q o = rget s q o)) ∧
  (∀ (s : State) (p : Nat) (e : Ev) (es : List Ev),
    (rget (settlePage s p (e :: es)) p 0x1C).toNat = ((rget s p 0x1C).toNat + 1) % 2 ^ 32)

/-- When the events of a command's cycle are taken into the pages, PAGE_SEQ of every page that answers and has at least one event
among them advances by 1 modulo 2^32, however many there are and whether or not the bits were already set, in pages of both
clear modes; PAGE_SEQ of every other page is unchanged. -/
def Obligations.PageSeqAdvancesOncePerCycle : Prop :=
  ∀ (s : State) (p : Nat),
    rget (settle s) p 0x1C =
      if (∃ e ∈ s.evq, e.page = p) ∧ pageReach s p = .ok then rget s p 0x1C + 1 else rget s p 0x1C

/-- When the events of a page's cycle are taken, every bit named by an event is set in PAGE_STICKY and every bit already set
stays; while PAGE_FIRST.VALID is 1, PAGE_FIRST and PAGE_TS do not change; while it is 0, VALID is set, BIT holds the highest
bit index among the events, CODE that of an event with this bit, and PAGE_TS the present TB modulo 2^64. Bit indices lie below
32 and codes below 2^16. -/
def Obligations.FirstErrorCapture : Prop :=
  ∀ (s : State) (p : Nat) (e0 : Ev) (es : List Ev), (∀ e ∈ e0 :: es, e.bit < 32 ∧ e.code < 65536) →
    let t := settlePage s p (e0 :: es)
    (∀ b, b < 32 → bit (rget t p 0x18) b = (bit (rget s p 0x18) b || (e0 :: es).any fun e => e.bit == b)) ∧
    (bit (rget s p 0x24) 31 = true → rget t p 0x24 = rget s p 0x24 ∧ rget64 t p 0x28 = rget64 s p 0x28) ∧
    (bit (rget s p 0x24) 31 = false → bit (rget t p 0x24) 31 = true ∧ rget64 t p 0x28 = s.belv.tb % 2 ^ 64 ∧
      (∀ e ∈ e0 :: es, e.bit ≤ fld (rget t p 0x24) 23 16) ∧
      (∃ e ∈ e0 :: es, e.bit = fld (rget t p 0x24) 23 16 ∧ e.code = fld (rget t p 0x24) 15 0))

/-- In a page with a header that answers, a whole-word write of PAGE_LOCK sets LOCK where bit 0 is written 1, keeps it where it is
written 0, and changes no other state; a write that enables fewer bytes changes nothing but ACCESS, with code 0x100C, in the
page. In a page that clears by sequence, a whole-word write of PAGE_CLR equal to PAGE_SEQ clears PAGE_STICKY and
PAGE_FIRST.VALID and changes no other state; any other value changes nothing. In a page that clears on read, the write sets
ACCESS with code 0x9020 alone; a partial write sets ACCESS with code 0x1020 alone. In a page with a header that answers and
whose group is not held between J and its outcome: a whole-word write with ARM = 0 disarms the page, stores GROUP and keeps
REFUSED, and changes nothing else; with ARM = 1 while the page is not armed, it stores ARM and GROUP, and the page is a member
of that group; with ARM = 1 while armed, it only sets ACCESS with code 0x8030. A partial write only sets ACCESS with code
0x1030. -/
def Obligations.HeaderWrites : Prop :=
  (∀ (s : State) (p : Nat) (k : Kind) (i : Nat), Settled s → answers s p = true → kindOf p = some (k, i) → k ≠ .rng →
     (∀ w : W32, exec (.pageLockWrite p (whole w)) s =
       .next (answer (rset s p 0x0C (rget s p 0x0C ||| (w &&& 1))) .posted [])) ∧
     (∀ dw : Dw, dw.be ≠ 0xF → exec (.pageLockWrite p dw) s = .next (answer (noted s p 31 0x100C) .posted []))) ∧
  (∀ (s : State) (p : Nat) (k : Kind) (i : Nat), Settled s → answers s p = true → kindOf p = some (k, i) → k ≠ .rng →
     (clrOnRead k = false → ∀ w : W32, exec (.pageClrWrite p (whole w)) s =
       .next (answer (if w = rget s p 0x1C
         then rset (rset s p 0x18 0) p 0x24 (rget s p 0x24 &&& 0x7FFFFFFF) else s) .posted [])) ∧
     (clrOnRead k = true → ∀ w : W32, exec (.pageClrWrite p (whole w)) s =
       .next (answer (noted s p 31 0x9020) .posted [])) ∧
     (∀ dw : Dw, dw.be ≠ 0xF → exec (.pageClrWrite p dw) s = .next (answer (noted s p 31 0x1020) .posted []))) ∧
  (∀ (s : State) (p : Nat) (k : Kind) (i : Nat), Settled s → answers s p = true → kindOf p = some (k, i) → k ≠ .rng →
     pageHeld s p = false →
     (∀ w : W32, bit w 31 = false → exec (.pageCommitWrite p (whole w)) s =
       .next (answer (rset s p 0x30 ((rget s p 0x30 &&& 0x00010000) ||| (w &&& 0x8000000F))) .posted [])) ∧
     (∀ w : W32, bit w 31 = true → bit (rget s p 0x30) 31 = false → (groupAt s (fld w 3 0)).held = none →
       ∃ t, exec (.pageCommitWrite p (whole w)) s = .next t ∧
         rget t p 0x30 = (rget s p 0x30 &&& 0x00010000) ||| (w &&& 0x8000000F) ∧
         p ∈ (groupAt t (fld w 3 0)).members ∧
         (∀ g, g ≠ fld w 3 0 → groupAt t g = groupAt s g) ∧
         (∀ q o, dwAddr q o ≠ dwAddr p 0x30 → rget t q o = rget s q o)) ∧
     (∀ w : W32, bit w 31 = true → bit (rget s p 0x30) 31 = true → exec (.pageCommitWrite p (whole w)) s =
       .next (answer (noted s p 31 0x8030) .posted [])) ∧
     (∀ dw : Dw, dw.be ≠ 0xF → exec (.pageCommitWrite p dw) s = .next (answer (noted s p 31 0x1030) .posted [])))

/-- In a page with a header that answers, a read of PAGE_STICKY returns it; in a page that clears on read it also clears exactly
the bits of the enabled bytes, and a read of PAGE_FIRST clears VALID exactly if byte 3 is enabled. In a page that clears by
sequence, and with no byte enabled, the read changes nothing but the answer. -/
def Obligations.StickyReadClears : Prop :=
  ∀ (s : State) (p : Nat) (k : Kind) (i : Nat) (be : BitVec 4), Settled s → answers s p = true → kindOf p = some (k, i) →
    k ≠ .rng →
    exec (.pageStickyRead p be) s = .next (answer
      (if clrOnRead k = true ∧ be ≠ 0 then rset s p 0x18 (rget s p 0x18 &&& ~~~beMask be) else s) .ok [rget s p 0x18]) ∧
    exec (.pageFirstRead p be) s = .next (answer
      (if clrOnRead k = true ∧ be.getLsbD 3 = true then rset s p 0x24 (rget s p 0x24 &&& 0x7FFFFFFF) else s) .ok
      [rget s p 0x24])

/-- For HSK_FEAT_OFFER, a read of LO with a byte enabled returns LO and latches HI, which the read of HI returns, and a read with
no byte enabled returns LO and changes nothing but the answer. For the three address registers of a DISABLED ring (0x08, 0x10
and 0x18 of its slot), a whole-word write of LO only stages its value in the field's bits, and a whole-word write of HI
commits the staged LO and HI in one cycle and leaves nothing staged. -/
def Obligations.LoHiPairs : Prop :=
  (∀ (s : State) (be : BitVec 4), Settled s → answers s 1 = true →
    (be ≠ 0 → exec (.loReadLatch 0 0x1048 [be]) s = .next (answer
      { s with hiShadow := tset 0 s.hiShadow (dwAddr 1 0x48) (peek s .hsk 0 1 0x4C) } .ok [peek s .hsk 0 1 0x48])) ∧
    exec (.loReadLatch 0 0x1048 [0]) s = .next (answer s .ok [peek s .hsk 0 1 0x48]) ∧
    (∀ be' : BitVec 4, exec (.loReadLatch 0 0x104C [be']) s = .next (answer s .ok [tget 0 s.hiShadow (dwAddr 1 0x48)]))) ∧
  (∀ (s : State) (n o : Nat) (w : W32), Settled s → n < 8192 → answers s (0x100 + n / 64) = true →
    (ringAt s n).st = .disabled → o = 0x08 ∨ o = 0x10 ∨ o = 0x18 →
    let p := 0x100 + n / 64
    let at_ := n % 64 * 64 + o
    let m : W32 := if o = 0x18 then 0xFFFFFFF8 else 0xFFFFFFC0
    exec (.registerWrite (p * 4096 + at_) [whole w]) s = .next (answer { s with
      loStage := tset none s.loStage (dwAddr p at_) (some ((stagedLo s .rng p at_ &&& ~~~m) ||| (w &&& m))) } .posted []) ∧
    ∀ lo : W32, tget none s.loStage (dwAddr p at_) = some lo →
      ∃ t, exec (.hiWriteCommit (p * 4096 + (at_ + 4)) (whole w)) s = .next t ∧
        rget64 t p at_ = lo.toNat + w.toNat * 2 ^ 32 ∧ tget none t.loStage (dwAddr p at_) = none ∧ t.rings = s.rings)

/-- A one-DW write of SYS_SCRATCH0 or SYS_SCRATCH1 replaces exactly the bytes enabled and changes no other state but the answer. -/
def Obligations.ScratchWrite : Prop :=
  ∀ (s : State) (n : Nat) (dw : Dw), Settled s → answers s 0 = true → n < 2 →
    exec (.registerWrite (0x58 + 4 * n) [dw]) s = .next (answer
      (if dw.be = 0 then s else
        rset s 0 (0x58 + 4 * n) ((rget s 0 (0x58 + 4 * n) &&& ~~~beMask dw.be) ||| (dw.data &&& beMask dw.be))) .posted [])

/-- For a 2-DW write within one page that answers, whose first half leaves the page answering, the outcome is that of writing the
first DW and then the second, each in a cycle of its own (the model's reading, log 3); a write longer than 2 DW is dropped
whole with ACCESS kind 2, and one that leaves the page with kind 4, in the page of its first DW (HDMA for a ring page). -/
def Obligations.TwoDwWriteIsTwoAccesses : Prop :=
  ∀ (s : State) (p off : Nat), Settled s → answers s p = true → off < 4096 → off % 4 = 0 →
    (∀ (a b : Dw) (t : State), off + 8 ≤ 4096 → exec (.registerWrite (p * 4096 + off) [a]) s = .next t → answers t p = true →
      ∃ u, exec (.registerWrite (p * 4096 + (off + 4)) [b]) t = .next u ∧
        exec (.registerWrite (p * 4096 + off) [a, b]) s = .next u) ∧
    (∀ (a b : Dw), off + 8 > 4096 → (kindOf p).isSome → exec (.registerWrite (p * 4096 + off) [a, b]) s =
      .next (answer (noted s (if 0x100 ≤ p ∧ p < 0x180 then 0x90 else p) 31 (0x4000 + off)) .posted [])) ∧
    (∀ l : List Dw, 2 < l.length → (kindOf p).isSome → exec (.registerWrite (p * 4096 + off) l) s =
      .next (answer (noted s (if 0x100 ≤ p ∧ p < 0x180 then 0x90 else p) 31 (0x2000 + off)) .posted []))

/-- With the link open and the module not in SLEEP, a write of any form to a reserved page, or to a page of a die that is absent
or left out, changes nothing but UNMAPPED_WR (bit 1) of SYS with the page as its code; to a page of a die that is off or in a
per-die reset, DIE_OFF_ACCESS (bit 0) of SYS with the page. A one-DW read of either returns 0, and of the second kind sets
DIE_OFF_ACCESS in the same way. That a write of any length is one event, and that a read with no byte enabled sets the bit,
are the model's choices (log 44). -/
def Obligations.UnreachablePages : Prop :=
  ∀ (s : State) (p off : Nat), Settled s → linkOpen s = true → s.pwr.st ≠ .sleep → p < 4096 → off < 4096 →
    (∀ l : List Dw, pageReach s p = .unmapped → exec (.registerWrite (p * 4096 + off) l) s =
      .next (answer (noted s 0 1 p) .posted [])) ∧
    (∀ l : List Dw, pageReach s p = .off → exec (.registerWrite (p * 4096 + off) l) s =
      .next (answer (noted s 0 0 p) .posted [])) ∧
    (∀ be : BitVec 4, pageReach s p = .unmapped → exec (.loReadLatch 0 (p * 4096 + off) [be]) s = .next (answer s .ok [0])) ∧
    (∀ be : BitVec 4, pageReach s p = .off → exec (.loReadLatch 0 (p * 4096 + off) [be]) s =
      .next (answer (noted s 0 0 p) .ok [0]))

/-- For PRG_WEAR_WARN of any die that answers, whose one field is RWL: while the page's LOCK is 1, a whole-word write leaves every
register as it was but for LOCKED_WR (bit 30) with code 0x504C; while LOCK is 0, it stores the field's 16 bits, keeps the
reserved ones and changes no other register. Nothing but the registers and the answer changes in either case. -/
def Obligations.LockedWriteRefused : Prop :=
  ∀ (s : State) (d : Nat) (w : W32), d < 16 → Settled s → answers s (pgPrg0 d) = true →
    ∃ t, exec (.registerWrite (pgPrg0 d * 4096 + 0x4C) [whole w]) s = .next t ∧
      { t with regs := s.regs } = answer s .posted [] ∧
      (bit (rget s (pgPrg0 d) 0x0C) 0 = true → ∀ q o, rget t q o = rget (noted s (pgPrg0 d) 30 0x504C) q o) ∧
      (bit (rget s (pgPrg0 d) 0x0C) 0 = false → ∀ q o, rget t q o =
        rget (rset s (pgPrg0 d) 0x4C ((rget s (pgPrg0 d) 0x4C &&& 0xFFFF0000) ||| (w &&& 0xFFFF))) q o)

/-- With the link open and the module not in SLEEP, a write to BAR2 that is not one aligned 2-DW write with every byte enabled
changes nothing but HDMA ACCESS (bit 31), with code 0xA000 + n for the doorbell n of its first byte below 4,096, and 0xB000 +
n - 4,096 above. A well-formed doorbell write passes exactly if its key, ring and reserved bits are right, the ring is enabled
and not draining and a version is selected, both slots lie in their rings, and neither ring of slots is overrun. The kind of a
refused one is that of the first failing check: 1 for key, ring or reserved bits; 2 for a ring that is disabled or draining,
or no version; 3 for a slot out of range; 4 for a submission ring overrun; 5 for a completion ring overrun. A refused doorbell
counts in HDMA_DB_BAD_CNT (0x60), keeps the kind in RING_ERR, sets DOORBELL (bit 0) of HDMA with kind and ring, and changes
nothing else. -/
def Obligations.DoorbellChecks : Prop :=
  (∀ (s : State) (addr : Nat) (l : List Dw), Settled s → linkOpen s = true → s.pwr.st ≠ .sleep → addr < 0x10000 →
     (∀ a b : Dw, l = [a, b] → a.be = 0xF → b.be = 0xF → addr % 8 ≠ 0) →
     exec (.doorbellWrite addr l) s = .next (answer (noted s 0x90 31
       (if addr / 8 < 4096 then 0xA000 + addr / 8 else 0xB000 + (addr / 8 - 4096))) .posted [])) ∧
  (∀ (s : State) (n : Nat) (a b : Dw), Settled s → linkOpen s = true → s.pwr.st ≠ .sleep → n < 8192 → a.be = 0xF → b.be = 0xF →
     let r := ringAt s n
     let m := sqSize s n
     let c := cqSize s n
     let key := b.data.toNat / 65536
     let head := b.data.toNat % 65536
     let tail := a.data.toNat % 65536
     let ring := a.data.toNat / 65536
     let k := doorbellKind s n (b.data ++ a.data)
     (k = 0 ↔ key = fld (rgGet s n 4) 15 0 ∧ ring = n ∧ r.st ≠ .disabled ∧ r.st ≠ .draining ∧ version s ≠ 0 ∧
       tail < m ∧ head < c ∧ (tail + m - r.tail) % m + (r.tail + m - r.sqHead) % m ≤ m - 1 ∧
       (head + c - r.cqHead) % c ≤ (r.cqTail + c - r.cqHead) % c) ∧
     (key ≠ fld (rgGet s n 4) 15 0 ∨ ring ≠ n → k = 1) ∧
     (key = fld (rgGet s n 4) 15 0 → ring = n → r.st = .disabled ∨ r.st = .draining ∨ version s = 0 → k = 2) ∧
     (key = fld (rgGet s n 4) 15 0 → ring = n → r.st ≠ .disabled → r.st ≠ .draining → version s ≠ 0 → m ≤ tail ∨ c ≤ head →
       k = 3) ∧
     (key = fld (rgGet s n 4) 15 0 → ring = n → r.st ≠ .disabled → r.st ≠ .draining → version s ≠ 0 → tail < m → head < c →
       (m - 1 < (tail + m - r.tail) % m + (r.tail + m - r.sqHead) % m → k = 4) ∧
       ((tail + m - r.tail) % m + (r.tail + m - r.sqHead) % m ≤ m - 1 →
         (r.cqTail + c - r.cqHead) % c < (head + c - r.cqHead) % c → k = 5)) ∧
     (k ≠ 0 → exec (.doorbellWrite (8 * n) [a, b]) s = .next (answer
       (noted (count (putRing s n { r with dbErr := k }) 0x90 0x60 1) 0x90 0 (k * 2 ^ 13 + n)) .posted [])))

/-- A doorbell that passes every check appends to the ring's posted descriptors one for each slot from the old TAIL up to the new
one, in order and not yet read, sets TAIL and CQ_HEAD, and lets a STALLED ring that gains room run again; the ring's other
indices, every other ring, all memory and all registers are unchanged. -/
def Obligations.DoorbellPosts : Prop :=
  ∀ (s : State) (n : Nat) (a b : Dw), Settled s → linkOpen s = true → s.pwr.st ≠ .sleep → n < 8192 → a.be = 0xF → b.be = 0xF →
    doorbellKind s n (b.data ++ a.data) = 0 →
    ∃ t, exec (.doorbellWrite (8 * n) [a, b]) s = .next t ∧
      (ringAt t n).tail = a.data.toNat % 65536 ∧ (ringAt t n).cqHead = b.data.toNat % 65536 ∧
      (ringAt t n).posted = (ringAt s n).posted ++
        (List.range ((a.data.toNat % 65536 + sqSize s n - (ringAt s n).tail) % sqSize s n)).map
          (fun i => Posted.new (((ringAt s n).tail + i) % sqSize s n)) ∧
      (ringAt t n).sqHead = (ringAt s n).sqHead ∧ (ringAt t n).cqTail = (ringAt s n).cqTail ∧
      (ringAt t n).inflight = (ringAt s n).inflight ∧ (ringAt t n).alive = (ringAt s n).alive ∧
      ((ringAt s n).st ≠ .stalled → (ringAt t n).st = (ringAt s n).st) ∧
      ((ringAt s n).st = .stalled → areaRoom t n = true → (ringAt t n).st = .running) ∧
      (∀ k, k ≠ n → ringAt t k = ringAt s k) ∧ t.hostMem = s.hostMem ∧ t.pkgMem = s.pkgMem ∧ t.coreMem = s.coreMem ∧
      t.weights = s.weights ∧ t.ingest = s.ingest ∧ t.regs = s.regs ∧ t.reqs = s.reqs

/-- With no ring enabled, a whole-word write of HSK_SELECT with an offered version or 0 puts the version in force and reduces the
features in force to those it permits, flagging BAD_FEATURE (bit 1) exactly if one is removed; a write of any other value, or
with a ring enabled, changes nothing but BAD_SELECT (bit 0). With no ring enabled, a whole-word write of HSK_FEAT_SELECT_HI
puts in force the bits of the staged LO that the version permits, and flags BAD_FEATURE exactly if a requested bit, of LO or
of HI, is dropped or a bit in force is removed; with a ring enabled it leaves the features and flags BAD_FEATURE. That
PAGE_FIRST takes code 0 with either bit is the model's choice (log 44). -/
def Obligations.HandshakeWrites : Prop :=
  ∀ (s : State) (w : W32), Settled s → answers s 1 = true →
    (ringsActive s = false → w.toNat % 16 ≤ 3 → ∃ t, exec (.hskSelectWrite (whole w)) s = .next t ∧
      version t = w.toNat % 16 ∧ rget t 1 0x50 = rget s 1 0x50 &&& permitted (w.toNat % 16) ∧
      (bit (rget t 1 0x18) 1 = (bit (rget s 1 0x18) 1 || decide (rget s 1 0x50 &&& permitted (w.toNat % 16) ≠ rget s 1 0x50))) ∧
      { t with regs := s.regs } = answer s .posted []) ∧
    (ringsActive s = true ∨ 3 < w.toNat % 16 → exec (.hskSelectWrite (whole w)) s =
      .next (answer (noted s 1 0 0) .posted [])) ∧
    (ringsActive s = false → ∃ t, exec (.hskFeatSelectWrite (whole w)) s = .next t ∧
      rget t 1 0x50 = stagedLo s .hsk 1 0x50 &&& permitted (version s) ∧ rget t 1 0x54 = 0 ∧
      (bit (rget t 1 0x18) 1 = (bit (rget s 1 0x18) 1 || decide (stagedLo s .hsk 1 0x50 &&& permitted (version s) ≠
        stagedLo s .hsk 1 0x50 ∨ w ≠ 0 ∨ rget s 1 0x50 &&& permitted (version s) &&& stagedLo s .hsk 1 0x50 ≠ rget s 1 0x50))) ∧
      tget none t.loStage (dwAddr 1 0x50) = none) ∧
    (ringsActive s = true → ∃ t, exec (.hskFeatSelectWrite (whole w)) s = .next t ∧ rget t 1 0x50 = rget s 1 0x50 ∧
      rget t 1 0x54 = rget s 1 0x54 ∧ bit (rget t 1 0x18) 1 = true)

/-- After READY: a whole-word write of RING_CTRL with EN = 1 to a DISABLED ring, with a version in force, both sizes in 6 to 16
and no address 0, stores the word's fields, sets the state RUNNING with every index, ALIVE and the record count 0 and nothing
posted, and writes the head word as 0; every other ring is unchanged, and so is every byte of host memory outside the head
word. If one of those conditions fails, or the ring is DRAINING, nothing changes but RING_CFG (bit 2) of HDMA with the ring as
its code. A whole-word write of RING_CTRL with EN = 0 to a ring that is RUNNING, STALLED or in FAULT makes it DRAINING and
abandons its posted descriptors; its indices, its requests in flight and every other ring are unchanged, and a PRIO carried in
the word is stored. When a DRAINING ring has nothing in flight, RING_DRAINED makes it DISABLED and changes nothing else;
otherwise it changes nothing. -/
def Obligations.RingEnableAndDrain : Prop :=
  (∀ (s : State) (n : Nat) (w : W32), Settled s → n < 8192 → answers s (0x100 + n / 64) = true → bit w 31 = true →
     s.boot.ready = true →
     let c := (rgGet s n 0 &&& ~~~0xC71F1F00) ||| (w &&& 0xC71F1F00)
     let ok := version s ≠ 0 ∧ 6 ≤ fld w 12 8 ∧ fld w 12 8 ≤ 16 ∧ 6 ≤ fld w 20 16 ∧ fld w 20 16 ≤ 16 ∧ rg64 s n 0x08 ≠ 0 ∧
       rg64 s n 0x10 ≠ 0 ∧ rg64 s n 0x18 ≠ 0
     ((ringAt s n).st = .disabled → ok → ∃ t, exec (.ringEnable n (whole w)) s = .next t ∧
       ringAt t n = { Ring.zero with st := .running } ∧ rgGet t n 0 = c ∧ (∀ k, k ≠ n → ringAt t k = ringAt s k) ∧
       (∀ a, rg64 s n 0x18 ≤ a → a < rg64 s n 0x18 + 8 → tget 0 t.hostMem a = 0) ∧
       (∀ a, a < rg64 s n 0x18 ∨ rg64 s n 0x18 + 8 ≤ a → tget 0 t.hostMem a = tget 0 s.hostMem a)) ∧
     ((ringAt s n).st = .draining ∨ (ringAt s n).st = .disabled ∧ ¬ ok → exec (.ringEnable n (whole w)) s =
       .next (answer (noted s 0x90 2 n) .posted []))) ∧
  (∀ (s : State) (n : Nat), Settled s → n < 8192 →
     (∀ w : W32, answers s (0x100 + n / 64) = true → bit w 31 = false →
       (ringAt s n).st = .running ∨ (ringAt s n).st = .stalled ∨ (ringAt s n).st = .fault →
       ∃ t, exec (.ringDisable n (whole w)) s = .next t ∧
         ringAt t n = { ringAt s n with st := .draining, posted := [] } ∧ (∀ k, k ≠ n → ringAt t k = ringAt s k) ∧
         t.reqs = s.reqs ∧ t.hostMem = s.hostMem ∧ prio t n = fld w 26 24 ∧ sqSize t n = sqSize s n ∧ cqSize t n = cqSize s n) ∧
     ((ringAt s n).st = .draining → (ringAt s n).inflight = 0 →
       exec (.ringDrained n) s = .next (putRing s n { ringAt s n with st := .disabled })) ∧
     ((ringAt s n).st ≠ .draining ∨ (ringAt s n).inflight ≠ 0 → exec (.ringDrained n) s = .next s))

/-- For a RUNNING ring: reading takes the oldest unread posted descriptor (fewer than 16 being read ahead) from the submission
ring in host memory into the posted list, advances SQ_HEAD past its slot and asks for a head word; the head descriptor of a
ring that is not time-bound, once read and not gated, with room in the completion area, becomes ready at the TB at which it
met its conditions. DISPATCH of a head descriptor that passed every check and whose opcode needs no die, in RUN or READY,
serves the ring that arbitration chose: its head descriptor leaves the posted list, INFLIGHT rises by one, and a new request
in flight holds the descriptor and its ready instant. -/
def Obligations.DescriptorReadReadyDispatch : Prop :=
  ∀ (s : State) (n : Nat), Settled s → (ringAt s n).st = .running →
    (∀ (l : List Posted) (q : Posted) (l' : List Posted), (ringAt s n).posted = l ++ q :: l' → (∀ p ∈ l, p.isRead = true) →
      q.isRead = false → l.length < 16 → (∀ p ∈ l', p.isRead = false) →
      ∃ t q', exec (.descriptorRead n) s = .next t ∧ (ringAt t n).posted = l ++ q' :: l' ∧ q'.isRead = true ∧ q'.slot = q.slot ∧
        q'.desc = Desc.ofBytes (bytesAt s.hostMem (rg64 s n 0x08 + 64 * q.slot) 64) ∧ q'.detail = descCheck s q'.desc ∧
        (ringAt t n).sqHead = (q.slot + 1) % sqSize s n ∧ (ringAt t n).headDue = true ∧
        (∀ k, k ≠ n → ringAt t k = ringAt s k) ∧ t.hostMem = s.hostMem ∧ t.reqs = s.reqs) ∧
    (∀ (p : Posted) (l : List Posted), (ringAt s n).posted = p :: l → p.ready = none → p.isRead = true →
      timebound s n = false → p.gated s = false → areaRoom s n = true →
      exec (.descriptorReady n) s =
        .next (putRing s n { ringAt s n with posted := { p with ready := some p.since } :: l })) ∧
    (∀ (p : Posted) (l : List Posted), arbitrate s = some n → (ringAt s n).posted = p :: l → p.detail = 0 →
      safeOpc p.desc.opc.toNat = true → s.pwr.st = .run ∨ s.pwr.st = .ready →
      ∃ t q, exec .dispatch s = .next t ∧ reqAt t s.nextReq = some q ∧ q.ring = n ∧ q.desc = p.desc ∧ q.phase = .dispatched ∧
        q.readyAt = p.ready.getD s.belv.tb ∧ (ringAt t n).posted = l ∧ (ringAt t n).inflight = (ringAt s n).inflight + 1 ∧
        t.nextReq = s.nextReq + 1 ∧ (∀ k, k ≠ n → ringAt t k = ringAt s k) ∧ t.hostMem = s.hostMem)

/-- A dispatched NOP finishes at once, with its completion at the present TB. A dispatched FENCE finishes exactly if no request of
its ring with an earlier number is in flight; otherwise nothing changes. Only the request's own entry changes. A dispatched
READ_TENSOR over package memory with no poisoned block writes the bytes of package memory at AUX_ADDR to host memory at
OUT_ADDR, leaves package memory and every other host byte unchanged, and finishes. A dispatched WRITE_TENSOR writes the bytes
of host memory at IN_ADDR to package memory at AUX_ADDR, leaves host memory and every other package byte unchanged, and
finishes. With no DDR in use (R415) both act on the window in the ingest SRAM in its place, and package memory is unchanged. -/
def Obligations.SimpleRequests : Prop :=
  (∀ (s : State) (id : Nat) (q : Req), Settled s → reqAt s id = some q → q.phase = .dispatched →
     (q.desc.opc = 0x3F → exec (.nopReq id) s = .next (putReq (putReq s id (some { q with ran := true })) id
       (some { q with ran := true, phase := .finished, fin := s.belv.tb, doneTb := some (q.doneTb.getD s.belv.tb) }))) ∧
     (q.desc.opc = 0x3E → (∀ e ∈ s.reqs, ∀ x, e.2 = some x → e.1 < id → x.ring ≠ q.ring) →
       ∃ t, exec (.fence id) s = .next t ∧ (∃ q', reqAt t id = some q' ∧ q'.phase = .finished ∧ q'.fin = s.belv.tb ∧
         q'.status = q.status ∧ q'.desc = q.desc) ∧ (∀ k, k ≠ id → reqAt t k = reqAt s k) ∧ t.rings = s.rings ∧
         t.hostMem = s.hostMem ∧ t.regs = s.regs) ∧
     (q.desc.opc = 0x3E → (∃ e ∈ s.reqs, ∃ x, e.2 = some x ∧ e.1 < id ∧ x.ring = q.ring) → exec (.fence id) s = .next s)) ∧
  (∀ (s : State) (id : Nat) (q : Req), Settled s → reqAt s id = some q → q.phase = .dispatched →
     (q.desc.opc = 2 → s.poison = [] → ∃ t, exec (.readTensor id) s = .next t ∧
       t.hostMem = putBytes s.hostMem q.desc.outAddr.toNat (devBytes s q.desc.auxAddr.toNat q.desc.param.toNat) ∧
       t.pkgMem = s.pkgMem ∧ t.regs = s.regs ∧ t.rings = s.rings ∧
       (∃ q', reqAt t id = some q' ∧ q'.phase = .finished ∧ q'.status = q.status) ∧
       (∀ a, a < q.desc.outAddr.toNat ∨ q.desc.outAddr.toNat + q.desc.param.toNat ≤ a →
         tget 0 t.hostMem a = tget 0 s.hostMem a)) ∧
     (q.desc.opc = 3 → ∃ t, exec (.writeTensor id) s = .next t ∧
       (s.boot.noDdr = false → t.ingest = s.ingest ∧
         t.pkgMem = putBytes s.pkgMem q.desc.auxAddr.toNat (bytesAt s.hostMem q.desc.inAddr.toNat q.desc.param.toNat)) ∧
       (s.boot.noDdr = true → t.pkgMem = s.pkgMem ∧
         t.ingest = putBytes s.ingest q.desc.auxAddr.toNat (bytesAt s.hostMem q.desc.inAddr.toNat q.desc.param.toNat)) ∧
       t.hostMem = s.hostMem ∧ t.regs = s.regs ∧ t.rings = s.rings ∧
       (∃ q', reqAt t id = some q' ∧ q'.phase = .finished ∧ q'.status = q.status) ∧
       (∀ a, a < q.desc.auxAddr.toNat ∨ q.desc.auxAddr.toNat + q.desc.param.toNat ≤ a →
         tget 0 t.pkgMem a = tget 0 s.pkgMem a ∧ tget 0 t.ingest a = tget 0 s.ingest a)))

/-- The COMPLETION_WRITE of the only request in flight, once finished, with no stream bound to a task and no flacon in a slot,
writes its 32-byte record in slot CQ_TAIL of the completion area and no other byte of host memory, advances CQ_TAIL modulo the
area's size, takes one from INFLIGHT, adds one to ALIVE modulo 256 under version 3 (before it ALIVE is 0), adds one to the
record count, and ends the request. The record's first bytes are SEQ, STATUS, and under version 3 the new ALIVE. A due head
word is written with SQ_HEAD, CQ_TAIL and the record count, and nothing else changes when SUMMARY is not selected; one that is
not due is not written. -/
def Obligations.RecordAndHeadWord : Prop :=
  (∀ (s : State) (id : Nat) (q : Req), Settled s → s.reqs = [(id, some q)] → q.phase = .finished → s.feeds = [] →
    s.slots = [] →
    ∃ t rec, exec (.completionWrite id) s = .next t ∧ rec.length = 32 ∧
      t.hostMem = putBytes s.hostMem (rg64 s q.ring 0x10 + 32 * (ringAt s q.ring).cqTail) rec ∧
      slice rec 0 4 = leBytes 4 q.desc.seq.toNat ∧ slice rec 4 1 = leBytes 1 (finalStatus s { q with frozen := false }) ∧
      (version s = 3 → slice rec 5 1 = leBytes 1 ((ringAt s q.ring).alive + 1).toNat) ∧
      (ringAt t q.ring).cqTail = ((ringAt s q.ring).cqTail + 1) % cqSize s q.ring ∧
      (ringAt t q.ring).inflight = (ringAt s q.ring).inflight - 1 ∧
      (ringAt t q.ring).alive = (if version s = 3 then (ringAt s q.ring).alive + 1 else 0) ∧
      (ringAt t q.ring).records = (ringAt s q.ring).records + 1 ∧
      (∀ k, k ≠ q.ring → ringAt t k = ringAt s k) ∧ reqAt t id = none) ∧
  (∀ (s : State) (n : Nat), Settled s → (ringAt s n).headDue = true → feature s 2 = false →
    exec (.headWordWrite n) s = .next (putRing (hostPut s (rg64 s n 0x18)
      (leBytes 2 (ringAt s n).sqHead ++ leBytes 2 (ringAt s n).cqTail ++ leBytes 4 (ringAt s n).records.toNat)) n
      { ringAt s n with headDue := false, sumDue := false })) ∧
  (∀ (s : State) (n : Nat), Settled s → (ringAt s n).headDue = false → exec (.headWordWrite n) s = .next s)

/-- With DEADLINE selected, a request that is not finished at its deadline instant (its ready instant plus DEADLINE, not 0), in
flight or ready and still posted in its ring, is marked missed, counts once in BLV_DEADLINE_CNT (0x84) and sets DEADLINE (bit
3) of BLV0 with its ring; its outcome is not decided by it, and nothing else changes. Before the instant, or once marked,
nothing changes. -/
def Obligations.DeadlineMissReported : Prop :=
  ∀ (s : State), Settled s → (∀ (id : Nat) (q : Req), reqAt s id = some q →
    (feature s 5 = true → q.desc.deadline ≠ 0 → q.phase ≠ .finished → q.missed = false →
      q.readyAt + q.desc.deadline.toNat ≤ s.belv.tb →
      exec (.deadlineMiss (.req id)) s =
        .next (noted (count (putReq s id (some { q with missed := true })) 0x10 0x84 1) 0x10 3 q.ring)) ∧
    (q.missed = true ∨ s.belv.tb < q.readyAt + q.desc.deadline.toNat → exec (.deadlineMiss (.req id)) s = .next s)) ∧
    ∀ (n k : Nat) (p : Posted) (at_ : Nat), (ringAt s n).posted[k]? = some p → p.ready = some at_ →
      (feature s 5 = true → p.desc.deadline ≠ 0 → p.missed = false → at_ + p.desc.deadline.toNat ≤ s.belv.tb →
        exec (.deadlineMiss (.posted n k)) s = .next (noted (count (putRing s n
          { ringAt s n with posted := (ringAt s n).posted.set k { p with missed := true } }) 0x10 0x84 1) 0x10 3 n)) ∧
      (p.missed = true ∨ s.belv.tb < at_ + p.desc.deadline.toNat → exec (.deadlineMiss (.posted n k)) s = .next s)

/-- With no ring enabled, a whole-word write of HDMA_SUM_BASE_LO stages bits [31:10] and leaves the base, and one of
HDMA_SUM_BASE_HI commits the staged LO and HI. With a ring enabled, each leaves the base and sets RING_CFG (bit 2), and the
write of LO leaves what is staged. With SUMMARY selected, a whole-word write of HDMA_SUM_CLR_HI clears the mask's bits in the
device's copy of word HDMA_SUM_GROUP and writes the word to host memory at its place, and to no other byte; every other word
is unchanged. -/
def Obligations.SummaryWords : Prop :=
  ∀ (s : State) (w : W32), Settled s → answers s 0x90 = true →
    (ringsActive s = false →
      (∃ t, exec (.hdmaSumBaseWrite (whole w)) s = .next t ∧
        stagedLo t .hdma0 0x90 0x40 = (stagedLo s .hdma0 0x90 0x40 &&& 0x3FF) ||| (w &&& 0xFFFFFC00) ∧
        rget64 t 0x90 0x40 = rget64 s 0x90 0x40 ∧ t.hostMem = s.hostMem ∧ t.sums = s.sums) ∧
      (∃ t, exec (.registerWrite 0x90044 [whole w]) s = .next t ∧
        rget64 t 0x90 0x40 = (stagedLo s .hdma0 0x90 0x40).toNat + w.toNat * 2 ^ 32 ∧ t.hostMem = s.hostMem ∧ t.sums = s.sums)) ∧
    (ringsActive s = true →
      (∃ t, exec (.hdmaSumBaseWrite (whole w)) s = .next t ∧ stagedLo t .hdma0 0x90 0x40 = stagedLo s .hdma0 0x90 0x40 ∧
        rget64 t 0x90 0x40 = rget64 s 0x90 0x40 ∧ bit (rget t 0x90 0x18) 2 = true) ∧
      (∃ t, exec (.registerWrite 0x90044 [whole w]) s = .next t ∧
        rget64 t 0x90 0x40 = rget64 s 0x90 0x40 ∧ bit (rget t 0x90 0x18) 2 = true)) ∧
    (∀ lo : W32, tget none s.loStage (dwAddr 0x90 0x4C) = some lo → feature s 2 = true →
      ∃ t, exec (.hdmaSumClr (whole w)) s = .next t ∧
        tget 0 t.sums (rfld s 0x90 0x48 6 0) = tget 0 s.sums (rfld s 0x90 0x48 6 0) &&& ~~~(w ++ lo) ∧
        (∀ g, g ≠ rfld s 0x90 0x48 6 0 → tget 0 t.sums g = tget 0 s.sums g) ∧
        t.hostMem = putBytes s.hostMem (rget64 s 0x90 0x40 + 8 * rfld s 0x90 0x48 6 0)
          (leBytes 8 (tget 0 s.sums (rfld s 0x90 0x48 6 0) &&& ~~~(w ++ lo)).toNat))

/-- A whole-word write of BLV_TB_SET_HI forms a value from the staged LO and the word. With SRC = FREE, LT_EN = 0 and a value not
below TB, or one below TB with no ring enabled, it sets TB to the value and its fraction to 0, leaves nothing staged, and
changes no register, ring, request, launch entry or byte of memory. With LT_EN = 1, with SRC not FREE, or with a value below
TB while a ring is enabled, the timebase keeps its state, what is staged stays staged, and TB_SET_REFUSED (bit 9) of BLV0 is
set. -/
def Obligations.TimebaseLoad : Prop :=
  ∀ (s : State) (lo w : W32), Settled s → answers s 0x10 = true → tget none s.loStage (dwAddr 0x10 0x50) = some lo →
    let v := lo.toNat + w.toNat * 2 ^ 32
    (tbSrc s = 0 → ltEn s = false → s.belv.tb ≤ v ∨ ringsActive s = false →
      ∃ t, exec (.tbSetWrite (whole w)) s = .next t ∧ t.belv.tb = v ∧ t.belv.frac = 0 ∧
        tget none t.loStage (dwAddr 0x10 0x50) = none ∧ t.regs = s.regs ∧ t.rings = s.rings ∧ t.reqs = s.reqs ∧
        t.entries = s.entries ∧ t.hostMem = s.hostMem ∧ t.pkgMem = s.pkgMem ∧ t.coreMem = s.coreMem ∧ t.weights = s.weights ∧
        t.ingest = s.ingest) ∧
    (tbSrc s ≠ 0 ∨ ltEn s = true ∨ (v < s.belv.tb ∧ ringsActive s = true) →
      ∃ t, exec (.tbSetWrite (whole w)) s = .next t ∧ t.belv = s.belv ∧ t.loStage = s.loStage ∧
        bit (rget t 0x10 0x18) 9 = true ∧ t.rings = s.rings)

/-- While LT_EN is 1, a PTM answer to an open request leaves TB where it is, holds the offset within 2^31 - 1, ends holdover, and
slews in the offset's direction by at most 200 ppm, at the limit for an offset of 1 ms or more; LOCK is set by the fourth good
correction in a row and cleared by an offset of 1 us or more. A PTM request that is due opens and counts an unanswered one. A
PPS edge 100 us or more away under LOCK, of a source that has begun, changes nothing but BLV_PPS_OUTLIER_CNT (0x88); one
without LOCK, while LT_EN is 1, leaves TB where it is, ends holdover, is noted with its TB, and measures the offset to the
nearest second. The slew rate within the limit is free (log 12). -/
def Obligations.TimebaseCorrections : Prop :=
  ∀ s : State, Settled s → disciplined s = true →
    (∀ m : Nat, tbSrc s = 1 → s.belv.ptmOpen = true → ltEn s = true → ∃ t, exec (.ptmResponse m) s = .next t ∧
      t.belv.tb = s.belv.tb ∧ t.belv.holdover = false ∧ t.belv.missed = 0 ∧ t.belv.ptmOpen = false ∧
      t.belv.offset.natAbs < 2 ^ 31 ∧ (((m : Int) - s.belv.tb).natAbs < 2 ^ 31 → t.belv.offset = (m : Int) - s.belv.tb) ∧
      t.belv.rate.natAbs ≤ 200000 ∧ (0 < (m : Int) - s.belv.tb → 0 ≤ t.belv.rate) ∧ ((m : Int) - s.belv.tb < 0 → t.belv.rate ≤ 0) ∧
      (1000000 ≤ ((m : Int) - s.belv.tb).natAbs → t.belv.rate.natAbs = 200000 ∧ bit (rget t 0x10 0x18) 5 = true) ∧
      (1000 ≤ ((m : Int) - s.belv.tb).natAbs → t.belv.lock = false) ∧
      (((m : Int) - s.belv.tb).natAbs < 100 → 3 ≤ s.belv.good → t.belv.lock = true)) ∧
    (tbSrc s = 1 → s.belv.ptmAt + rfld s 0x10 0x44 31 24 * 1000000 ≤ s.belv.tb → exec .ptmRequest s =
      .next { s with belv := { s.belv with ptmOpen := true, ptmAt := s.belv.tb,
                                           missed := if s.belv.ptmOpen then s.belv.missed + 1 else s.belv.missed } }) ∧
    (tbSrc s = 2 → s.belv.lock = true → s.belv.jump = false → 100000 ≤ ((nearestSecond s.belv.tb : Int) - s.belv.tb).natAbs →
      exec .ppsEdge s = .next (count s 0x10 0x88 1)) ∧
    (tbSrc s = 2 → s.belv.lock = false → ltEn s = true → ∃ t, exec .ppsEdge s = .next t ∧ t.belv.tb = s.belv.tb ∧
      t.belv.ppsAt = some s.belv.tb ∧ t.belv.holdover = false ∧
      t.belv.offset = (nearestSecond s.belv.tb : Int) - s.belv.tb)

/-- In a state that disciplines TB, four unanswered PTM requests, or 1.5 s without a PPS edge, start holdover once: LOCK clears,
the rate is kept, and SRC_LOST (bit 4) is set. With TBOUT_EN = 1, TB_OUT rises within 5 ns of a multiple of 10^9, once for
each, and its fall is set WIDTH ns after the rise; at that instant it falls. A sync message, taken once a microsecond, that
finds a die in service 8 ns or more away steps it to the Pavilion's value, keeps the skew if it is the worst, and sets ALIGN
(bit 6). -/
def Obligations.HoldoverAndTbOut : Prop :=
  ∀ s : State, Settled s →
    (disciplined s = true → s.belv.holdover = false → (tbSrc s = 1 ∧ 4 ≤ s.belv.missed) ∨
        (tbSrc s = 2 ∧ ∃ t, s.belv.ppsAt = some t ∧ t + 1500000000 ≤ s.belv.tb) →
      exec .holdover s = .next (noted { s with belv := { s.belv with holdover := true, lock := false, good := 0 } } 0x10 4 0)) ∧
    (rbit s 0x10 0x40 1 = true → s.belv.tbOut = false → ∀ k : Nat, s.belv.tb ≤ k * 1000000000 + 5 →
      k * 1000000000 ≤ s.belv.tb + 5 →
      (s.belv.outAt ≠ some (k * 1000000000) → exec .tbOutRise s = .next { s with belv := { s.belv with
        tbOut := true, outAt := some (k * 1000000000), fallAt := s.belv.tb + rfld s 0x10 0x64 23 0 } }) ∧
      (s.belv.outAt = some (k * 1000000000) → exec .tbOutRise s = .next s)) ∧
    (s.belv.tbOut = true → s.belv.fallAt ≤ s.belv.tb → exec .tbOutFall s = .next { s with belv := { s.belv with tbOut := false } }) ∧
    (∀ k : Int, s.belv.syncAt / 1000 < s.belv.tb / 1000 → (dieAt s 0).up = true → 8 ≤ k.natAbs →
      ∃ t, exec (.tbSyncMessage [k]) s = .next t ∧ t.belv.syncAt = s.belv.tb ∧ tget 0 t.belv.skew 0 = 0 ∧
        bit (rget t 0x10 0x18) 6 = true ∧ min k.natAbs 255 ≤ rfld t 0x10 0x68 7 0)

/-- A whole-word write of BLV_CTRL stores its two fields, takes TB_OUT low where TBOUT_EN is 0, and changes no ring and no
request. With LT_EN = 0 it discards the pending firing of every entry and leaves the rest of each. With LT_EN staying 1 it
changes no entry. With LT_EN going from 0 to 1, of the entries whose EN is 1 an AT entry is armed with its value as its
trigger value whether or not it has passed, an EVERY entry is armed with the earliest of its values whose judging point (the
value, or for COMMIT and CAL_WINDOW the dispatch point) is not earlier than now, and an event entry waits for its event; an
entry whose EN is 0 is unchanged. -/
def Obligations.LaunchEnable : Prop :=
  ∀ (s : State) (w : W32), Settled s → answers s 0x10 = true → tabOk (fun _ => Entry.zero) s.entries = true →
    ∃ t, exec (.ltEnWrite (whole w)) s = .next t ∧
      rget t 0x10 0x40 = (rget s 0x10 0x40 &&& 0xFFFFFFFC) ||| (w &&& 3) ∧
      t.belv = (if bit w 1 then s.belv else { s.belv with tbOut := false }) ∧ t.rings = s.rings ∧ t.reqs = s.reqs ∧
      ∀ n, let e := entryAt s n
        let judged := fun (v : Nat) => if e.lead then s.belv.tb + 2000 ≤ v + max (fld e.d0 23 0) 32 else s.belv.tb ≤ v
        (bit w 0 = false → entryAt t n = { e with pend := none }) ∧
        (bit w 0 = true → ltEn s = true → entryAt t n = e) ∧
        (bit w 0 = true → ltEn s = false →
          (e.en = true → e.trig = 0 → entryAt t n = { e with armed := true, next := e.d1.toNat + e.d2.toNat * 2 ^ 32 }) ∧
          (e.en = true → e.trig = 1 → 0 < e.d1.toNat → ∃ k, let v := e.d2.toNat + k * e.d1.toNat
            entryAt t n = { e with armed := true, next := v } ∧ judged v ∧ (k = 0 ∨ ¬ judged (e.d2.toNat + (k - 1) * e.d1.toNat))) ∧
          (e.en = true → 2 ≤ e.trig → entryAt t n = { e with armed := false, next := 0 }) ∧
          (e.en = false → entryAt t n = e))

/-- A whole-word write of LT_INDEX with n puts the four words of entry n in LT_DATA0 to 3, its pending instant in LT_PEND and
whether it has one in LT_STAT[31], and changes no entry. With LT_INDEX at n, LT_CMD.WRITE of staged words that are permitted,
or whose EN is 0, replaces the entry's words and discards and counts its pending firing; refused words change nothing but
BAD_ENTRY (bit 7) of BLV0 with n. LT_CMD.CLEAR_PEND discards and counts the pending firing alone. No other entry changes. -/
def Obligations.LaunchWindow : Prop :=
  ∀ (s : State) (n : Nat), Settled s → answers s 0x12 = true → n < 32768 →
    (∃ t, exec (.ltIndexWrite (whole (BitVec.ofNat 32 n))) s = .next t ∧ rget t 0x12 0x44 = (entryAt s n).d0 ∧
      rget t 0x12 0x48 = (entryAt s n).d1 ∧ rget t 0x12 0x4C = (entryAt s n).d2 ∧ rget t 0x12 0x50 = (entryAt s n).d3 ∧
      rbit t 0x12 0x58 31 = (entryAt s n).pend.isSome ∧
      (∀ f, (entryAt s n).pend = some f → rget64 t 0x12 0x5C = f.t % 2 ^ 64) ∧ t.entries = s.entries) ∧
    (rfld s 0x12 0x40 14 0 = n →
      let d0 := rget s 0x12 0x44
      let d1 := rget s 0x12 0x48
      let d2 := rget s 0x12 0x4C
      let d3 := rget s 0x12 0x50
      (bit d0 31 = true → entryPermitted d0 d1 d2 d3 = false → exec (.ltCmdWrite (whole 1)) s =
        .next (answer (noted s 0x10 7 n) .posted [])) ∧
      (bit d0 31 = false ∨ entryPermitted d0 d1 d2 d3 = true → ∃ t, exec (.ltCmdWrite (whole 1)) s = .next t ∧
        (entryAt t n).d0 = d0 ∧ (entryAt t n).d1 = d1 ∧ (entryAt t n).d2 = d2 ∧ (entryAt t n).d3 = d3 ∧
        (entryAt t n).pend = none ∧ (∀ k, k ≠ n → entryAt t k = entryAt s k) ∧
        (rget t 0x10 0x8C).toNat = min ((rget s 0x10 0x8C).toNat + if (entryAt s n).pend.isSome then 1 else 0) 0xFFFFFFFF) ∧
      (∀ f, (entryAt s n).pend = some f → exec (.ltCmdClearPend (whole 2)) s = .next (answer
        (putEntry (count s 0x10 0x8C 1) n { entryAt s n with pend := none }) .posted [])) ∧
      ((entryAt s n).pend = none → exec (.ltCmdClearPend (whole 2)) s = .next (answer s .posted [])))

/-- While triggers are judged, an armed AT entry whose value TB has reached (for COMMIT and CAL_WINDOW, its dispatch point where
that is earlier) fires with the instant value + max(DELAY, 32) and is no longer armed; an armed EVERY entry fires in the same
way from its trigger value, which moves on by PERIOD; with a firing pending, the new one is dropped, counted in BLV_DROP_CNT
and flagged TRIG_DROP (bit 1) with the entry. A pending firing more than TOL after its due instant is judged late once: it
counts in BLV_LATE_CNT, sets LATE (bit 0) and LAST_LATE, and under LATE_SKIP it is skipped, counts in BLV_SKIP_CNT and is no
longer pending; no other entry changes. An uncorrectable error clears EN, discards the firing and sets ENTRY_UE (bit 8) with
the entry. -/
def Obligations.TriggersFire : Prop :=
  ∀ (s : State) (n : Nat) (e : Entry), Settled s → entryAt s n = e → launchOn s = true →
    (e.en = true → e.armed = true → e.trigPoint e.next ≤ s.belv.tb →
      let f : Firing := ⟨e.next + max (fld e.d0 23 0) 32, false⟩
      (e.trig = 0 → let u := putEntry s n { e with armed := false }
        (e.pend = none → exec (.atTrigger n) s = .next (putEntry u n { e with armed := false, pend := some f })) ∧
        (e.pend.isSome = true → exec (.atTrigger n) s = .next (noted (count u 0x10 0x7C 1) 0x10 1 n))) ∧
      (e.trig = 1 → let u := putEntry s n { e with next := e.next + e.d1.toNat }
        (e.pend = none → exec (.everyTrigger n) s =
          .next (putEntry u n { e with next := e.next + e.d1.toNat, pend := some f })) ∧
        (e.pend.isSome = true → exec (.everyTrigger n) s = .next (noted (count u 0x10 0x7C 1) 0x10 1 n)))) ∧
    (∀ f, e.pend = some f → f.late = true → exec (.lateJudgement n) s = .next s) ∧
    (∀ f, e.pend = some f → f.late = false → e.due f + rfld s 0x10 0x60 15 0 < s.belv.tb →
      ∃ t, exec (.lateJudgement n) s = .next t ∧ (entryAt t n).lastLate = true ∧ bit (rget t 0x10 0x18) 0 = true ∧
        (rget t 0x10 0x74).toNat = min ((rget s 0x10 0x74).toNat + 1) 0xFFFFFFFF ∧
        (e.lateSkip = false → (entryAt t n).pend = some { f with late := true }) ∧
        (e.lateSkip = true → (entryAt t n).pend = none ∧ (entryAt t n).lastSkip = true ∧
          (rget t 0x10 0x78).toNat = min ((rget s 0x10 0x78).toNat + 1) 0xFFFFFFFF) ∧
        (∀ k, k ≠ n → entryAt t k = entryAt s k)) ∧
    (exec (.entryUe n) s = .next (noted (putEntry s n { e.disable with pend := none }) 0x10 8 n))

/-- When an entry's pending firing is the next to issue and is not late, ACTION_ISSUE counts it in BLV_FIRE and takes one of the
64 places of the microsecond, whatever its action. Where the action is RING_RELEASE and the entry is not a CHAIN of itself,
the entry has nothing pending afterwards, FIRES is advanced, LAST_LATE is 0, and EN is cleared exactly under ONESHOT or AT. A
RING_RELEASE of COUNT 0 to a RUNNING or STALLED time-bound ring makes every waiting descriptor eligible; to a ring that is
DISABLED, DRAINING, in FAULT or not time-bound it has no effect. ADC_START of a sequence that can run takes the converter's
free place of its kind, regular or injected, or the pending place of that kind, and with both taken it is dropped, counted
(ISU2, 0x124) and flagged (bit 2). DAC_LOAD gives each enabled output of the mask that does not ramp its staged code up to
MAX, holds the load of one that ramps, and leaves every other. STROBE_PULSE is blocked, counted (ISU0, 0x78) and flagged (bit
2) while the interlock is tripped or the output is disabled; else it moves the end of a high output, and makes a low output
with budget left high for WIDTH ns. Each of the three has no effect with domain D3 off. A COMMIT whose group awaits no outcome
is decided at once: EMPTY, APPLIED or REFUSED, by the members, how many must be there, and whether each is armed; else it
waits behind the one that is to come. SILLAGE_JOB queues the template at the unit, or is dropped, counted (0x48) and flagged
(bit 0) where 16 wait. CAL_WINDOW makes a window of its profile's dies, cores and length, and has no effect with nothing to
cover. An action without effect counts in BLV_NOEFFECT_CNT and sets NOEFFECT (bit 2). -/
def Obligations.ActionIssues : Prop :=
  ∀ (s : State) (n : Nat) (e : Entry) (f : Firing), Settled s → tabOk (fun _ => Entry.zero) s.entries = true →
    tabOk (fun _ => Ring.zero) s.rings = true → entryAt s n = e → e.pend = some f → f.late = false → lateNow s e f = false →
    mayIssue s n f = true →
    ∃ t, exec (.actionIssue n) s = .next t ∧ rget64 t 0x10 0x6C = (rget64 s 0x10 0x6C + 1) % 2 ^ 64 ∧
      issuedNow t = issuedNow s + 1 ∧
      (e.action = 0 → (e.trig ≠ 5 ∨ fld e.d1 14 0 ≠ n) → (entryAt t n).pend = none ∧ (entryAt t n).fires = e.fires + 1 ∧
        (entryAt t n).lastLate = false ∧ (entryAt t n).en = (e.en && !e.oneshot)) ∧
      (∀ r, e.action = 0 → r = fld e.d3 12 0 → releasable s r = true → fld e.d3 27 16 = 0 →
        (∀ p ∈ (ringAt t r).posted, p.eligible = true) ∧ (ringAt t r).posted.length = (ringAt s r).posted.length) ∧
      (∀ r, e.action = 0 → r = fld e.d3 12 0 → releasable s r = false → (ringAt t r).st = (ringAt s r).st) ∧
      (e.action = 0 ∧ releasable s (fld e.d3 12 0) = false ∨ (e.action = 1 ∨ e.action = 2 ∨ e.action = 3) ∧ s.pwr.d3off = true ∨
          e.action = 6 ∧ (rfld s 0x13 (0x44 + 8 * fld e.d3 3 0) 19 0 = 0 ∨ rfld s 0x13 (0x40 + 8 * fld e.d3 3 0) 31 16 = 0 ∨
            ∀ d, d < 16 → bit (rget s 0x13 (0x40 + 8 * fld e.d3 3 0)) d = true → dieUp s d = false) →
        bit (rget t 0x10 0x18) 2 = true ∧ (rget t 0x10 0x80).toNat = min ((rget s 0x10 0x80).toNat + 1) 0xFFFFFFFF ∧
        t.isu.dac = s.isu.dac ∧ t.isu.stb = s.isu.stb ∧ t.isu.conv = s.isu.conv ∧ t.wins = s.wins) ∧
      (∀ k q, e.action = 1 → s.pwr.d3off = false → k = fld e.d3 4 4 → q = fld e.d3 3 0 → seqChans s q ≠ [] →
        15 ∉ seqChans s q → rbit s 0x32 0x40 k = true →
        let x : Seq := ⟨q, seqChans s q, s.belv.tb + fld (rget s 0x32 (0xA0 + 8 * q)) 31 16, false⟩
        let c := convAt s k
        let u := convAt t k
        let dropped := bit (rget t 0x32 0x18) 2 = true ∧
          (rget t 0x32 0x124).toNat = min ((rget s 0x32 0x124).toNat + 1) 0xFFFFFFFF ∧ u = c
        (bit e.d3 5 = false → u.inj = c.inj ∧ u.injNext = c.injNext ∧
          (c.reg = none → u.reg = some x ∧ u.regNext = c.regNext) ∧
          (c.reg ≠ none → c.regNext = none → u.reg = c.reg ∧ u.regNext = some x) ∧
          (c.reg ≠ none → c.regNext ≠ none → dropped)) ∧
        (bit e.d3 5 = true → u.reg = c.reg ∧ u.regNext = c.regNext ∧
          (c.inj = none → u.inj = some x ∧ u.injNext = c.injNext) ∧
          (c.inj ≠ none → c.injNext = none → u.inj = c.inj ∧ u.injNext = some x) ∧
          (c.inj ≠ none → c.injNext ≠ none → dropped))) ∧
      (∀ k, e.action = 2 → s.pwr.d3off = false → k < 4 →
        let on := bit e.d3 k && rbit s 0x31 (0x50 + 16 * k) 0
        dacAt t k = if on = false then dacAt s k
          else if (dacAt s k).ramp.isSome then { dacAt s k with held := true }
          else { dacAt s k with
            code := BitVec.ofNat 16 (min (rfld s 0x31 (0x54 + 16 * k) 15 0) (rfld s 0x31 (0x5C + 16 * k) 15 0)) }) ∧
      (∀ k w, e.action = 3 → s.pwr.d3off = false → k = fld e.d3 1 0 → w = fld e.d3 21 2 →
        let b := stbAt s k
        (s.isu.tripped = true ∨ rbit s 0x30 0x40 k = false → t.isu.stb = s.isu.stb ∧ bit (rget t 0x30 0x18) 2 = true ∧
          (rget t 0x30 0x78).toNat = min ((rget s 0x30 0x78).toNat + 1) 0xFFFFFFFF) ∧
        (s.isu.tripped = false → rbit s 0x30 0x40 k = true → scanLow s = false →
          (b.high = true → stbAt t k = { b with until_ := max b.until_ (s.belv.tb + w) }) ∧
          (b.high = false → dutyFull s k = false →
            stbAt t k = { b with high := true, rise := s.belv.tb, until_ := s.belv.tb + w }))) ∧
      (∀ g, e.action = 4 → g = fld e.d3 3 0 →
        let x := groupAt s g
        let low := rfld s 0x13 (0xC0 + 4 * g) 11 0
        (∀ h, x.held = some h → groupAt t g = { x with after := x.after ++ [f.t] }) ∧
        (x.held = none →
          (x.members = [] → low = 0 → groupAt t g = { x with held := some (f.t, .empty) }) ∧
          (x.members ≠ [] → low ≤ x.members.length → (∀ p ∈ x.members, armedFor s g p = true) →
            groupAt t g = { x with held := some (f.t, .applied) }) ∧
          (x.members = [] ∧ low ≠ 0 ∨ x.members.length < low ∨ (∃ p ∈ x.members, armedFor s g p = false) →
            groupAt t g = { x with held := some (f.t, .refused) }))) ∧
      (∀ u, e.action = 5 → u = fld e.d3 10 8 →
        ((unitAt s u).queue.length < 16 → unitAt t u = { unitAt s u with
          queue := (unitAt s u).queue ++ [(fld e.d3 7 0, endedFrames s)] }) ∧
        (16 ≤ (unitAt s u).queue.length → unitAt t u = unitAt s u ∧ bit (rget t (0x51 + u) 0x18) 0 = true ∧
          (rget t (0x51 + u) 0x48).toNat = min ((rget s (0x51 + u) 0x48).toNat + 1) 0xFFFFFFFF)) ∧
      (∀ d len, e.action = 6 → len = rfld s 0x13 (0x44 + 8 * fld e.d3 3 0) 19 0 → len ≠ 0 →
        rfld s 0x13 (0x40 + 8 * fld e.d3 3 0) 31 16 ≠ 0 → d < 16 →
        bit (rget s 0x13 (0x40 + 8 * fld e.d3 3 0)) d = true → dieUp s d = true →
        winAt t s.nextWin = some
            { openAt := f.t, closeAt := f.t + len,
              dies := BitVec.ofNat 16 (rfld s 0x13 (0x40 + 8 * fld e.d3 3 0) 15 0),
              cores := BitVec.ofNat 16 (rfld s 0x13 (0x40 + 8 * fld e.d3 3 0) 31 16), isOpen := false, defer := [] } ∧
        t.nextWin = s.nextWin + 1)

/-- At the instant of a commit decided as applied, every member page that is armed for the group takes it: each of its shadowed
registers takes its shadow's value and keeps the shadow, ARM and REFUSED return to 0, and COMMIT_AT holds the instant; a
member that a reset has disarmed meanwhile keeps its registers; an applied profile of PWR0 goes to the NV record; and the
applied commits are counted (BLV3, 0x140). Decided as refused, no member takes it: every shadowed register and shadow keeps
its value, and in each member page that answers REFUSED is set, ARM for the group returns to 0, COMMIT_AT holds the instant
and COMMIT_LATE (bit 28) is set; COMMIT_REFUSED (bit 10) of BLV0 is set, and the refused commits are counted (0x144). Decided
as empty, no page changes. In each case the group's membership becomes the pages that joined, and a COMMIT that waited is
decided on them. Before the instant nothing changes. -/
def Obligations.CommitAppliesOrRefuses : Prop :=
  ∀ (s : State) (g T : Nat) (x : Group), Settled s → groupAt s g = x → g < 16 →
    let next := fun (t : State) (last : BitVec 2) => groupAt t g =
      { members := x.joining, joining := [],
        held := x.after.head?.map fun u => (u, judgeGroup t g), after := x.after.tail, last := last }
    (x.held = some (T, .applied) → T ≤ s.belv.tb →
      ∃ t, exec (.commitApply g) s = .next t ∧ next t 1 ∧
        (∀ p ∈ x.members, armedFor s g p = true →
          (∀ o ∈ shadowedOffs p, rget t p o = rget s p (0x800 + o) ∧ rget t p (0x800 + o) = rget s p (0x800 + o)) ∧
          bit (rget t p 0x30) 31 = false ∧ bit (rget t p 0x30) 16 = false ∧ rget64 t p 0x34 = T % 2 ^ 64) ∧
        (∀ p ∈ x.members, armedFor s g p = false → ∀ o ∈ shadowedOffs p, rget t p o = rget s p o) ∧
        (0x40 ∈ x.members → armedFor s g 0x40 = true → t.nv.profile = BitVec.ofNat 2 (rfld s 0x40 0x844 1 0)) ∧
        (0x40 ∉ x.members ∨ armedFor s g 0x40 = false → t.nv = s.nv) ∧
        (rget t 0x13 0x140).toNat = min ((rget s 0x13 0x140).toNat + 1) 0xFFFFFFFF) ∧
    (x.held = some (T, .refused) → T ≤ s.belv.tb →
      ∃ t, exec (.commitApply g) s = .next t ∧ next t 2 ∧ t.nv = s.nv ∧
        (∀ p ∈ x.members, ∀ o ∈ shadowedOffs p, rget t p o = rget s p o ∧ rget t p (0x800 + o) = rget s p (0x800 + o)) ∧
        (∀ p ∈ x.members, pageReach s p = .ok → bit (rget t p 0x30) 16 = true ∧ rget64 t p 0x34 = T % 2 ^ 64 ∧
          bit (rget t p 0x18) 28 = true ∧ (armedFor s g p = true → bit (rget t p 0x30) 31 = false)) ∧
        bit (rget t 0x10 0x18) 10 = true ∧
        (rget t 0x13 0x144).toNat = min ((rget s 0x13 0x144).toNat + 1) 0xFFFFFFFF) ∧
    (x.held = some (T, .empty) → T ≤ s.belv.tb →
      ∃ t, exec (.commitApply g) s = .next t ∧ next t 3 ∧ t.regs = s.regs ∧ t.nv = s.nv) ∧
    (∀ v, x.held = some (T, v) → s.belv.tb < T → exec (.commitApply g) s = .next s)

/-- A dispatched window whose opening instant has come is open after CAL_WINDOW_OPEN, with its cores and its closing instant kept,
and of its dies those that are in service then; an open one whose closing instant has come is gone after CAL_WINDOW_CLOSE.
Before its instant each changes nothing. -/
def Obligations.CalibrationWindows : Prop :=
  ∀ (s : State) (n : Nat) (w : Window), Settled s → winAt s n = some w →
    (w.isOpen = false → w.openAt ≤ s.belv.tb →
      ∃ t w', exec (.calWindowOpen n) s = .next t ∧ winAt t n = some w' ∧ w'.isOpen = true ∧ w'.closeAt = w.closeAt ∧
        (∀ d, d < 16 → w'.dies.getLsbD d = (w.dies.getLsbD d && dieUp s d)) ∧ w'.cores = w.cores) ∧
    (w.isOpen = true → w.closeAt ≤ s.belv.tb → w.defer = [] → exec (.calWindowClose n) s = .next (putWin s n none)) ∧
    (w.isOpen = false → s.belv.tb < w.openAt → exec (.calWindowOpen n) s = .next s) ∧
    (w.isOpen = true → s.belv.tb < w.closeAt → exec (.calWindowClose n) s = .next s)

/-- A whole-word write of FLC_SLOT_INDEX, TRL_LINK_INDEX, CHK_TPL_INDEX, ISU_CAL_INDEX or PWR_LOG_INDEX shows the selected slot's
state, identity, version and epoch, the link's state and error counts, the template's five words, the pair's VALID, SZ and D,
or the shutdown record's TB, cause and die, and changes nothing but registers and the answer. For a die that answers, a whole-
word write of CAL_ENG_INDEX, WEAR_INDEX, DRIFT_INDEX, PLM_INDEX or VEC_SLOT_INDEX shows the engine's due, stale and never bits
and the TB of its last calibration, the bank's RETIRED bit and charge, the drift entry or 0 where there is none, the plate's
map words and stamp, or whether a quantisation slot is shown, and changes nothing but registers and the answer. Before the
plate map is loaded a write of PLM_INDEX stores the index alone. -/
def Obligations.SnapshotWrites : Prop :=
  (∀ s : State, Settled s →
     (∀ k, 0 < k → k < 16 → answers s 0x61 = true → ∃ t, exec (.flcSlotIndexWrite (whole (BitVec.ofNat 32 k))) s = .next t ∧
       rfld t 0x61 0x44 31 29 = (slotAt s k).st.code ∧ rget t 0x61 0x48 = (slotAt s k).man.id ∧
       rget t 0x61 0x4C = (slotAt s k).man.version ∧ rget t 0x61 0x50 = (slotAt s k).epoch ∧
       { t with regs := s.regs } = answer s .posted []) ∧
     (∀ k, k < 128 → answers s 0x70 = true → ∃ t, exec (.trlLinkIndexWrite (whole (BitVec.ofNat 32 k))) s = .next t ∧
       rfld t 0x70 0x44 31 30 = (linkAt s k).st.toNat ∧ rget t 0x70 0x48 = (linkAt s k).crc ∧
       rget t 0x70 0x4C = (linkAt s k).replay ∧ { t with regs := s.regs } = answer s .posted []) ∧
     (∀ k, k < 256 → answers s 0x50 = true → ∃ t, exec (.chkTplIndexWrite (whole (BitVec.ofNat 32 k))) s = .next t ∧
       rget t 0x50 0x48 = (tplAt s k).cfg ∧ rget t 0x50 0x4C = (tplAt s k).startLo ∧ rget t 0x50 0x50 = (tplAt s k).startHi ∧
       rget t 0x50 0x54 = (tplAt s k).len ∧ rget t 0x50 0x58 = (tplAt s k).ref ∧
       { t with regs := s.regs } = answer s .posted []) ∧
     (∀ k, k < 32 → answers s 0x32 = true → ∃ t, exec (.isuCalIndexWrite (whole (BitVec.ofNat 32 k))) s = .next t ∧
       rbit t 0x32 0x134 31 = (tget CalCoef.zero s.nv.isuCoef k).valid ∧
       rfld t 0x32 0x134 21 0 = (tget CalCoef.zero s.nv.isuCoef k).sz % 2 ^ 22 ∧
       rfld t 0x32 0x138 21 0 = (tget CalCoef.zero s.nv.isuCoef k).d.toNat % 2 ^ 22 ∧ { t with regs := s.regs } = answer s .posted []) ∧
     (∀ k r, k < 16 → answers s 0x40 = true → s.nv.logs[k]? = some r →
       ∃ t, exec (.pwrLogIndexWrite (whole (BitVec.ofNat 32 k))) s = .next t ∧ rget64 t 0x40 0x70 = r.tb % 2 ^ 64 ∧
         rfld t 0x40 0x78 31 28 = r.cause % 16 ∧ rfld t 0x40 0x78 19 16 = r.die % 16 ∧
         { t with regs := s.regs } = answer s .posted [])) ∧
  (∀ (s : State) (d : Nat), Settled s → d < 16 →
     (∀ k, k < 8192 → answers s (pgCal1 d) = true →
       ∃ t, exec (.calEngIndexWrite d (whole (BitVec.ofNat 32 k))) s = .next t ∧
         rbit t (pgCal1 d) 0x44 31 = (engAt s (8192 * d + k)).due ∧ rbit t (pgCal1 d) 0x44 30 = (engAt s (8192 * d + k)).stale ∧
         rbit t (pgCal1 d) 0x44 29 = (engAt s (8192 * d + k)).never ∧
         rget64 t (pgCal1 d) 0x48 = (engAt s (8192 * d + k)).calTb % 2 ^ 64 ∧ { t with regs := s.regs } = answer s .posted []) ∧
     (∀ k, k < 65536 → answers s (pgPrg2 d) = true → ∃ t, exec (.wearIndexWrite d (whole (BitVec.ofNat 32 k))) s = .next t ∧
       rbit t (pgPrg2 d) 0x44 31 = retired s (65536 * d + k) ∧
       rfld t (pgPrg2 d) 0x44 17 0 = min (bankAt s (65536 * d + k)).wear 0x3FFFF ∧ { t with regs := s.regs } = answer s .posted []) ∧
     (∀ k, k < 16384 → answers s (pgPrg3 d) = true → exec (.driftIndexWrite d (whole (BitVec.ofNat 32 k))) s = .next (answer
       (rset (rset s (pgPrg3 d) 0x44 ((rget s (pgPrg3 d) 0x44 &&& 0xFFFFC000) ||| BitVec.ofNat 32 k)) (pgPrg3 d) 0x48
         (match (dieAt s d).drift[k]? with
          | some r => put 31 31 1 ||| put 25 22 r.1 ||| put 17 0 r.2
          | none => 0)) .posted [])) ∧
     (∀ k, k < 4194304 → answers s (pgPlm d) = true →
       (mapLoaded s = true → ∃ t, exec (.plmIndexWrite d (whole (BitVec.ofNat 32 k))) s = .next t ∧
         [rget t (pgPlm d) 0x44, rget t (pgPlm d) 0x48, rget t (pgPlm d) 0x4C] = (plateAt s (4194304 * d + k)).words ∧
         rget64 t (pgPlm d) 0x50 = (plateAt s (4194304 * d + k)).tb % 2 ^ 64 ∧ { t with regs := s.regs } = answer s .posted []) ∧
       (mapLoaded s = false → exec (.plmIndexWrite d (whole (BitVec.ofNat 32 k))) s = .next (answer
         (rset s (pgPlm d) 0x40 ((rget s (pgPlm d) 0x40 &&& 0xFFC00000) ||| BitVec.ofNat 32 k)) .posted []))) ∧
     (∀ c k, c < 16 → k < 1024 → answers s (pgVec (d * 16 + c)) = true →
       ∃ t, exec (.vecSlotIndexWrite d c (whole (BitVec.ofNat 32 k))) s = .next t ∧
         rbit t (pgVec (d * 16 + c)) 0x78 31 = (shownSlot s (d * 16 + c) k).isSome ∧
         { t with regs := s.regs } = answer s .posted []))

/-- A whole-word write of MEM_SLOW_SIZE takes effect only while every slot is EMPTY and no ring is enabled: the NV size becomes
the field, held at 59; otherwise the size stays and the page's sticky bit 3 is set. A write of HIST_CLR marks every
quantisation slot of the core, and of no other core, to empty its history. A write of 1 to SWEEP_CTRL.START with plates to
examine starts a pass over every plate in state VALID or DRIFTED of that die; while a pass is active it changes no sweep
state. That a size above 59 is held at 59 is the model's reading (log 34), and that the refusal's bit has code 0 is the
model's choice (log 34). -/
def Obligations.BlockCommandWrites : Prop :=
  ∀ s : State, Settled s →
    (∀ w : W32, answers s 0x80 = true → (s.slots.all fun x => x.2.st == .empty) = true → ringsActive s = false →
      exec (.memSlowSizeWrite (whole w)) s = .next (answer { s with nv := { s.nv with
        slowSize := BitVec.ofNat 6 (min (w.toNat % 64) 59) } } .posted [])) ∧
    (∀ w : W32, answers s 0x80 = true → (s.slots.all fun x => x.2.st == .empty) = false ∨ ringsActive s = true →
      exec (.memSlowSizeWrite (whole w)) s = .next (answer (noted s 0x80 3 0) .posted [])) ∧
    (∀ d c, d < 16 → c < 16 → answers s (pgVec (d * 16 + c)) = true →
      tabOk (fun _ => (none : Option QSlot)) s.qslots = true →
      ∃ t, exec (.histClr d c (whole 1)) s = .next t ∧ t.regs = s.regs ∧
        ∀ k, qslotAt t k = (qslotAt s k).map fun q => if k / 1024 % 256 = d * 16 + c then { q with clear := true } else q) ∧
    (∀ d, d < 16 → answers s (pgPrg1 d) = true → (dieAt s d).sweep.active = false → sweepPlates s d ≠ [] →
      ∃ t, exec (.sweepCtrlStart d (whole 1)) s = .next t ∧ (dieAt t d).sweep.active = true ∧ (dieAt t d).sweep.cause = 2 ∧
        (dieAt t d).sweep.todo = sweepPlates s d ∧ (dieAt t d).sweep.total = (sweepPlates s d).length ∧
        (dieAt t d).sweep.exam = 0 ∧ t.plates = s.plates ∧ t.hostMem = s.hostMem) ∧
    (∀ d, d < 16 → answers s (pgPrg1 d) = true → (dieAt s d).sweep.active = true →
      ∃ t, exec (.sweepCtrlStart d (whole 1)) s = .next t ∧ { t with regs := s.regs } = answer s .posted [])

/-- A whole-word write of CHK_SUBMIT queues the named template last at the named unit, and at no other; where the unit's queue
holds 16, it is dropped, counted in CHK_DROP_CNT (0x48) and flagged DROP (bit 0) with the template. A write of 1 to
CHK_TPL_WRITE stores the staged template under the selected index; while a job of it runs, it changes nothing but CFG_REFUSED
(bit 1), and a template that R338 refuses changes nothing but BAD_TPL (bit 0). -/
def Obligations.SillageQueueAndTemplates : Prop :=
  ∀ s : State, Settled s → answers s 0x50 = true →
    (∀ u t : Nat, u < 8 → t < 256 → (unitAt s u).queue.length < 16 →
      exec (.chkSubmit (whole (BitVec.ofNat 32 (256 * u + t)))) s = .next (answer
        (putUnit s u { unitAt s u with queue := (unitAt s u).queue ++ [(t, endedFrames s)] }) .posted [])) ∧
    (∀ u t : Nat, u < 8 → t < 256 → 16 ≤ (unitAt s u).queue.length →
      exec (.chkSubmit (whole (BitVec.ofNat 32 (256 * u + t)))) s = .next (answer
        (noted (count s (0x51 + u) 0x48 1) (0x51 + u) 0 t) .posted [])) ∧
    (let n := rfld s 0x50 0x44 7 0
     let cfg := rget s 0x50 0x48
     let c : Tpl := { cfg := if fld cfg 23 22 = 3 then ins cfg 23 22 2 else cfg, startLo := rget s 0x50 0x4C,
                      startHi := rget s 0x50 0x50, len := rget s 0x50 0x54, ref := rget s 0x50 0x58 }
     ((∀ u r, u < 8 → (unitAt s u).run = some r → r.1 ≠ n) → tplBad c = false →
       exec (.chkTplWrite (whole 1)) s = .next (answer (putTpl s n c) .posted [])) ∧
     ((∀ u r, u < 8 → (unitAt s u).run = some r → r.1 ≠ n) → tplBad c = true →
       exec (.chkTplWrite (whole 1)) s = .next (answer (noted s 0x50 0 n) .posted [])) ∧
     (∀ u r, u < 8 → (unitAt s u).run = some r → r.1 = n →
       exec (.chkTplWrite (whole 1)) s = .next (answer (noted s 0x50 1 n) .posted [])))

/-- An idle unit takes its oldest queued job, whose template no unit runs and which is not all zero and not FRAME: the job runs
under the template as it stands, and the queue's rest is unchanged. A running job over package memory without poisoned blocks,
undisturbed, ends as follows: COMPUTE with the CRC of the span as its value; COMPARE with MISMATCH exactly where that CRC
differs from the reference (its low half for the 16-bit CRC), with both values in its result, counted in CHK_MISMATCH_CNT
(0x4C) and flagged (bit 1), and else with MATCH and the count unchanged; an ALIVE job ends with ADVANCED, REPEAT, SKIP or
FIRST by its counter, and the counter goes to LAST. The unit is idle afterwards. -/
def Obligations.SillageJobs : Prop :=
  ∀ (s : State) (u : Nat), Settled s → u < 8 →
    (∀ t ends rest, (unitAt s u).run = none → (unitAt s u).queue = (t, ends) :: rest →
      (∀ v r, v < 8 → (unitAt s v).run = some r → r.1 ≠ t) → tplAt s t ≠ Tpl.zero → (tplAt s t).mode ≠ 3 →
      ∃ s', exec (.sillageJobStart u) s = .next s' ∧ (unitAt s' u).run = some (t, 0, tplAt s t) ∧ (unitAt s' u).queue = rest ∧
        (∀ v, v ≠ u → unitAt s' v = unitAt s v) ∧ s'.regs = s.regs) ∧
    (∀ t f c, (unitAt s u).run = some (t, f, c) → (unitAt s u).dirty = false → c.mode < 2 → c.space = 0 → s.poison = [] →
      let crc := crcOf c.alg (bytesAt s.pkgMem c.start c.span)
      let ref := if c.alg = 2 then c.ref &&& 0xFFFF else c.ref
      ∃ s', exec (.sillageJobEnd u false) s = .next s' ∧ (unitAt s' u).run = none ∧ s'.pkgMem = s.pkgMem ∧
        let e := tget LogEnt.zero (unitAt s' u).log ((unitAt s u).seq.toNat % 16)
        (c.mode = 0 → e.tpl = t ∧ e.outcome = 1 ∧ e.value = crc) ∧
        (c.mode = 1 → crc ≠ ref →
          e = { tpl := t, outcome := 3, seq := (unitAt s u).seq, value := crc, other := c.ref, tbEnd := lo32 s.belv.tb } ∧
          (rget s' (0x51 + u) 0x4C).toNat = min ((rget s (0x51 + u) 0x4C).toNat + 1) 0xFFFFFFFF ∧
          bit (rget s' (0x51 + u) 0x18) 1 = true) ∧
        (c.mode = 1 → crc = ref → e.tpl = t ∧ e.outcome = 2 ∧ rget s' (0x51 + u) 0x4C = rget s (0x51 + u) 0x4C)) ∧
    (∀ t f c, (unitAt s u).run = some (t, f, c) → (unitAt s u).dirty = false → c.mode = 2 → c.space = 0 → s.poison = [] →
      let now := leVal (bytesAt s.pkgMem c.start c.span) % 2 ^ c.width
      let last := fld c.ref 15 0
      ∃ s', exec (.sillageJobEnd u false) s = .next s' ∧ (unitAt s' u).run = none ∧
        (tplAt s' t).ref = (put 31 31 1 ||| put 15 0 now) ∧
        (tget LogEnt.zero (unitAt s' u).log ((unitAt s u).seq.toNat % 16)).outcome =
          (if bit c.ref 31 = false then 7 else if (now + 2 ^ c.width - last % 2 ^ c.width) % 2 ^ c.width = 1 then 4
           else if now % 2 ^ c.width = last % 2 ^ c.width then 5 else 6) ∧
        (tget LogEnt.zero (unitAt s' u).log ((unitAt s u).seq.toNat % 16)).value = BitVec.ofNat 32 now)

/-- A high strobe whose pulse has ended falls; one high for MAX_W us falls, is counted (0x70) and flagged WIDTH_CLIP; one whose
duty budget is used up falls, is counted (0x74) and flagged DUTY. RELEASE clears TRIPPED and the watch counts exactly if every
enabled watch has seen a result in limit since the trip, and else changes nothing but RELEASE_REFUSED (bit 4). Enabling an
output drives it at code 0; disabling it, changing MODE or RANGE of an enabled one, or writing EN = 0 to one that is disabled,
makes both its codes 0 and starts a ramp where it is driven; at the ramp's end, with no load held, the pin is driven exactly
if EN is 1. A load of an enabled output under no ramp takes the lesser of the staged code and MAX, counting and flagging a
clamp. SC and OPEN become live and flagged in their own mode, and clear again. -/
def Obligations.IsuOutputs : Prop :=
  ∀ (s : State) (n : Nat), Settled s → n < 4 →
    ((stbAt s n).high = true → (stbAt s n).until_ ≤ s.belv.tb → ∃ t, exec (.strobeEnd n) s = .next t ∧
      (stbAt t n).high = false ∧ (∀ k, k ≠ n → stbAt t k = stbAt s k) ∧ t.isu.dac = s.isu.dac) ∧
    ((stbAt s n).high = true → (stbAt s n).rise + rfld s 0x30 0x44 10 0 * 1000 ≤ s.belv.tb → ∃ t, exec (.widthClip n) s = .next t ∧
      (stbAt t n).high = false ∧ bit (rget t 0x30 0x18) 0 = true ∧ (∀ k, k ≠ n → stbAt t k = stbAt s k) ∧
      (rget t 0x30 0x70).toNat = min ((rget s 0x30 0x70).toNat + 1) 0xFFFFFFFF) ∧
    ((stbAt s n).high = true → dutyFull s n = true → ∃ t, exec (.dutyEnd n) s = .next t ∧
      (stbAt t n).high = false ∧ bit (rget t 0x30 0x18) 1 = true ∧ (∀ k, k ≠ n → stbAt t k = stbAt s k) ∧
      (rget t 0x30 0x74).toNat = min ((rget s 0x30 0x74).toNat + 1) 0xFFFFFFFF) ∧
    (answers s 0x30 = true → unlocked s 0x30 = true →
      let ok := ∀ w, w < 4 → bit (rget s 0x30 (0x50 + 8 * w)) 31 = true →
        (watchAt s w).seen = true ∧ (watchAt s w).inLim = true ∧ (watchAt s w).last.toNat ≤ fld (rget s 0x30 (0x50 + 8 * w)) 15 0
      (ok → ∃ t, exec (.ilkRelease (whole 1)) s = .next t ∧ t.isu.tripped = false ∧ (∀ w, (watchAt t w).count = 0) ∧
        t.isu.dac = s.isu.dac ∧ t.isu.stb = s.isu.stb) ∧
      (¬ ok → exec (.ilkRelease (whole 1)) s = .next (answer (noted s 0x30 4 0) .posted []))) ∧
    (answers s 0x31 = true → (∀ w : W32, bit w 0 = true → bit (rget s 0x31 (0x50 + 16 * n)) 0 = false →
        ∃ t, exec (.dacCfgWrite n (whole w)) s = .next t ∧ dacAt t n = { dacAt s n with driven := true, code := 0 } ∧
          (∀ k, k ≠ n → dacAt t k = dacAt s k) ∧ rfld t 0x31 (0x50 + 16 * n) 2 0 = fld w 2 0) ∧
      (∀ w : W32, bit w 0 = false ∨
          (bit (rget s 0x31 (0x50 + 16 * n)) 0 = true ∧ fld w 2 1 ≠ fld (rget s 0x31 (0x50 + 16 * n)) 2 1) →
        ∃ t, exec (.dacCfgWrite n (whole w)) s = .next t ∧
          dacAt t n = { dacAt s n with code := 0, ramp := if (dacAt s n).driven then some s.belv.tb else (dacAt s n).ramp } ∧
          rget t 0x31 (0x54 + 16 * n) = 0 ∧ (∀ k, k ≠ n → dacAt t k = dacAt s k) ∧ rfld t 0x31 (0x50 + 16 * n) 2 0 = fld w 2 0) ∧
      (rbit s 0x31 (0x50 + 16 * n) 0 = true → (dacAt s n).ramp = none →
        ∃ t, exec (.isuDacLoad (whole (put n n 1))) s = .next t ∧
          (dacAt t n).code.toNat = min (rfld s 0x31 (0x54 + 16 * n) 15 0) (rfld s 0x31 (0x5C + 16 * n) 15 0) ∧
          (rfld s 0x31 (0x5C + 16 * n) 15 0 < rfld s 0x31 (0x54 + 16 * n) 15 0 → bit (rget t 0x31 0x18) 8 = true ∧
            (rget t 0x31 0x44).toNat = min ((rget s 0x31 0x44).toNat + 1) 0xFFFFFFFF) ∧
          (∀ k, k ≠ n → dacAt t k = dacAt s k))) ∧
    ((dacAt s n).ramp.isSome = true → (dacAt s n).held = false → exec (.dacRampEnd n) s =
      .next (putDac s n { dacAt s n with ramp := none, held := false, driven := rbit s 0x31 (0x50 + 16 * n) 0 })) ∧
    ((dacAt s n).driven = true → rbit s 0x31 (0x50 + 16 * n) 1 = false →
      exec (.dacSc n true) s = .next (noted (putDac s n { dacAt s n with scLive := true }) 0x31 n n)) ∧
    ((dacAt s n).driven = true → rbit s 0x31 (0x50 + 16 * n) 1 = true →
      exec (.dacOpen n true) s = .next (noted (putDac s n { dacAt s n with opLive := true }) 0x31 (4 + n) n)) ∧
    (exec (.dacSc n false) s = .next (putDac s n { dacAt s n with scLive := false })) ∧
    (exec (.dacOpen n false) s = .next (putDac s n { dacAt s n with opLive := false }))

/-- An idle converter with no injected sequence, no second regular one, no plausibility pair waiting and no calibration begins the
next slot of its ready regular sequence. A regular conversion that has taken 500 ns leaves the converter idle and its result
in the data register with VALID set, ORUN set exactly if a result was unread, the channel, and the corrected code, or the
span's end with OVR for an input beyond it. Reading the data register returns it and clears VALID and ORUN exactly if byte 3
is enabled. CAL_ZERO and CAL_FS begin on a converter without injected work, and CAL_CLR clears VALID of the pair there; with
injected work each waits and sets CAL_WAIT (bit 5); and each is refused (bit 6) while a calibration is in progress. A zero
whose 64 codes, taken without injected work, show no input beyond the span keeps their sum; a full scale after it with a wide
enough span sets the coefficients in the NV record. That the full scale keeps the pending zero is the model's reading (log
33). -/
def Obligations.IsuConversions : Prop :=
  ∀ (s : State) (k : Nat), Settled s → k < 2 →
    (∀ q, s.pwr.d3off = false → (convAt s 0).plaus = [] → (convAt s k).busy = none → (convAt s k).inj = none →
      (convAt s k).injNext = none → (convAt s k).regNext = none → (convAt s k).reg = some q → q.at_ ≤ s.belv.tb → calOn s k = false →
      exec (.conversionStart k) s = .next (putConv s k { convAt s k with
        reg := some { q with begun := true }, busy := some (.regular, q.chans.headD 0, s.belv.tb) })) ∧
    (∀ ch t0 q (m : Meas), (convAt s k).busy = some (.regular, ch, t0) → t0 + 500 ≤ s.belv.tb → (convAt s k).reg = some q →
      q.seq < 16 → ch < 15 → ∃ t, exec (.conversionDone k m) s = .next t ∧ (convAt t k).busy = none ∧
        bit (convAt t k).data 31 = true ∧ bit (convAt t k).data 30 = bit (convAt s k).data 31 ∧
        bit (convAt t k).data 29 = m.sat ∧ fld (convAt t k).data 27 24 = q.seq ∧ fld (convAt t k).data 23 20 = ch ∧
        fld (convAt t k).data 15 0 = resultCode s k ch m) ∧
    (∀ be : BitVec 4, answers s 0x32 = true → be ≠ 0 → exec (.adcDataRead k be) s = .next (answer
      (if be.getLsbD 3 = true then putConv s k { convAt s k with data := (convAt s k).data &&& ~~~maskOf 31 30 } else s) .ok
      [rget s 0x32 (0x44 + 4 * k) ||| (convAt s k).data])) ∧
    (answers s 0x32 = true → ∀ ch, ch < 15 →
      (s.isu.cal = none → calHeld s k = false →
        exec (.calZero k ch) s = .next (answer { s with isu := { s.isu with cal := some ⟨1, k, ch, false⟩ } } .posted []) ∧
        exec (.calFs k ch) s = .next (answer { s with isu := { s.isu with cal := some ⟨2, k, ch, false⟩ } } .posted [])) ∧
      (s.isu.cal = none → calHeld s k = false → exec (.calClr k ch) s = .next (answer { s with nv := { s.nv with
        isuCoef := tset CalCoef.zero s.nv.isuCoef (k * 16 + ch)
          { tget CalCoef.zero s.nv.isuCoef (k * 16 + ch) with valid := false } } } .posted [])) ∧
      (s.isu.cal = none → calHeld s k = true →
        let waits := fun (cmd : Nat) => answer (noted { s with isu := { s.isu with cal := some ⟨cmd, k, ch, true⟩ } } 0x32 5 k) .posted []
        exec (.calZero k ch) s = .next (waits 1) ∧ exec (.calFs k ch) s = .next (waits 2) ∧ exec (.calClr k ch) s = .next (waits 3)) ∧
      (s.isu.cal.isSome = true → exec (.calZero k ch) s = .next (answer (noted s 0x32 6 k) .posted []) ∧
        exec (.calFs k ch) s = .next (answer (noted s 0x32 6 k) .posted []) ∧
        exec (.calClr k ch) s = .next (answer (noted s 0x32 6 k) .posted []))) ∧
    (∀ (ch : Nat) (l : List Meas), l.length = 64 → (∀ m : Meas, m ∈ l → m.sat = false ∧ 0 ≤ m.code) →
      injWork s k = false →
      (s.isu.cal = some ⟨1, k, ch, false⟩ → exec (.isuCalDone l) s = .next { s with isu := { s.isu with
        cal := none, calRes := 1,
        zeroSum := tset none s.isu.zeroSum (k * 16 + ch) (some ((l.map fun m : Meas => m.code).sum).toNat) } }) ∧
      (∀ sz : Nat, let d : Int := (((l.map fun m : Meas => m.code).sum).toNat : Int) - sz
        let co : CalCoef := ⟨true, sz, d, rfld s 0x32 0x58 15 0, rfld s 0x32 0x58 31 16⟩
        s.isu.cal = some ⟨2, k, ch, false⟩ → tget none s.isu.zeroSum (k * 16 + ch) = some sz →
        rfld s 0x32 0x58 15 0 < rfld s 0x32 0x58 31 16 →
        4194304 ≤ 100 * d →
        exec (.isuCalDone l) s = .next { s with
          isu := { s.isu with cal := none, calRes := 2 }
          nv := { s.nv with isuCoef := tset CalCoef.zero s.nv.isuCoef (k * 16 + ch) co } }))

/-- A PWR_REQ for a deeper state that is not refused waits as the pending entry; one for the present state, with no exit under
way, drops a pending entry; a refused one sets ENTRY_REFUSED (bit 8) alone; one for a shallower state starts an exit toward
it. A pending READY, DOZE, NAP or SLEEP whose conditions are met is entered: PSTATE reads it, the leaving of RUN is noted with
its TB, NAP and SLEEP gate every die in service and keep TB, the weights, the fuses and package memory, and SLEEP takes D3 off
with no frame open and the interlock's trip state kept; VIGIL keeps TB, the weights, the fuses and the trip state, and leaves
no ring and no request. A trigger that applies starts an exit to RUN, counted at 0x68; a ready exit ends with PSTATE at its
target. PWR_DIE_RESTART makes a named die that is THERMAL_OFF or LEFT_OUT wait for its bring-up, powered where the power state
has the dies on and gated elsewhere, and leaves any other as it is. That the exit counts as it starts, that PSTATE_ENTRY
stands for the handshake before VIGIL, and that a restart is kept while the domains are off, are the model's (log 18). -/
def Obligations.PowerRequests : Prop :=
  ∀ s : State, Settled s →
    (answers s 0x40 = true → s.pwr.exitTo = none → ∀ w : W32,
      let t := PState.ofCode (fld w 2 0)
      let r := rset s 0x40 0x40 (put 2 0 t.code)
      (s.pwr.st.code < t.code → entryRefused s t = false → exec (.pwrReqWrite (whole w)) s =
        .next (answer { r with pwr := { s.pwr with entry := some t } } .posted [])) ∧
      (s.pwr.st.code < t.code → entryRefused s t = true → exec (.pwrReqWrite (whole w)) s =
        .next (answer (noted s 0x40 8 0) .posted [])) ∧
      (t = s.pwr.st → exec (.pwrReqWrite (whole w)) s =
        .next (answer { r with pwr := { s.pwr with entry := none } } .posted [])) ∧
      (t.code < s.pwr.st.code → ∃ u, exec (.pwrReqWrite (whole w)) s = .next u ∧ u.pwr.exitTo = some t ∧ u.pwr.entry = none ∧
        (rget u 0x40 0x68).toNat = min ((rget s 0x40 0x68).toNat + 1) 0xFFFFFFFF)) ∧
    (∀ t, s.pwr.entry = some t → s.pwr.exitTo = none → mayEnter s t = true →
      (t = .ready ∨ t = .doze → exec .pstateEntry s = .next { s with pwr := { s.pwr with
        st := t, entry := none, ranAt := if s.pwr.st = .run then s.belv.tb else s.pwr.ranAt } }) ∧
      (t = .nap ∨ t = .sleep → ∃ u, exec .pstateEntry s = .next u ∧ u.pwr.st = t ∧ u.pwr.entry = none ∧
        (∀ d, d < s.part.member.dies → dieUp s d = true → (dieAt u d).st = .gated ∧ (dieAt u d).up = false) ∧
        u.weights = s.weights ∧ u.otp = s.otp ∧ u.pkgMem = s.pkgMem ∧ u.belv.tb = s.belv.tb ∧
        u.isu.tripped = s.isu.tripped ∧
        (t = .sleep → u.pwr.d3off = true ∧ ∀ n, (streamAt u n).isOpen = false)) ∧
      (t = .vigil → ∃ u, exec .pstateEntry s = .next u ∧ u.pwr.st = .vigil ∧ u.belv.tb = s.belv.tb ∧
        u.weights = s.weights ∧ u.otp = s.otp ∧ u.isu.tripped = s.isu.tripped ∧ u.rings = [] ∧ u.reqs = [])) ∧
    (∀ g, s.pwr.exitTo = none → s.pwr.held = false → triggers s g = true → ∃ u, exec (.pstateExit g) s = .next u ∧
      u.pwr.exitTo = some .run ∧ u.pwr.st = s.pwr.st ∧
      (rget u 0x40 0x68).toNat = min ((rget s 0x40 0x68).toNat + 1) 0xFFFFFFFF) ∧
    (∀ t, s.pwr.exitTo = some t → exitReady s = true → s.pwr.resetAfter = 0 → s.bus.waiting = [] →
      ∃ u, exec .pstateExitDone s = .next u ∧ u.pwr.st = t ∧ u.pwr.exitTo = none ∧ u.pwr.entry = s.pwr.entry ∧
        u.pwr.d3off = s.pwr.d3off ∧ u.dies = s.dies ∧ u.regs = s.regs) ∧
    (∀ d, answers s 0x40 = true → d < s.part.member.dies →
      ((dieAt s d).st = .thermalOff ∨ (dieAt s d).st = .leftOut → exec (.pwrDieRestart (whole (put d d 1))) s = .next (answer
        (putDie s d { dieAt s d with
          st := if diesOn s then .on else .gated, restart := true, resetsAt := [], retained := false }) .posted [])) ∧
      ((dieAt s d).st ≠ .thermalOff → (dieAt s d).st ≠ .leftOut →
        exec (.pwrDieRestart (whole (put d d 1))) s = .next (answer s .posted [])))

/-- A first warning of a Pavilion monitor of a domain that is on sets its live bit and its sticky bit, and is counted at 0x5C; one
of a die in service does so in the die's page, counted at 0x50. A cleared warning clears the live bit, and after a die's last
one its writes hold for SUP_HOLD ms; the hold's end changes nothing else. A reset crossing of V_ISU returns the ports to reset
but for the line positions, and the ISU but for the trip state, and changes no die's service; one of a die in service takes it
off, left out at the fourth within 60 s, with the weights kept; one of V_AUX or V_IO, or the loss of SYSCLK, holds the module
with TB at 0 and the weights and fuses kept, a crossing of V_AUX loses the interlock's trip state, and a hold by a supply
stays under a loss of SYSCLK; SYSCLK's return begins a start with step 0x01 and cause 2 exactly where no supply holds the
module. A die that its reset or restart left waiting rejoins, once the power state has the dies on and, after a supply reset
or a failed return from NAP or SLEEP, its warnings are cleared, and the microcode verifies. That the losses hold the module
with all volatile state lost is the model's choice (log 18). -/
def Obligations.Supplies : Prop :=
  ∀ s : State, Settled s →
    (∀ m b, supplyPlace m = .inl b → s.pwr.live.getLsbD b = false → unmonitored s b = false →
      ∃ t, exec (.supplyWarning m) s = .next t ∧ t.pwr.live.getLsbD b = true ∧ bit (rget t 0x40 0x18) b = true ∧
        (rget t 0x40 0x5C).toNat = min ((rget s 0x40 0x5C).toNat + 1) 0xFFFFFFFF ∧ t.weights = s.weights) ∧
    (∀ m d b, supplyPlace m = .inr (d, b) → d < s.part.member.dies → (dieAt s d).st = .on → (dieAt s d).up = true →
      (dieAt s d).warn.getLsbD b = false → ∃ t, exec (.supplyWarning m) s = .next t ∧ (dieAt t d).warn.getLsbD b = true ∧
        bit (rget t (pgDie d) 0x18) b = true ∧
        (rget t (pgDie d) 0x50).toNat = min ((rget s (pgDie d) 0x50).toNat + 1) 0xFFFFFFFF) ∧
    (∀ m b, supplyPlace m = .inl b → s.pwr.live.getLsbD b = true →
      let p : Pwr := { s.pwr with live := s.pwr.live &&& ~~~(1#5 <<< b) }
      (b ≠ 0 → exec (.supplyWarningClear m) s = .next { s with pwr := p }) ∧
      ∃ t, exec (.supplyWarningClear m) s = .next t ∧ t.pwr = p ∧ t.regs = s.regs ∧ t.weights = s.weights) ∧
    (∀ m d b, supplyPlace m = .inr (d, b) → (dieAt s d).warn.getLsbD b = true →
      let x := { dieAt s d with warn := (dieAt s d).warn &&& ~~~(1#2 <<< b) }
      exec (.supplyWarningClear m) s = .next (putDie s d (if x.warn = 0 ∧ s.pwr.live.getLsbD 0 = false then
        { x with holdTill := some (s.belv.tb + rfld s (pgPrg0 d) 0x40 23 16 * 1000000) } else x))) ∧
    (∀ d t, (dieAt s d).holdTill = some t → t ≤ s.belv.tb →
      exec (.supHoldEnd d) s = .next (putDie s d { dieAt s d with holdTill := none })) ∧
    (s.pwr.d3off = false → s.pwr.held = false → tabOk (fun _ => Die.zero) s.dies = true →
      tabOk (fun _ => Stream.zero) s.streams = true → ∃ t, exec (.supplyReset .visu) s = .next t ∧
      (∀ n, let x := streamAt s n
        streamAt t n = { Stream.zero with frame := x.frame, line := x.line, stamp := x.stamp, endStamp := x.endStamp }) ∧
      t.isu = { Isu.zero with tripped := s.isu.tripped, byPlaus := s.isu.byPlaus, watchNo := s.isu.watchNo } ∧
      (∀ d, (dieAt t d).st = (dieAt s d).st ∧ (dieAt t d).up = (dieAt s d).up) ∧ t.weights = s.weights) ∧
    (∀ m d b, supplyPlace m = .inr (d, b) → d < s.part.member.dies → (dieAt s d).st = .on →
      ∃ t, exec (.supplyReset m) s = .next t ∧ (dieAt t d).up = false ∧ (dieAt t d).warn.getLsbD b = true ∧
        t.weights = s.weights ∧ (dieAt t d).st = (if 3 ≤ ((dieAt s d).resetsAt.filter fun x =>
          decide ((s.belv.tb : Int) < x + 60000000000)).length then .leftOut else .supplyReset)) ∧
    (∀ m, m = .vaux ∨ m = .vio → ∃ t, exec (.supplyReset m) s = .next t ∧ t.pwr.held = true ∧
      t.pwr.resetBy = some (s.pwr.resetBy.getD m) ∧ t.pwr.noClk = s.pwr.noClk ∧
      t.isu.tripped = (if m = .vaux then false else s.isu.tripped) ∧ t.belv.tb = 0 ∧ t.weights = s.weights ∧ t.otp = s.otp ∧ t.reqs = []) ∧
    (∃ t, exec .sysclkLoss s = .next t ∧ t.pwr.held = true ∧ t.pwr.noClk = true ∧ t.pwr.resetBy = s.pwr.resetBy ∧ t.belv.tb = 0 ∧
      t.weights = s.weights ∧ t.otp = s.otp ∧ t.reqs = []) ∧
    (s.pwr.noClk = true → s.pwr.resetBy.isSome = true →
      exec .sysclkReturn s = .next { s with pwr := { s.pwr with noClk := false } }) ∧
    (s.pwr.noClk = true → s.pwr.resetBy = none → ∃ t, exec .sysclkReturn s = .next t ∧ t.pwr.held = false ∧
      t.boot.active = true ∧ t.boot.begun = 1 ∧ t.boot.cause = 2 ∧ t.weights = s.weights ∧ t.otp = s.otp) ∧
    (∀ d, d < s.part.member.dies → s.boot.safe = false → s.boot.ready = true → diesOn s = true → (dieAt s d).up = false →
      ((dieAt s d).st = .supplyReset ∧ (dieAt s d).warn = 0) ∨
        ((dieAt s d).st = .on ∧ ((dieAt s d).fell = true → (dieAt s d).warn = 0)) →
      (tryImage s (running s) true).1 = true →
      ∃ t, exec (.dieRejoin d) s = .next t ∧ dieUp t d = true ∧ t.weights = s.weights ∧ t.hostMem = s.hostMem)

/-- Rounds are due 1 ms apart; a round that is not due changes nothing. A due round of a die in service below T_CRIT, with no
restart and no earlier trip round, keeps the die in service, stores the reading, the slope and the two supply codes in HK,
counts the round at 0x50, and sets HOT from the threshold and its 2 K hysteresis. A due round at T_CRIT or above takes the die
off with a shutdown record of the reading, its TB and cause, counted in 0x64 and flagged DIE_OFF (bit 5), and keeps the
weights. A due reading of the Pavilion below T_CRIT is stored, marks it hot and sets bit 6 from T_WARN on, and changes no die;
at T_CRIT the module enters VIGIL with the link down and a record of cause 3. -/
def Obligations.ThermalSupervision : Prop :=
  ∀ s : State, Settled s →
    (∀ (d : Nat) (temp : Int) (vc va : Nat), d < s.part.member.dies → (dieAt s d).st = .on → (dieAt s d).up = true →
      (∀ n, (dieAt s d).hkNext = some n → s.belv.tb < n → exec (.housekeepingRound d temp vc va true) s = .next s) ∧
      (roundDue (dieAt s d).hkNext s.belv.tb = true → temp < tCrit → (dieAt s d).restart = false → (dieAt s d).trips = 0 →
        ∃ t, exec (.housekeepingRound d temp vc va true) s = .next t ∧ (dieAt t d).st = .on ∧ (dieAt t d).up = true ∧
          (dieAt t d).lastTemp = temp ∧ (dieAt t d).temps = (temp :: (dieAt s d).temps).take 72 ∧
          (dieAt t d).slope = slopeOf ((temp :: (dieAt s d).temps).take 72) ∧
          rget t (pgHk d) 0x44 = put16 ((dieAt t d).slope / 64) ∧
          (∃ n, (dieAt t d).hkNext = some n ∧ s.belv.tb < n) ∧ rget t (pgHk d) 0x40 = put16 temp ∧ rget t (pgHk d) 0x48 = put 15 0 vc ∧ rget t (pgHk d) 0x4C = put 15 0 va ∧
          (rget t (pgHk d) 0x50).toNat = min ((rget s (pgHk d) 0x50).toNat + 1) 0xFFFFFFFF ∧
          ((dieAt t d).hot = true ↔ tWarn s ≤ temp ∨ ((dieAt s d).hot = true ∧ tWarn s - 32 ≤ temp)) ∧
          t.weights = s.weights ∧ t.nv = s.nv) ∧
      (roundDue (dieAt s d).hkNext s.belv.tb = true → tCrit ≤ temp → ∃ t r, exec (.housekeepingRound d temp vc va true) s = .next t ∧ (dieAt t d).st = .thermalOff ∧
        (dieAt t d).up = false ∧ t.nv.logs = (r :: s.nv.logs).take 16 ∧ r.tb = s.belv.tb ∧ r.die = d ∧ r.temp = temp ∧
        (r.cause = 2 ∨ (r.cause = 4 ∧ (dieAt s d).restart = true)) ∧ t.weights = s.weights ∧
        bit (rget t 0x40 0x18) 5 = true ∧ (rget t 0x40 0x64).toNat = min ((rget s 0x40 0x64).toNat + 1) 0xFFFFFFFF)) ∧
    (∀ temp : Int, s.pwr.held = false → s.pwr.st ≠ .vigil → roundDue s.pwr.pavNext s.belv.tb = true →
      (temp < tCrit → ∃ t, exec (.pavilionTempRead temp) s = .next t ∧ rget t 0x40 0x50 = put16 temp ∧
        (t.pwr.pavHot = true ↔ tWarn s ≤ temp) ∧ (tWarn s ≤ temp → bit (rget t 0x40 0x18) 6 = true) ∧
        t.dies = s.dies ∧ t.nv = s.nv ∧ t.reqs = s.reqs) ∧
      (tCrit ≤ temp → ∃ t r, exec (.pavilionTempRead temp) s = .next t ∧ t.pwr.st = .vigil ∧ t.bus.linkUp = false ∧
        t.nv.logs = (r :: s.nv.logs).take 16 ∧ r.cause = 3 ∧ r.die = 15 ∧ r.temp = temp ∧ t.weights = s.weights ∧
        ∀ d, d < s.part.member.dies → dieUp t d = false))

/-- With SYSCLK present, POWER_ON_RESET begins a start with step 0x01, TB 0, no rings and no requests, cause 1 (2 where the module
was held), and keeps the weights and fuses; with SYSCLK absent it only ends the hold by a supply. SYS_RST# begins one with
cause 0, TB going on and, but from VIGIL, package memory kept. PERST# and a hot reset in RUN, READY or DOZE take the link
down, and they and an FLR empty the rings and requests, note their code in SYS_RESET_CAUSE, and keep TB, the weights and the
fuses; PERST# released changes its pin and the instant kept of it, and no register, die or timebase, and an FLR's end changes
nothing but its mark. A step that ended without a failed part is recorded as ended and the next one begins; a failed one is
not, and in steps 0x05 and 0x06 the lowest failed die is recorded. A step over its limit begins a start with cause 3, RETRY in
safe boot one with cause 5, and BOOT_DIE_RESET takes each named die in service through a reset with the weights kept. That a
failed part is told by BOOT_STEP_END, and then does not end the step, is the model's choice (log 19). -/
def Obligations.BootAndResets : Prop :=
  ∀ s : State, Settled s →
    (s.pwr.noClk = true → exec .powerOnReset s = .next { s with pwr := { s.pwr with resetBy := none } }) ∧
    (s.pwr.noClk = false → ∃ t, exec .powerOnReset s = .next t ∧ t.boot.active = true ∧ t.boot.begun = 1 ∧ t.nv.begun = 1 ∧
      t.boot.cause = (if s.pwr.held then 2 else 1) ∧ t.boot.rstLast = 1 ∧ t.boot.rstCount = 0 ∧ t.belv.tb = 0 ∧ t.rings = [] ∧
      t.reqs = [] ∧ t.weights = s.weights ∧ t.otp = s.otp) ∧
    (s.pwr.held = false → ∃ t, exec .sysRst s = .next t ∧ t.boot.active = true ∧ t.boot.begun = 1 ∧ t.boot.cause = 0 ∧
      t.boot.rstLast = 2 ∧ t.belv.tb = s.belv.tb ∧ t.rings = [] ∧ t.reqs = [] ∧ t.weights = s.weights ∧ t.otp = s.otp ∧
      (s.pwr.st ≠ .vigil → t.pkgMem = s.pkgMem)) ∧
    (s.pwr.held = false → s.pwr.st = .run ∨ s.pwr.st = .ready ∨ s.pwr.st = .doze →
      let hostSide := fun (t : State) (last : Nat) => t.rings = [] ∧ t.reqs = [] ∧ t.boot.rstLast.toNat = last ∧
        t.belv.tb = s.belv.tb ∧ t.weights = s.weights ∧ t.otp = s.otp
      (s.pwr.entry ≠ some .vigil → ∃ t, exec .perstAssert s = .next t ∧ hostSide t 3 ∧ t.bus.perst = true ∧
        t.bus.linkUp = false) ∧
      (∃ t, exec .hotReset s = .next t ∧ hostSide t 4 ∧ t.bus.perst = s.bus.perst ∧ t.bus.linkUp = false) ∧
      (∃ t, exec .flr s = .next t ∧ hostSide t 5 ∧ t.bus.linkUp = s.bus.linkUp ∧ t.bus.flr = true)) ∧
    (s.pwr.st ≠ .vigil → ∃ t, exec .perstDeassert s = .next t ∧ t.bus = { s.bus with perst := false, perstAt := s.belv.tb } ∧
      t.regs = s.regs ∧ t.dies = s.dies ∧ t.belv = s.belv) ∧
    (exec .flrComplete s = .next { s with bus := { s.bus with flr := false } }) ∧
    (s.boot.active = true → s.boot.relink = none → s.pwr.held = false → stepReady s s.boot.begun = true →
      safeStart s = false → s.boot.begun ≤ 0x0C →
      (s.boot.begun ≠ 3 ∨ (tryImage s (imageOf s s.nv.prefer) false).1 = true →
        s.boot.begun ≠ 7 ∨ (tryImage s (running s) true).1 = true → ∃ t, exec (.bootStepEnd ⟨true, []⟩) s = .next t ∧
        t.boot.ended = s.boot.begun ∧ t.nv.ended = s.boot.begun ∧
        (s.boot.begun = 0x0C → t.boot.ready = true ∧ t.boot.active = false ∧ t.nv.failRun = 0) ∧
        (s.boot.begun ≠ 0x0C → t.boot.begun = stepAfter s s.boot.begun ∧ t.nv.begun = t.boot.begun ∧ t.boot.active = true)) ∧
      (exec (.bootStepEnd ⟨false, []⟩) s = .next s) ∧
      (∀ d e, (s.boot.begun = 5 ∨ s.boot.begun = 6) → d < e → e < s.part.member.dies → (dieAt s d).st = .on →
        (dieAt s e).st = .on → exec (.bootStepEnd ⟨true, [e, d]⟩) s = .next { s with nv := { s.nv with die := some d } })) ∧
    (s.boot.active = true → s.pwr.held = false → s.boot.begun ≠ 4 →
      s.boot.stepAt + stepLimit s.boot.begun * 1000000 ≤ s.belv.tb → ∃ t, exec .bootWatchdog s = .next t ∧
      t.boot.active = true ∧ t.boot.begun = 1 ∧ t.boot.cause = 3 ∧ t.belv.tb = 0 ∧ t.weights = s.weights ∧ t.otp = s.otp) ∧
    (answers s 0x08 = true → s.boot.safe = true → ∃ t, exec (.bootRetry (whole 1)) s = .next t ∧ t.boot.active = true ∧
      t.boot.begun = 1 ∧ t.boot.cause = 5 ∧ t.boot.safe = false ∧ t.weights = s.weights) ∧
    (∀ d, answers s 0x08 = true → s.boot.ready = true → d < 16 → dieUp s d = true →
      tabOk (fun _ => Die.zero) s.dies = true →
      ∃ t, exec (.bootDieReset (whole (put d d 1))) s = .next t ∧ (dieAt t d).st = .on ∧ (dieAt t d).up = false ∧
        t.weights = s.weights ∧ ∀ e, e ≠ d → (dieAt t e).st = (dieAt s e).st ∧ (dieAt t e).up = (dieAt s e).up)

/-- Each instruction of the test access port is in force after it, by its code, and selects its data register: EXTEST and
SAMPLE/PRELOAD the boundary register with the pins' levels, IDCODE the identity, CLAMP, HIGHZ and BYPASS the bypass register
with 0, and DBG the debug path above debug level 0 and the bypass register at it. EXTEST, CLAMP and HIGHZ suspend the module's
own drive of the pins and take the strobes low, and Test-Logic-Reset selects IDCODE and ends the suspension. The others change
nothing else of the module, and EXTEST, CLAMP and HIGHZ no setpoint output, register of a ring, request, weight or trip state.
The level of the board's pins and what the debug path shows are free (log 11); that the boundary register captures as the
instruction takes force is the model's choice (log 37). Out of VIGIL, before step 0x04 has ended and during an FLR a
configuration request is answered with CRS and changes nothing; after, a read of register 0 answers the device ID over the
vendor ID, and a write of the first BAR stores its base, bits [31:24], and nothing else. That the device and vendor ID stand
in register 0, and the first BAR at 0x10, is presumed from the PCI Express layout (log 26). A read that hits no BAR is
answered Unsupported Request, and a write is discarded. A poisoned write is dropped and reported. A host-read error of a
running ring with a read outstanding puts it in FAULT, of a request in flight fails it with INTERNAL, is counted at 0x6C with
bit 4 set, and is reported. -/
def Obligations.TestPortAndErrors : Prop :=
  (∀ s : State, Settled s →
     let out := fun (t : State) => t.tap.suspended = true ∧ (∀ n, n < 4 → (stbAt t n).high = false) ∧ t.isu.dac = s.isu.dac ∧
       t.isu.tripped = s.isu.tripped ∧ t.rings = s.rings ∧ t.reqs = s.reqs ∧ t.weights = s.weights ∧ t.bus = s.bus
     let cells := boundaryCapture s (Config.freeWord s.free)
     (∃ t, exec .tapExtest s = .next t ∧ t.tap = ⟨0, .boundary, cells, true⟩ ∧ out t) ∧
     (exec .tapSamplePreload s = .next { s with free := s.free + 1, tap := ⟨1, .boundary, cells, s.tap.suspended⟩ }) ∧
     (exec .tapIdcode s = .next { s with tap := ⟨2, .identity, idcode s, s.tap.suspended⟩ }) ∧
     (∃ t, exec .tapClamp s = .next t ∧ t.tap = ⟨3, .bypass, 0, true⟩ ∧ out t) ∧
     (∃ t, exec .tapHighz s = .next t ∧ t.tap = ⟨4, .bypass, 0, true⟩ ∧ out t) ∧
     (s.sec.level = 0 → exec .tapDbg s = .next { s with tap := ⟨0x10, .bypass, 0, s.tap.suspended⟩ }) ∧
     (s.sec.level ≠ 0 → exec .tapDbg s = .next { s with
       free := s.free + 1, tap := ⟨0x10, .debug, Config.freeWord s.free, s.tap.suspended⟩ }) ∧
     (exec .tapBypass s = .next { s with tap := ⟨0x1F, .bypass, 0, s.tap.suspended⟩ }) ∧
     exec .tapReset s = .next { s with tap := ⟨2, .identity, idcode s, false⟩ }) ∧
  (∀ s : State, Settled s →
     (s.bus.perst = false → s.pwr.held = false → inVigil s = false →
       (∀ w reg d, s.bus.linkUp = false ∨ s.bus.flr = true → exec (.configRequest w reg d) s = .next (answer s .crs [])) ∧
       (s.bus.linkUp = true → s.bus.flr = false →
         (exec (.configRequest false 0 0) s = .next (answer { s with free := s.free + 1 } .ok
           [put 31 16 s.part.member.deviceId ||| put 15 0 s.part.vendorId.toNat])) ∧
         (∀ d, exec (.configRequest true 0x10 d) s =
           .next (answer { s with bus := { s.bus with bars := tset 0 s.bus.bars 0x10 (d &&& 0xFF000000) } } .ok [])))) ∧
     (s.bus.linkUp = true → s.pwr.held = false → exec (.unsupportedRequest false none) s = .next (answer s .ur []) ∧
       exec (.unsupportedRequest true none) s = .next (answer s .posted [])) ∧
     (∀ b a, linkOpen s = true → exec (.poisonedWrite b a) s =
       .next { answer s .posted [] with bus := { (answer s .posted []).bus with aer := s.bus.aer ++ [.poisonedWrite b a] } }) ∧
     (∀ n, (ringAt s n).st = .running → ((ringAt s n).posted.any fun p => !p.isRead) = true →
       exec (.hostReadError (.ring n)) s = .next (noted (count (putRing
         { s with bus := { s.bus with aer := s.bus.aer ++ [.hostRead (.ring n)] } } n { ringAt s n with st := .fault })
         0x90 0x6C 1) 0x90 4 n)) ∧
     (∀ id q, reqAt s id = some q → q.phase ≠ .finished → ∃ t, exec (.hostReadError (.req id)) s = .next t ∧
       t.bus.aer = s.bus.aer ++ [.hostRead (.req id)] ∧ bit (rget t 0x90 0x18) 4 = true ∧
       (∃ r, reqAt t id = some r ∧ r.phase = .finished ∧ r.status = some (q.status.getD 0x7F)) ∧
       (rget t 0x90 0x6C).toNat = min ((rget s 0x90 0x6C).toNat + 1) 0xFFFFFFFF))

/-- On a port that receives and a stream that is enabled: a frame start with no frame open opens one with the next frame number,
line 0 and the TB as stamp, and writes the number and the TB into the frame's record; a frame end closes the open frame with
the TB as its end stamp; an image line of the right length and CRC, with no limit reached, lands whole at the next line's
address and becomes the position, at once or with its line end packet under LSLE; a line start or line end packet stamps the
line that waits, which a line start packet counts as a missed line end, and changes nothing without one; and a header of these
that was corrected is counted at 0x44. A header that cannot be corrected is counted at 0x48 and flagged. The stripe at the
front of those due is taken when the Pavilion may begin a transfer to its dies and no landing slot there holds an older block,
and begins one where it has dies and every one of them can be reached. A stream with no frame for 1.5 PERIOD is LOST with no
frame open, and is counted. EN rises only with a geometry that is not refused: with a width or height of 0 it changes nothing
but CFG_REFUSED. A read of BLV_POS answers the position and latches its stamp. That a rise of EN clears LOST and FROZEN is the
model's reading (log 25), and that the older block still holds its landing slot is too (log 24). -/
def Obligations.CameraFrames : Prop :=
  ∀ (s : State) (n : Nat), Settled s → n < 32 →
    let x := streamAt s n
    (portOn s (n / 4) = true → camEn s n = true →
      (x.isOpen = false → ∃ t, exec (.frameStart n false) s = .next t ∧ (streamAt t n).isOpen = true ∧
        (streamAt t n).frame = x.frame + 1 ∧ (streamAt t n).line = 0 ∧ (streamAt t n).lines = 0 ∧
        (streamAt t n).stamp = s.belv.tb ∧ (streamAt t n).startTb = s.belv.tb ∧ (streamAt t n).lost = false ∧
        bytesAt t.pkgMem (slotBase s n (x.frame + 1).toNat) 2 = leBytes 2 (x.frame + 1).toNat ∧
        bytesAt t.pkgMem (slotBase s n (x.frame + 1).toNat + 8) 8 = leBytes 8 s.belv.tb) ∧
      (x.isOpen = true → ∃ t, exec (.frameEnd n false) s = .next t ∧ (streamAt t n).isOpen = false ∧
        (streamAt t n).endStamp = s.belv.tb ∧ (streamAt t n).endFrame = some x.frame ∧ (streamAt t n).frame = x.frame) ∧
      (x.isOpen = true → x.pendLine = none → rateLimited s n = false → x.lines < camH s n →
        ∀ l : List Byte, l.length = camB s n → camDt s n ≠ 0x12 →
        ∃ t, exec (.longPacket ⟨n, BitVec.ofNat 6 (camDt s n), l, true, false⟩) s = .next t ∧
          (streamAt t n).lines = x.lines + 1 ∧ (streamAt t n).bad = x.bad ∧ (streamAt t n).lastEnd = some s.belv.tb ∧
          t.pkgMem = putBytes s.pkgMem (lineAddr s n x.frame.toNat x.lines) l ∧
          (camLsle s n = true → (streamAt t n).pendLine = some x.lines ∧ (streamAt t n).stamp = x.stamp) ∧
          (camLsle s n = false → (streamAt t n).line = BitVec.ofNat 16 (x.lines + 1) ∧ (streamAt t n).stamp = s.belv.tb)) ∧
      (∀ fixed : Bool, let u := if fixed then count s (camPage n) 0x44 1 else s
        let stamped := fun (t : State) (l : Nat) => (streamAt t n).pendLine = none ∧
          (streamAt t n).line = BitVec.ofNat 16 (l + 1) ∧ (streamAt t n).stamp = s.belv.tb ∧ t.pkgMem = s.pkgMem ∧
          rget t (camPage n) 0x44 = rget u (camPage n) 0x44
        (x.pendLine = none → exec (.lineStartPacket ⟨n, fixed⟩) s = .next u ∧ exec (.lineEndPacket ⟨n, fixed⟩) s = .next u) ∧
        (∀ l, x.pendLine = some l →
          (∃ t, exec (.lineStartPacket ⟨n, fixed⟩) s = .next t ∧ stamped t l ∧ (rget t (pgCam1 (n / 4)) (camCnt n 6)).toNat =
            min ((rget s (pgCam1 (n / 4)) (camCnt n 6)).toNat + 1) 0xFFFFFFFF) ∧
          (∃ t, exec (.lineEndPacket ⟨n, fixed⟩) s = .next t ∧ stamped t l ∧
            rget t (pgCam1 (n / 4)) (camCnt n 6) = rget s (pgCam1 (n / 4)) (camCnt n 6)))) ∧
      (camPeriod s n ≠ 0 → x.lost = false → x.watchAt + camPeriod s n * 3 / 2 ≤ s.belv.tb →
        ∃ t, exec (.streamLost n) s = .next t ∧ (streamAt t n).lost = true ∧ (streamAt t n).isOpen = false ∧
          (streamAt t n).stamp = x.stamp ∧ (rget t (pgCam1 (n / 4)) (camCnt n 2)).toNat =
            min ((rget s (pgCam1 (n / 4)) (camCnt n 2)).toNat + 1) 0xFFFFFFFF)) ∧
    (∀ p, portOn s p = true → (∀ l, exec (.hdrUe p l) s = .next (noted (count s (pgCam0 p) 0x48 1) (pgCam0 p) 0 0)) ∧
      exec (.dataLanesLeaveLp11 p) s = .next { s with lp11 := tset false s.lp11 p true }) ∧
    (∀ d l, x.due = d :: l →
      let dies := (destsOf s n ++ d.bound.map fun e => (recAt (manOf s e.1) e.2).die).dedup
      mayTransfer s 16 dies = true → (d.bound.any fun e => stripeHeld s n d e.1 e.2) = false → ∃ t, exec (.stripePush n d.stripe) s = .next t ∧ (streamAt t n).due = l ∧
        t.pkgMem = s.pkgMem ∧ (dies ≠ [] → lostDests s 16 dies = [] → t.nextXfer = s.nextXfer + 1)) ∧
    (answers s (camPage n) = true → camEn s n = false → ∀ w : W32, w &&& 0x7FFFF700 = 0 → bit w 31 = true → fld w 7 6 ≠ 3 →
      (enRefused s n w = false → exec (.camStreamEnable n (whole w)) s = .next (answer (rset
        (putStream s n { x with watchAt := s.belv.tb, lost := false, frozen := false }) (camPage n) (0x60 + camOff n)
        ((rget s (camPage n) (0x60 + camOff n) &&& 0x7FFFF700) ||| w)) .posted [])) ∧
      (camW s n = 0 ∨ camH s n = 0 → exec (.camStreamEnable n (whole w)) s =
        .next (answer (noted s (camPage n) 2 (n % 4)) .posted []))) ∧
    (answers s 0x11 = true → ∃ t, exec (.blvPosRead n 15) s = .next t ∧
      t.bus.data = [put 31 16 x.frame.toNat ||| put 15 0 x.line.toNat] ∧ rget64 t 0x11 (0x44 + 12 * n) = x.stamp % 2 ^ 64 ∧
      t.streams = s.streams)

/-- OWNER_ENROL, OWNER_REVOKE and ODFEN_REVOKE change one key slot, and DBG_UNLOCK the debug level and the challenge with
DBG_UNLOCKED (bit 2 of SEC0) set, exactly where the signed command passes every check of R390 and meets its acceptance
condition; else they change no key slot and no level, and SEC_CMD_STAT reads refused with the reason. FW_STAGE stores the
image in the named slot, prefers it and resets FAIL_RUN, exactly where both components verify and the slot is not the running
image's. ROLLBACK_COMMIT raises the named version number to what runs and no other, and is refused with reason 0x10 in safe
boot, before READY, or for an ARG above 2. A new challenge is drawn; a relock returns the level to 0 and discards the
challenge; a read of SEC_ID_DATA answers the selected word and advances INDEX. While debug is open a write of CDBG_CTRL stores
HALT, and a step of a halted core with a program marks one step; a read of CDBG_DATA answers the word that CDBG_SEL selects
and advances its INDEX. While debug is closed the write changes nothing but ACCESS, and the read answers 0. While a command is
BUSY, each of the six changes nothing but CMD_BUSY (bit 1 of SEC0). That a command is BUSY until the next nanosecond, that it
is verified before its acceptance is judged, that reserved bytes of OWNER_ENROL and an ARG beyond its limit fail acceptance,
and that safe boot accepts either slot, are the model's (log 20). -/
def Obligations.SecurityAndDebug : Prop :=
  (∀ (s : State) (a : BitVec 8), Settled s → answers s 0x03 = true → s.sec.busy = true →
     let ignored : Host.Outcome State Fault Refusal := .next (answer (noted s 0x02 1 0) .posted [])
     exec (.fwStage a) s = ignored ∧ exec (.rollbackCommit a) s = ignored ∧ exec (.ownerEnrol a) s = ignored ∧
     exec (.ownerRevoke a) s = ignored ∧ exec (.odfenRevoke a) s = ignored ∧ exec (.dbgUnlock a) s = ignored) ∧
  (∀ s : State, Settled s → answers s 0x03 = true → s.sec.busy = false →
     (let outcome := fun (t : State) (kind : Nat) (ok : Signed → Bool) (slot : Signed → Nat) (new : Signed → KeySlot) =>
        let x := cmdObject s [kind] (cmdBytes s)
        let r := verifyReason s x
        t.sec.level = s.sec.level ∧ t.sec.result = (if r = 0 ∧ ok x = true then 1 else 2) ∧
        t.sec.reason = BitVec.ofNat 8 (if r ≠ 0 then r else if ok x then 0 else 0x10) ∧
        (∀ k, keyAt t k = if r = 0 ∧ ok x = true ∧ k = slot x then new x else keyAt s k) ∧
        t.otp.fw = s.otp.fw ∧ t.otp.ucode = s.otp.ucode ∧ t.otp.flacon = s.otp.flacon
      ∀ a : BitVec 8,
        (∃ t, exec (.ownerEnrol a) s = .next t ∧ outcome t 6
          (fun x => decide (x.arg ≤ 3) && (keyAt s (x.arg + 2)).st == 0 && zeros (slice x.body 0x39 3))
          (fun x => x.arg + 2) (fun x => ⟨1, Config.sha384 (slice x.body 0x3C 156)⟩)) ∧
        (∃ t, exec (.ownerRevoke a) s = .next t ∧ outcome t 7
          (fun x => decide (x.arg ≤ 3) && (activeOwners s).contains (x.arg + 2) && decide (1 < (activeOwners s).length))
          (fun x => x.arg + 2) (fun x => ⟨3, (keyAt s (x.arg + 2)).hash⟩)) ∧
        (∃ t, exec (.odfenRevoke a) s = .next t ∧ outcome t 8
          (fun x => decide (x.arg ≤ 1) && (keyAt s (1 - x.arg)).st == 1)
          (fun x => x.arg) (fun x => ⟨3, (keyAt s x.arg).hash⟩))) ∧
     (∀ a : BitVec 8, let x := cmdObject s [4, 5] (cmdBytes s)
       let r := verifyReason s x
       ∃ t, exec (.dbgUnlock a) s = .next t ∧ t.otp = s.otp ∧ t.sec.result = (if r = 0 then 1 else 2) ∧
         t.sec.reason = BitVec.ofNat 8 r ∧
         t.sec.level = (if r = 0 then BitVec.ofNat 2 (max s.sec.level.toNat (x.kind - 3)) else s.sec.level) ∧
         t.sec.chal = (if r = 0 then none else s.sec.chal) ∧ (r = 0 → bit (rget t 0x02 0x18) 2 = true)) ∧
     (∀ a : BitVec 8, let l := cmdBytes s
       let r := (verifyImage s l).1
       let ok : Prop := r = 0 ∧ a.toNat ≤ 1 ∧ (s.boot.safe = true ∨ (a == 1) ≠ s.boot.imageB)
       ∃ t, exec (.fwStage a) s = .next t ∧ t.otp = s.otp ∧
         (ok → t.sec.result = 1 ∧ t.nv.prefer = (a == 1) ∧ t.nv.failRun = 0 ∧ imageOf t (a == 1) = Image.ofBytes l ∧
           imageOf t (a != 1) = imageOf s (a != 1)) ∧
         (¬ ok → t.sec.result = 2 ∧ t.nv = s.nv)) ∧
     (∀ a : BitVec 8, (s.boot.safe = true ∨ s.boot.ready = false ∨ 2 < a.toNat → exec (.rollbackCommit a) s =
         .next (answer { s with sec := { s.sec with result := 2, reason := 0x10, busy := true } } .posted [])) ∧
       (s.boot.safe = false → s.boot.ready = true → a.toNat ≤ 2 → ∃ t, exec (.rollbackCommit a) s = .next t ∧
         t.sec.result = 1 ∧ t.otp.keys = s.otp.keys ∧
         t.otp.fw = (if a = 0 then max s.otp.fw (running s).fwSvn else s.otp.fw) ∧
         t.otp.ucode = (if a = 1 then max s.otp.ucode (running s).ucSvn else s.otp.ucode) ∧
         s.otp.flacon ≤ t.otp.flacon ∧ (a ≠ 2 → t.otp.flacon = s.otp.flacon))) ∧
     (answers s 0x05 = true → exec (.newChal (whole 1)) s = .next (answer { s with
         sec := { s.sec with chal := some (fit (Config.random32 s.free) 32) }, free := s.free + 1 } .posted []) ∧
       ∃ t, exec (.relock (whole 2)) s = .next t ∧ t.sec = { s.sec with level := 0, chal := none } ∧ t.otp = s.otp ∧
         ∀ c, c < 256 → halted t c = false) ∧
     (answers s 0x04 = true → exec (.secIdDataRead 15) s = .next (answer
       (rset s 0x04 0x40 (put 11 0 (rfld s 0x04 0x40 11 0 + 1))) .ok [idWord s (rfld s 0x04 0x40 11 0)]))) ∧
  (∀ (s : State) (d c : Nat), Settled s → d < 16 → c < 16 →
     let p := pgCdbg (d * 16 + c)
     answers s p = true →
       (gated s .cdbg 0x40 = false →
         (∀ w : W32, bit w 1 = false → exec (.cdbgHalt d c (whole w)) s = .next (answer (rset s p 0x40 (w &&& 1)) .posted [])) ∧
         (halted s (d * 16 + c) = true → (coreAt s (d * 16 + c)).vrun.isSome = true → exec (.cdbgStep d c (whole 3)) s =
           .next (answer (rset (putCore s (d * 16 + c) { coreAt s (d * 16 + c) with step := true }) p 0x40 1) .posted [])) ∧
         exec (.cdbgDataRead d c 15) s = .next (answer
           (rset s p 0x48 (ins (rget s p 0x48) 22 0 (rfld s p 0x48 22 0 + 1))) .ok [cdbgWord s (d * 16 + c)])) ∧
       (gated s .cdbg 0x40 = true →
         (∀ w : W32, exec (.cdbgHalt d c (whole w)) s = .next (answer (noted s p 0 0x40) .posted [])) ∧
         (∀ be : BitVec 4, exec (.cdbgDataRead d c be) s = .next (answer s .ok [0]))))

/-- An engine of an up die that may read, has no read pending and has a step staged: where the step's rows are not all zero, its
plate is selected and the budget grants it, it begins the step's first read. It is busy for 128 ns, and the read is in flight
with the charges of the plate's cells at its driven inputs and with the coefficients, the tolerance and the confidence limit
in force. Where another plate is selected it changes plate in 192 ns; an all-zero step is skipped in 16 ns; where the budget
is used up the engine waits as R373 counts it. From 145 ns after its start, the check of a read that is the oldest in flight
and not yet checked is decided by R75 from its eight reference codes, or counted as not made where E is out of range. From 256
ns after its start, a checked first read of a part with a saturated code, under policy 0 and at a depth below 2, is replaced
by the part's two halves; one with no saturated code and further reads to come has these placed, 2 ns later; and the last of a
part's further reads contributes every output by R170, and its saturation marks, to a step that has other parts left. The
codes are those of the charges and of measured departures from the ideal codes, which the commands carry (log 40). -/
def Obligations.EngineReads : Prop :=
  ∀ (s : State) (k : Nat), Settled s → k < 131072 →
    let e := engAt s k
    let cs := pgCstat (k / 512)
    (∀ x l, e.staged = x :: l → e.pend = [] → wantsRead s k e = true → (dieAt s (k / 8192)).up = true →
      let xs := x.x.take 64
      let zero := allZero (stepRec s x).inFmt xs
      (zero = true → ∃ t, exec (.readIntegrate k) s = .next t ∧ (engAt t k).freeAt = s.belv.tb + 16 ∧
        (engAt t k).flights = e.flights ∧ rget64 t cs 0x50 = (rget64 s cs 0x50 + 1) % 2 ^ 64) ∧
      (zero = false → e.sel ≠ x.plate → exec (.readIntegrate k) s =
        .next (count (putEng s k { e with sel := x.plate, freeAt := s.belv.tb + 192 }) cs 0x64 1)) ∧
      (zero = false → e.sel = x.plate → granted s k = true → ∃ t f, exec (.readIntegrate k) s = .next t ∧
        (engAt t k).flights = e.flights ++ [f] ∧ f.start = (s.belv.tb : Int) ∧ f.refs = none ∧
        f.charge = charges s (k * 512 + x.plate) ((xs.zipIdx).map fun y => (y.2, driven (stepRec s x).inFmt y.1)) ∧
        f.remap = (plateAt s (k * 512 + x.plate)).remap ∧ f.lim = rfld s (pgCal0 (k / 8192)) 0x44 15 8 ∧
        f.tol = rfld s (pgCal0 (k / 8192)) 0x44 3 0 ∧ (f.offs = e.coef.map fun c => c.off) ∧
        (f.gains = e.coef.map fun c => c.gain) ∧ (engAt t k).freeAt = s.belv.tb + 128 ∧ (engAt t k).staged = l ∧
        rget64 t cs 0x48 = (rget64 s cs 0x48 + 1) % 2 ^ 64) ∧
      (zero = false → e.sel = x.plate → granted s k = false →
        exec (.readIntegrate k) s = .next (noteWait s (k / 8192)))) ∧
    (∀ f l p r, e.flights = f :: l → tget none e.parts f.part = some p → tget none e.steps p.step = some r →
      let er := expectedRef (stepRec s r.step).inFmt (partRows r.step.x p)
      (∀ errs : List Int, f.refs = none → f.start + 145 ≤ s.belv.tb →
        let refs := refCodes p.range f.charge errs
        let bad := (failGroups f.tol p.range er [(refs, f.offs, f.gains)]).any id
        (refInRange p.range er = true → ∃ t, exec (.confidenceDecision k errs) s = .next t ∧
          (engAt t k).flights = { f with refs := some refs, failed := bad } :: l ∧
          (rget t cs 0x58).toNat = (if bad then min ((rget s cs 0x58).toNat + 1) 0xFFFFFFFF else (rget s cs 0x58).toNat)) ∧
        (refInRange p.range er = false → exec (.confidenceDecision k errs) s = .next (count (putEng s k
          { e with flights := { f with refs := some refs, failed := false } :: l }) cs 0x5C 1))) ∧
      (∀ (refs : List Meas) (errs : List Int), f.refs = some refs → f.start + 256 ≤ s.belv.tb →
        let codes := dataCodes p.range f.remap f.charge errs
        let q : PartSt := { p with reads := p.reads ++ [⟨codes, refs, f.offs, f.gains⟩] }
        let sat := codes.any fun c => c.sat
        let n := furtherReads (stepClass s r.step) f.failed
        (f.first = true → sat = true → (stepRec s r.step).satPol = 0 → p.depth < 2 →
          ∃ t, exec (.saturationDecision k errs) s = .next t ∧ (engAt t k).flights = l ∧
            (∀ h, h = 0 ∨ h = 1 → tget none (engAt t k).parts (e.nextId + h) =
              some { q with lo := p.lo + h * (p.cnt / 2), cnt := p.cnt / 2, depth := p.depth + 1, reads := [] }) ∧
            (engAt t k).pend = (e.pend.filter fun y => y.1 != f.part) ++
              [(e.nextId, s.belv.tb + 2), (e.nextId + 1, s.belv.tb + 2)] ∧
            (rget t cs 0x68).toNat = min ((rget s cs 0x68).toNat + 1) 0xFFFFFFFF) ∧
        (f.first = true → sat = false → n ≠ 0 → ∃ t, exec (.saturationDecision k errs) s = .next t ∧
          (engAt t k).flights = l ∧ tget none (engAt t k).parts f.part = some { q with want := 1 + n } ∧
          (engAt t k).pend = e.pend ++ List.replicate n (f.part, s.belv.tb + 2)) ∧
        (f.first = false → q.reads.length = p.want → 1 < r.left → ∃ t r', exec (.saturationDecision k errs) s = .next t ∧
          (engAt t k).flights = l ∧ tget none (engAt t k).steps p.step = some r' ∧ r'.left = r.left - 1 ∧
          r'.done = tins r.done p.lo ((List.range 64).map fun o => contribution p.range q.reads o,
            (List.range 64).map fun o => q.reads.any fun z => (z.codes.getD o ⟨0, false⟩).sat))))

/-- At the end of an engine's calibration, where all eight groups' results are accepted, no supply warning marked it and none is
live: the eight OFF and GAIN_CAL of R101 are in force, each group's check counters begin again, the engine bears the TB and
the die's last diode reading, its reject count is 0 and the calibration is counted at 0x60; the engine is due, stale and never
calibrated no more, where every CALIBRATE that still waits for it was dispatched before the calibration began. Where a warning
marked it or is live, or a group's results are not accepted, every OFF and gain stays, the engine stays as due as it was, its
reject count rises, up to 255, and 0x68 counts. The results are those of the codes that the calibration plate's charges and
the measured departures give (log 40). CALIBRATE, where the dies have power, makes every engine it names due, and waits for
exactly those, or completes where it names none: the engines of the named cores on the named online dies that have a
calibration plate. The periodic save of an up die, 10 minutes after the last or later, stores every engine of the die that has
a state or a plate, and no other die's. A new microsecond of the governor of an up die begins its count again, where nothing
has begun it yet and no calibration takes from it, and moves the rotation on by one engine for each microsecond passed. That a
calibration records the die's latest reading, also one of before its last bring-up, is the model's choice (log 18). -/
def Obligations.EngineCalibration : Prop :=
  ∀ (s : State), Settled s →
    (∀ (k last : Nat) (g : List CalMeas), k < 131072 → (engAt s k).calEnd = some last → last ≤ s.belv.tb →
      (engAt s k).coef.length = 8 → let e := engAt s k
      let res := calResults s k g
      let kept := e.calDirty = false ∧ (dieAt s (k / 8192)).warn = 0 ∧ ∀ r, r ∈ res → r.2.2 = true
      (kept → ∃ t, exec (.engineCalEnd k g) s = .next t ∧ (engAt t k).calEnd = none ∧ (engAt t k).calTb = s.belv.tb ∧
          (engAt t k).rejects = 0 ∧ (engAt t k).calTemp = (dieAt s (k / 8192)).lastTemp ∧ t.weights = s.weights ∧
          (∀ j, j < 8 → let r := res.getD j (0, 0, false)
            let c := (engAt t k).coef.getD j Coef.zero
            c.off = r.1 ∧ c.gainCal = r.2.1 ∧ c.gain = r.2.1 ∧ c.checked = 0 ∧ c.failed = 0) ∧
          (rget t (pgCal0 (k / 8192)) 0x60).toNat = min ((rget s (pgCal0 (k / 8192)) 0x60).toNat + 1) 0xFFFFFFFF ∧
          ((∀ r q, r ∈ s.reqs → r.2 = some q → q.desc.opc = 0x20 → k ∈ q.waitFor → q.at_ ≤ e.calBegin) →
            (engAt t k).due = false ∧ (engAt t k).stale = false ∧ (engAt t k).never = false)) ∧
      (¬ kept → ∃ t, exec (.engineCalEnd k g) s = .next t ∧ (engAt t k).calEnd = none ∧
        (engAt t k).rejects = min (e.rejects + 1) 255 ∧ (engAt t k).due = e.due ∧ (engAt t k).calTb = e.calTb ∧
        (∀ j, j < 8 → ((engAt t k).coef.getD j Coef.zero).gain = (e.coef.getD j Coef.zero).gain ∧
          ((engAt t k).coef.getD j Coef.zero).gainCal = (e.coef.getD j Coef.zero).gainCal ∧
          ((engAt t k).coef.getD j Coef.zero).off = (e.coef.getD j Coef.zero).off) ∧
        (rget t (pgCal0 (k / 8192)) 0x68).toNat = min ((rget s (pgCal0 (k / 8192)) 0x68).toNat + 1) 0xFFFFFFFF)) ∧
    (∀ id q, asleep s = false → takeReq s id 0x20 = some q →
      let l := ((bitsOf (BitVec.ofNat 16 (fld q.desc.param 15 0))).filter fun d => (dieAt s d).online).flatMap fun d =>
        (liveEngines s d).filter fun k => (fld q.desc.param 31 16).testBit (k / 512 % 16) && (calPlateOf s k).isSome
      ∃ t r, exec (.calibrate id) s = .next t ∧ reqAt t id = some r ∧ r.waitFor = l ∧
        r.phase = (if l = [] then .finished else .running) ∧ ∀ k, k ∈ l → (engAt t k).due = true) ∧
    (∀ d, (dieAt s d).up = true → (dieAt s d).savedAt + 600000000000 ≤ s.belv.tb →
      ∃ t, exec (.calCoefSave d) s = .next t ∧ (dieAt t d).savedAt = s.belv.tb ∧
        (∀ k, k ∈ liveEngines s d → tget Saved.zero t.slc k = (engAt s k).saved) ∧
        (∀ k, k / 8192 ≠ d → tget Saved.zero t.slc k = tget Saved.zero s.slc k)) ∧
    (∀ d, (dieAt s d).up = true → (dieAt s d).tickUs < s.belv.tb / 1000 →
      let x := dieAt s d
      let us := s.belv.tb / 1000
      ∃ t, exec (.governorTick d) s = .next t ∧ (dieAt t d).govUs = us ∧ (dieAt t d).tickUs = us ∧
        ((∀ y ∈ s.engines, y.1 / 8192 = d → y.2.calEnd = none) →
          (dieAt t d).used = (if x.govUs = us then x.used else 0)) ∧
        (dieAt t d).rotor = (if x.govUs = us then x.rotor else (x.rotor + (us - x.govUs)) % 8192) ∧
        (dieAt t d).st = x.st ∧ t.weights = s.weights)

/-- The head program job of an engine that may write begins, where the budget lets it and its bank has not retired: its plate
becomes PROGRAMMING for its slot and shard, and no other plate and no cell changes; where the budget is used up it waits as
R373 counts it. Every erase segment leaves the plate's cells at level 0. A segment counts on to the eighth; after it the plate
is erased where no cell reads above level 0 by more than 0.10, else a further attempt begins, and after the third the plate is
BAD. After the first pulse-verify pair of a row, one that leaves cells to pulse inhibits, of the cells not yet inhibited,
exactly those above their target or within reach of it, and marks those above as failed; a row of which every cell is
inhibited and none failed, with no spare to program, holds its codes and is followed by the next row; after row 63 the plate
is VALID, holds the job's codes, and bears the TB. A touch-up that finds and leaves no cell above its target, and no cell that
was low short of it, completes, with the plate's state kept and its TB stamped, counted at 0x6C; one that finds a cell above
has the plate erased and programmed, while its bank is not retired; one that gives way to a read waits. That each command
stands for a whole segment, pair or touch-up is the model's choice, and that a bank that has retired takes no reprogram its
reading (log 31). -/
def Obligations.PlateProgramming : Prop :=
  ∀ (s : State) (k : Nat), Settled s → k < 131072 →
    let e := engAt s k
    (∀ j l, e.jobs = j :: l → mayWrite s k = true →
      let key := k * 512 + j.plate
      (j.touch = false → writeFits s k = false → exec (.plateProgramBegin k) s = .next (noteWait s (k / 8192))) ∧
      (j.touch = false → writeFits s k = true → retired s (k * 8 + j.plate / 64) = false →
        ∃ t g, exec (.plateProgramBegin k) s = .next t ∧ (engAt t k).jobs = l ∧ (engAt t k).prog = some g ∧
        g.job = j ∧ g.attempt = 1 ∧ g.seg = 0 ∧ g.erased = false ∧ (plateAt t key).st = .programming ∧
        (plateAt t key).owner = j.slot ∧ (plateAt t key).shard = j.shard ∧
        (∀ p, p ≠ key → plateAt t p = plateAt s p) ∧ t.weights = s.weights) ∧
      (∀ b a : List Int, j.touch = true →
        let x := plateAt s key
        let t' := fun i => target j.codes x.remap (i / 160) (i % 160)
        let high := fun (v : List Int) i => cellOver j.codes x.remap (i / 160) (i % 160) ((levels e v).getD i 0)
        x.st = .valid ∨ x.st = .drifted →
        (givesWay s k e = true → exec (.touchUp k b a) s = .next s) ∧
        (givesWay s k e = false → slotsUsed s (k / 8192) + slotsAhead s (k / 8192) < budget s (k / 8192) →
          ((∀ i, i < 10240 → touches j (i % 160) = true → high b i = false ∧ high a i = false ∧
              (0 < t' i → levelLow (t' i) ((levels e b).getD i 0) = true → levelPass (t' i) ((levels e a).getD i 0) = true)) →
            ∃ t, exec (.touchUp k b a) s = .next t ∧ (engAt t k).jobs = l ∧ (engAt t k).prog = none ∧
              (plateAt t key).st = x.st ∧ (plateAt t key).tb = s.belv.tb ∧
              (rget t (pgPrg0 (k / 8192)) 0x6C).toNat = min ((rget s (pgPrg0 (k / 8192)) 0x6C).toNat + 1) 0xFFFFFFFF) ∧
          (∀ i, i < 10240 → touches j (i % 160) = true → high b i = true →
            (bankAt s (k * 8 + j.plate / 64)).wear + 1 < 160000 → ∃ t, exec (.touchUp k b a) s = .next t ∧
              (engAt t k).jobs = l ∧ (engAt t k).prog.isSome = true ∧ (plateAt t key).st = .programming)))) ∧
    (∀ g, e.prog = some g → g.job.touch = false → opRunning s k e = true → writeFits s k = true →
      let key := k * 512 + g.job.plate
      let s1 := selectPlate (chargeWrite s k) k g.job.plate
      let next := fun (h : Prog) => Host.Outcome.next (modEng (eraseCells s1 key) k fun x => { x with prog := some h })
      (∀ c : List Int, g.erased = false →
        let sound := ∀ v, v ∈ levels e c → levelOver 0 v = false
        (∃ t, exec (.eraseSegment k c) s = .next t ∧ ∀ i, i < 4096 → tget 0 t.weights (key * 4096 + i) = 0) ∧
        (g.seg < 7 → exec (.eraseSegment k c) s = next { g with seg := g.seg + 1 }) ∧
        (7 ≤ g.seg → sound → exec (.eraseSegment k c) s = next { g with
          seg := 0, erased := true, row := 0, pulse := 0, inhibit := [], fails := [], aborted := false }) ∧
        (7 ≤ g.seg → ¬ sound → g.attempt < 3 → exec (.eraseSegment k c) s =
          next { g with seg := 0, attempt := g.attempt + 1 }) ∧
        (7 ≤ g.seg → ¬ sound → 3 ≤ g.attempt → ∃ t, exec (.eraseSegment k c) s = .next t ∧
          (plateAt t key).st = .bad ∧ (engAt t k).prog = none)) ∧
      (∀ c : List Int, g.erased = true → g.aborted = false → g.pulse ≠ 0 →
        let ts := rowTargets g
        let over_ := fun i => levelOver (ts.getD i 0) ((levels e c).getD i 0)
        let pass := fun i => levelPass (ts.getD i 0) ((levels e c).getD i 0)
        (g.pulse < 31 → (∃ i, i < 160 ∧ i ∉ g.inhibit ∧ over_ i = false ∧ pass i = false) →
          ∃ t h, exec (.pulseVerifyPair k c) s = .next t ∧ (engAt t k).prog = some h ∧ h.pulse = g.pulse + 1 ∧
            h.row = g.row ∧ h.job = g.job ∧ ∀ i, i < 160 → i ∉ g.inhibit →
              (i ∈ h.inhibit ↔ over_ i = true ∨ pass i = true) ∧ (i ∈ h.fails ↔ i ∈ g.fails ∨ over_ i = true)) ∧
        ((∀ i, i < 160 → i ∈ g.inhibit) → g.fails = [] → g.spareGo = [] →
          (g.row < 63 → ∃ t h, exec (.pulseVerifyPair k c) s = .next t ∧ (engAt t k).prog = some h ∧ h.row = g.row + 1 ∧
            h.pulse = 0 ∧ h.inhibit = [] ∧ h.job = g.job ∧ t.plates = s.plates ∧
            ∀ o, o < 64 → tget 0 t.weights (key * 4096 + 64 * g.row + o) =
              BitVec.ofInt 8 (g.job.codes.getD (64 * g.row + o) 0)) ∧
          (63 ≤ g.row → ∃ t, exec (.pulseVerifyPair k c) s = .next t ∧ (engAt t k).prog = none ∧
            (plateAt t key).st = .valid ∧ (plateAt t key).tb = s.belv.tb ∧
            ∀ i, i < g.job.codes.length → tget 0 t.weights (key * 4096 + i) =
              BitVec.ofInt 8 (g.job.codes.getD i 0)))))

/-- VERIFY_SWEEP, where the dies have power, leaves a pass active on every online die it names that had one active or has a plate
to examine, waits for exactly the named online dies whose pass is active, and completes exactly where none is. An interval
that has passed starts a pass with cause 3 over the plates of an up die that has no pass active and has a plate to examine. A
sweep read of the engine's next plate, inside a window that covers the engine and can hold it, of an engine that is free and
on a die that is up: where another plate is selected, the plate change comes first, takes 192 ns, and takes no slot; where the
budget is used up, the read waits as R373 counts it; else it keeps the engine busy for 128 ns and, before the plate's last
row, appends the row's re-quantised codes, those of the charges of the row alone at +127 and of measured departures (log 40);
under a live warning of the die it appends nothing; outside every window it changes nothing. That a read fits its window by
its integration alone, and so ends with it, is the model's reading (log 31). -/
def Obligations.VerifySweeps : Prop :=
  ∀ (s : State), Settled s →
    (∀ id q, asleep s = false → takeReq s id 0x21 = some q →
      let l := (bitsOf (BitVec.ofNat 16 (fld q.desc.param 15 0))).filter fun d => (dieAt s d).online
      ∃ t r, exec (.verifySweep id) s = .next t ∧ reqAt t id = some r ∧
        (r.waitFor = l.filter fun d => (dieAt t d).sweep.active) ∧ (r.phase = .finished ↔ r.waitFor = []) ∧
        ∀ d, d ∈ l → (dieAt s d).sweep.active = true ∨ sweepPlates s d ≠ [] → (dieAt t d).sweep.active = true) ∧
    (∀ d, (dieAt s d).up = true → rfld s (pgPrg1 d) 0x40 31 16 ≠ 0 → (dieAt s d).sweep.active = false → sweepPlates s d ≠ [] →
      (dieAt s d).sweep.since + rfld s (pgPrg1 d) 0x40 31 16 * 86400000000000 ≤ s.belv.tb →
      ∃ t, exec (.sweepInterval d) s = .next t ∧ (dieAt t d).sweep.active = true ∧ (dieAt t d).sweep.cause = 3 ∧
        (dieAt t d).sweep.todo = sweepPlates s d ∧ t.plates = s.plates) ∧
    (∀ (k p : Nat) (refErrs errs : List Int), k < 131072 →
      (dieAt s (k / 8192)).sweep.todo.find? (fun y => y / 512 == k) = some p →
      let e := engAt s k
      let codes := dataCodes 2 (plateAt s p).remap (charges s p [(e.swRow, 127)]) errs
      (covered s k = false → exec (.sweepRead k refErrs errs) s = .next s) ∧
      (awake s = true → covered s k = true → e.due = false → e.calEnd = none → e.prog = none → e.freeAt ≤ s.belv.tb →
        s.belv.tb + (if e.sel = p % 512 then 0 else 192) + 128 ≤ coverEnd s k → (dieAt s (k / 8192)).up = true →
        (e.sel ≠ p % 512 → exec (.sweepRead k refErrs errs) s =
          .next (putEng s k { e with sel := p % 512, freeAt := s.belv.tb + 192 })) ∧
        (e.sel = p % 512 → granted s k = false → exec (.sweepRead k refErrs errs) s = .next (noteWait s (k / 8192))) ∧
        (e.sel = p % 512 → granted s k = true → (dieAt s (k / 8192)).warn ≠ 0 →
          ∃ t, exec (.sweepRead k refErrs errs) s = .next t ∧
          engAt t k = { e with freeAt := s.belv.tb + 128 } ∧ t.plates = s.plates) ∧
        (e.sel = p % 512 → granted s k = true → (dieAt s (k / 8192)).warn = 0 → e.swRow < 63 →
          ∃ t, exec (.sweepRead k refErrs errs) s = .next t ∧
          (engAt t k).sel = e.sel ∧ (engAt t k).freeAt = s.belv.tb + 128 ∧ (engAt t k).swRow = e.swRow + 1 ∧
          ((engAt t k).swCodes = e.swCodes ++ (codes.zipIdx).map fun c =>
            requant (levelNum (e.coef.getD (c.2 / 8) Coef.zero) c.1.code)) ∧ t.plates = s.plates)))

/-- A bad flit on a link that works is counted with its replay, and where the eighth replay in a row of one flit has failed both
ends of the link retrain and RETRAIN (bit 0 of TRL0) is set with the link. A retraining that ends well makes both ends work;
its first two failures are counted, and the third takes the link down and sets bit 1. A destination that has all of a
transfer, with its way back open, acknowledges it: it leaves the transfer's destinations, and the transfer ends with the last
of them; one that has not, or whose way back is not open, waits. A corrected error of package memory is counted at MEM0 0x48
and sets bit 0; an uncorrectable one poisons its block of 64 bytes and no other, counts at 0x4C, latches its address at 0x50
and sets bit 1, and one that a request met ends that request with INTERNAL. A core's memory error is counted at its CORE page,
0x48 corrected or 0x4C uncorrected, under bit 0, 1 or 2. A patrol scrub 24 hours of RUN after the last that finds nothing only
restarts the time. The slow-tier unit, with no output tile waiting, runs the M-block whose turn it is, of a layer whose
weights are stored and with no poisoned memory: the block leaves its layer work, and 0x5C counts it. That an acknowledgement
waits for its way, and that the link counts stop at their top, are the model's reading (log 43), and so are the 24 hours
counted in RUN and the turn of the slow tier (log 35). -/
def Obligations.TrellisAndMemory : Prop :=
  ∀ (s : State), Settled s →
    (∀ (i : Nat) (r : Bool), (linkAt s i).st = 1 → let l := linkAt s i
      let n := if r then l.fails + 1 else 0
      (n < 8 → exec (.flitCrcError i r) s =
        .next (putLink s i { l with crc := stopUp l.crc, replay := stopUp l.replay, fails := n })) ∧
      (8 ≤ n → exec (.flitCrcError i r) s =
        .next (noted (setLink (putLink s i { l with crc := stopUp l.crc, replay := stopUp l.replay, fails := 0 }) (i / 5) (i % 5)
          fun l => { l with st := 2 }) 0x70 0 i))) ∧
    (∀ i, (linkAt s i).st = 2 → let l := linkAt s i
      let both := fun f => setLink s (i / 5) (i % 5) f
      exec (.linkRetrain i true) s = .next (both fun l => { l with st := 1, retrain := 0, fails := 0 }) ∧
      (l.retrain + 1 < 3 → exec (.linkRetrain i false) s = .next (both fun x => { x with retrain := l.retrain + 1 })) ∧
      (3 ≤ l.retrain + 1 → ∃ t, exec (.linkRetrain i false) s = .next t ∧ (linkAt t i).st ≠ 1 ∧ (linkAt t i).st ≠ 2 ∧
        bit (rget t 0x70 0x18) 1 = true)) ∧
    (∀ (x d : Nat) (t : Xfer), xferAt s x = some t →
      let go := t.dest.contains d = true ∧ onWay s x d = false ∧ wayOpen s .ctrl d [t.src] = true
      (¬go → exec (.transferAck x d) s = .next s) ∧
      (go → ∃ u, exec (.transferAck x d) s = .next u ∧ u.reqs = s.reqs ∧ xferAt u x =
        if (t.dest.filter fun e => e != d) = [] then none else some { t with dest := t.dest.filter fun e => e != d })) ∧
    (∀ (a : Nat) (o : Option Nat), exec (.memEccError a true o) s =
      .next (noted (count s 0x80 0x48 1) 0x80 0 (a / 2 ^ 20 % 65536))) ∧
    (∀ (a : Nat), a < 2 ^ 36 → ∃ t, exec (.memEccError a false none) s = .next t ∧ tget false t.poison (a / 64) = true ∧
      (∀ b, b ≠ a / 64 → tget false t.poison b = tget false s.poison b) ∧ rget64 t 0x80 0x50 = a ∧
      (rget t 0x80 0x4C).toNat = min ((rget s 0x80 0x4C).toNat + 1) 0xFFFFFFFF ∧ bit (rget t 0x80 0x18) 1 = true ∧
      t.pkgMem = s.pkgMem ∧ t.reqs = s.reqs) ∧
    (∀ (a id : Nat) (q : Req), reqAt s id = some q → q.phase ≠ .finished → q.status = none →
      ∃ t q', exec (.memEccError a false (some id)) s = .next t ∧ reqAt t id = some q' ∧ q'.phase = .finished ∧
        q'.status = some 0x7F) ∧
    (∀ (c a : Nat), c < 256 → pageReach s (pgCore c) = .ok →
      let code := if 0x400000 ≤ a then (a - 0x400000) / 16384 % 32 else a / 64 % 65536
      exec (.sramEccError c a true none) s = .next (noted (count s (pgCore c) 0x48 1) (pgCore c) 0 code) ∧
      exec (.sramEccError c a false none) s =
        .next (noted (count s (pgCore c) 0x4C 1) (pgCore c) (if 0x400000 ≤ a then 2 else 1) code)) ∧
    (s.pwr.st = .run → s.scrubAt + 86400000000000 ≤ s.belv.tb →
      exec (.patrolScrub []) s = .next { s with scrubAt := s.belv.tb }) ∧
    (∀ (r mb a : Nat) (w : Run) (q : Req), s.slow.out = [] → slowNext s = some (r, mb) → runAt s r = some w →
      reqAt s w.req = some q → layerArea (slotAt s w.slot) w.layer = some a →
      areaInvalid (slotAt s w.slot) a
        (areaBytes (w.rc s).k (w.rc s).n (weightSize (fmtsAt (slotAt s w.slot) w.layer).2.1)) = false →
      s.poison = [] → ∃ t, exec (.slowTierBlock r) s = .next t ∧
        (∀ v, runAt t r = some v → v.pool = w.pool.filter fun b => b != mb) ∧
        (rget t 0x80 0x5C).toNat = min ((rget s 0x80 0x5C).toNat + 1) 0xFFFFFFFF ∧ t.plates = s.plates ∧ t.weights = s.weights)

/-- FLACON_BEGIN, first in its order, for slot 0 ends with 0x21 and changes no slot. For another slot, with its block readable, it
opens the slot as LOADING with the manifest that the block spells, and completes, exactly where the header and directory are
well formed, the signature verifies, the target, kind, tables and programs are right, the slot is EMPTY with no session open,
and resources suffice; else no slot changes and the request ends with a status. SHARD of a LOADING slot, with an index below
SHARD_COUNT, its range within package memory, no other shard staged and its payload readable: one with the manifest's digest
is staged for the dies that need it (KIND 0, where some do), or written to the slot's slow-tier area and completed (KIND 1);
one with another digest ends with SHARD_DIGEST, is counted at FLC0 0xA4, and writes nothing. The one staged shard goes out in
one multicast to the dies that need it by then, once each is in service and has room and the ways, which reach all of them,
are open; where none needs it any more, its SHARD completes. What a die receives waits for the last of its packets. A die in
service that receives it with another digest, or with a code out of range, and is not the last to answer, writes nothing and
answers so. One that receives it right, not for a repair, keeps it: nothing is queued where it kept the replica before; else
the programs are queued where each place finds a plate, and where a place finds none, the die answers all the same and the
slot records PROGRAM_FAIL, but under an in-place update not yet drained the shard waits. That a second delivery keeps what
stands of the first is the model's choice (log 42), and so is that reserved header bytes fail the header's check (log 28). -/
def Obligations.FlaconSessions : Prop :=
  ∀ (s : State), Settled s →
    (∀ (id : Nat) (q : Req), reqAt s id = some q → q.phase = .dispatched → q.status = none →
      let k := q.desc.flcSlot
      let x := slotAt s k
      (q.desc.opc = 0x10 → flcFirst s id = true →
        (k = 0 → ∃ t q', exec (.flaconBegin id) s = .next t ∧ reqAt t id = some q' ∧ q'.phase = .finished ∧
          q'.status = some 0x21 ∧ t.slots = s.slots) ∧
        (∀ blk, k ≠ 0 → auxBytes s q.desc 0 q.desc.param.toNat = some blk →
          let n := leAt blk 0x14 4
          let m := readManifest (blk.take n)
          let base := (if m.update then baseSlot s m else none).getD 0
          let good := headerOk blk q.desc.param.toNat = true ∧ dirOk (blk.take n) = true ∧
            verifyReason s (manifestObject s (blk.take n) (blk.drop n)) = 0 ∧ m.target = s.part.member.deviceId ∧
            kindOk s m = true ∧ tablesOk s m (if base = 0 then none else some (manOf s base)) = true ∧ progsOk m = true ∧
            x.st = .empty ∧ sessionSlot s = none ∧ resourceCheck s m base = none
          ∃ t q', exec (.flaconBegin id) s = .next t ∧ reqAt t id = some q' ∧ q'.phase = .finished ∧
            (good → (slotAt t k).st = .loading ∧ (slotAt t k).man = m ∧ (slotAt t k).base = base ∧ q'.status = none ∧
              (∀ j, j ≠ k → slotAt t j = slotAt s j)) ∧
            (¬good → t.slots = s.slots ∧ q'.status.isSome = true))) ∧
      (q.desc.opc = 0x11 → k ≠ 0 → x.st = .loading → s.staging = [] →
        let i := q.desc.param.toNat
        let e := shardEnt x.man i
        let need := shardNeeds s k i
        ∀ data, i < x.man.shardCount → shardRangeBad s q.desc = false → auxBytes s q.desc 64 e.bytes = some data →
          (e.kind = 0 → need ≠ 0 → Config.sha384 data = e.digest → ∃ t q', exec (.shard id) s = .next t ∧
            t.staging = [{ req := id, slot := k, shard := i, repair := false, need := need, sent := false, wait := 0, bad := 0, data := data }] ∧
            reqAt t id = some q' ∧ q'.phase = .running ∧ t.slots = s.slots ∧ t.pkgMem = s.pkgMem ∧
            (rget t 0x60 0xA0).toNat = min ((rget s 0x60 0xA0).toNat + 1) 0xFFFFFFFF) ∧
          (e.kind = 1 → Config.sha384 data = e.digest → ∃ t q', exec (.shard id) s = .next t ∧
            t.pkgMem = putBytes s.pkgMem (x.slowAt + e.ref * 4096) data ∧
            (tget ShardSt.zero (slotAt t k).shards i).stored = true ∧ reqAt t id = some q' ∧ q'.phase = .finished ∧
            q'.status = none ∧ t.staging = []) ∧
          (e.kind ≠ 2 → Config.sha384 data ≠ e.digest → ∃ t q', exec (.shard id) s = .next t ∧ reqAt t id = some q' ∧
            q'.phase = .finished ∧ q'.status = some 0x30 ∧ t.slots = s.slots ∧ t.pkgMem = s.pkgMem ∧ t.staging = [] ∧
            bit (rget t 0x60 0x18) 0 = true ∧
            (rget t 0x60 0xA4).toNat = min ((rget s 0x60 0xA4).toNat + 1) 0xFFFFFFFF))) ∧
    (∀ (id : Nat) (g : Staging), s.staging = [g] → g.req = id →
      (g.sent = false → let need := shardNeeds s g.slot g.shard
        let live := (slotAt s g.slot).st == .active || (slotAt s g.slot).st == .retiring
        (need ≠ 0 → asleep s = false → (∀ d, d ∈ bitsOf need → loadUse s d < 4 ∧ dieUp s d = true) →
          mayTransfer s 16 (bitsOf need) = true → lostDests s 16 (bitsOf need) = [] →
          ∃ t, exec (.shardSend id) s = .next t ∧
            t.staging = [{ g with sent := true, need := need, wait := need, repair := live }] ∧
            t.nextXfer = s.nextXfer + 1 ∧ xferAt t s.nextXfer = some ⟨16, bitsOf need, some id⟩) ∧
        (∀ q, need = 0 → reqAt s id = some q → q.phase ≠ .finished → q.status = none → ∃ t q', exec (.shardSend id) s = .next t ∧
          t.staging = [] ∧ t.nextXfer = s.nextXfer ∧ reqAt t id = some q' ∧ q'.phase = .finished ∧ q'.status = none)) ∧
      (∀ (d : Nat) (data : List Byte), shardComing s id d = true → exec (.shardDieReceive id d data) s = .next s) ∧
      (∀ (d : Nat) (data : List Byte), g.sent = true → d < 16 → g.wait.getLsbD d = true → dieUp s d = true →
        shardComing s id d = false →
        let e := shardEnt (manOf s g.slot) g.shard
        let inRange := (data.all fun b => decide (-63 ≤ b.toInt ∧ b.toInt ≤ 63)) = true
        (Config.sha384 data ≠ e.digest ∨ ¬inRange → g.wait ≠ 1#16 <<< d →
          ∃ t, exec (.shardDieReceive id d data) s = .next t ∧ t.engines = s.engines ∧ t.plates = s.plates ∧
            t.slots = s.slots ∧ t.reqs = s.reqs ∧
            t.staging = [{ g with wait := g.wait &&& ~~~(1#16 <<< d), bad := g.bad ||| (1#16 <<< d) }] ∧
            bit (rget t 0x60 0x18) (if Config.sha384 data ≠ e.digest then 0 else 4) = true) ∧
        (Config.sha384 data = e.digest → inRange → g.repair = false →
          let x := slotAt s g.slot
          let u := placeShard s d g.slot g.shard data
          let had := (tget ShardSt.zero x.shards g.shard).kept.getLsbD d
          let keeps := fun (t : State) => (tget ShardSt.zero (slotAt t g.slot).shards g.shard).kept.getLsbD d = true
          (had = true → ∃ t, exec (.shardDieReceive id d data) s = .next t ∧ keeps t ∧ t.engines = s.engines) ∧
          (had = false → u.2 = true → ∃ t, exec (.shardDieReceive id d data) s = .next t ∧ keeps t ∧ t.engines = u.1.engines) ∧
          (had = false → u.2 = false → x.man.inPlace = false ∨ x.drained = true → ∃ t, exec (.shardDieReceive id d data) s = .next t ∧ keeps t ∧
            (slotAt t g.slot).progFail = true) ∧
          (had = false → u.2 = false → x.man.inPlace = true → x.drained = false → exec (.shardDieReceive id d data) s = .next s))))

/-- FLACON_ACTIVATE, first in its order, makes a LOADING slot ACTIVATING for its target. TIMEOUT marks it once the time since the
later of the dispatch and the last arrival has passed with preparation not ended. Preparation ends, with none of the slot's
plates in writing or queued, with every shard done and the programs loaded, or, timed out with shards missing, returns the
slot to LOADING with FLACON_INCOMPLETE or PROGRAM_FAIL. The activation is judged 2,000 ns before T. At T the slot becomes
ACTIVE under the next epoch and provides its tasks; an ACTIVE slot left with no task, or the base of an update, becomes
RETIRING; the activation is counted at 0xA8, and its ACTIVATE waits for the NV record. The NV record keeps the epoch, the
suspensions and the ACTIVE and RETIRING slots, changes no slot, and completes the ACTIVATEs applied before it. FLACON_RETIRE
makes an ACTIVE slot RETIRING with no task. FLACON_ABORT of a session not judged, and a RETIRING slot with no request left,
empty the slot and leave none of its plates in use, and their requests finish. Once the suspended tasks have drained, the base
of an in-place update loses the replicas not inherited. ATTEST, with no earlier one waiting, waits for an activation whose T
has come (the model's reading, log 20); else it reserves a leaf and writes the report that begins with ATTR; with no leaf left
it ends with ATTEST_EXHAUSTED. -/
def Obligations.ActivationAndFreeing : Prop :=
  ∀ (s : State), Settled s →
    (∀ (id : Nat) (q : Req), reqAt s id = some q → q.phase = .dispatched → q.status = none →
      let k := q.desc.flcSlot
      let x := slotAt s k
      (q.desc.opc = 0x12 → flcFirst s id = true → k ≠ 0 → x.st = .loading → exec (.flaconActivate id) s =
        .next (putReq (putSlot s k { x with
          st := .activating, actReq := some id, target := q.desc.auxAddr.toNat, actAt := s.belv.tb, timedOut := false,
          prepared := none, judged := false }) id (some { q with phase := .running, ran := true }))) ∧
      (q.desc.opc = 0x13 → flcFirst s id = true → k ≠ 0 → x.st = .active → ∃ t q', exec (.flaconRetire id) s = .next t ∧
        (slotAt t k).st = .retiring ∧ (slotAt t k).tasks = [] ∧ (slotAt t k).retReq = some id ∧
        (∀ n, tget 0 t.prov n ≠ k) ∧ (∀ j, j ≠ k → slotAt t j = slotAt s j) ∧ reqAt t id = some q' ∧ q'.phase = .running) ∧
      (q.desc.opc = 0x14 → flcFirst s id = true → k ≠ 0 → x.st = .loading ∨ x.st = .activating → x.judged = false →
        x.actReq ≠ some id → (∀ g, g ∈ s.staging → g.req ≠ id) →
        ∃ t q', exec (.flaconAbort id) s = .next t ∧ slotAt t k = Slot.zero ∧ reqAt t id = some q' ∧ q'.phase = .finished ∧
          q'.status = none ∧ (∀ p, (plateAt t p).owner = k → (plateAt t p).st = .free ∨ (plateAt t p).st = .bad)) ∧
      (q.desc.opc = 0x30 → (∀ e x, e ∈ s.reqs → e.2 = some x → e.1 < id → x.desc.opc = 0x30 → x.phase ≠ .dispatched) →
        (activationDue s = true → exec (.attest id) s = .next s) ∧
        let body := reportBody s s.nv.lmsNext (bytesAt s.hostMem q.desc.auxAddr.toNat 48)
        let rep := body ++ fit (Config.ecdsaSign s.free identityKey body) 96 ++ identitySign s.nv.lmsNext body
        (activationDue s = false → s.nv.lmsNext < 1048576 → ∃ t q', exec (.attest id) s = .next t ∧ t.nv.lmsNext = s.nv.lmsNext + 1 ∧
          rep.take 4 = [0x41, 0x54, 0x54, 0x52] ∧ t.hostMem = putBytes s.hostMem q.desc.outAddr.toNat rep ∧
          (rget t 2 0x58).toNat = min ((rget s 2 0x58).toNat + 1) 0xFFFFFFFF ∧
          reqAt t id = some q' ∧ q'.phase = .finished ∧ q'.status = none) ∧
        (activationDue s = false → 1048576 ≤ s.nv.lmsNext → ∃ t q', exec (.attest id) s = .next t ∧ reqAt t id = some q' ∧ q'.phase = .finished ∧
          q'.status = some 0x70 ∧ t.hostMem = s.hostMem ∧ t.nv = s.nv))) ∧
    (∀ (k : Nat), let x := slotAt s k
      (x.st = .activating → x.prepared = none → max x.actAt x.arrival + rfld s 0x60 0x40 15 0 * 1000000 ≤ s.belv.tb →
        exec (.activateTimeout k) s = .next (putSlot s k { x with timedOut := true })) ∧
      (x.st = .activating → x.prepared = none → slotWriting s k = false →
        let miss := x.man.shards.length - doneShards s k
        (∀ u, miss = 0 → loadPrograms s k = some u → exec (.activationPrepared k) s =
          .next (putSlot u k { slotAt u k with prepared := some s.belv.tb })) ∧
        (∀ (id : Nat) (q : Req), miss ≠ 0 → x.timedOut = true → x.actReq = some id → reqAt s id = some q →
          q.phase = .running → q.status = none → ∃ t q', exec (.activationPrepared k) s = .next t ∧
          (slotAt t k).st = .loading ∧ (slotAt t k).missing = miss ∧ reqAt t id = some q' ∧ q'.phase = .finished ∧
          q'.status = some (if x.progFail then 0x51 else 0x31))) ∧
      (∀ p, x.st = .activating → x.prepared = some p → x.judged = false → max x.target (p + 2000) ≤ s.belv.tb + 2000 →
        exec (.activationJudged k) s = .next (putSlot s k { x with judged := true, actT := max x.target (p + 2000) })) ∧
      (x.st = .activating → x.judged = true → x.actT ≤ s.belv.tb → let ts := x.man.tasks.map fun e => e.task
        ∃ t, exec (.activationApply k) s = .next t ∧ (slotAt t k).st = .active ∧ (slotAt t k).epoch = s.epoch + 1 ∧
          t.epoch = s.epoch + 1 ∧ (slotAt t k).tasks = ts ∧ (∀ n, n ∈ ts → tget 0 t.prov n = k) ∧
          (∀ j, j ≠ k → (slotAt s j).st = .active → (slotAt t j).st =
            if ((slotAt s j).tasks.filter fun n => !ts.contains n) = [] ∨ (x.man.update = true ∧ j = x.base)
            then .retiring else .active) ∧
          (∀ id, x.actReq = some id → t.applied = s.applied ++ [id]) ∧
          (rget t 0x60 0xA8).toNat = min ((rget s 0x60 0xA8).toNat + 1) 0xFFFFFFFF) ∧
      (x.st = .retiring → slotInflight s k = 0 → ∃ t, exec (.slotDrained k) s = .next t ∧
        slotAt t k = Slot.zero ∧ (∀ p, k ≠ 0 → (plateAt t p).owner = k → (plateAt t p).st = .free ∨ (plateAt t p).st = .bad) ∧
        (∀ r q, x.retReq = some r → reqAt s r = some q → ∃ q', reqAt t r = some q' ∧ q'.phase = .finished)) ∧
      (x.st = .loading ∨ x.st = .activating → x.man.inPlace = true → x.drained = false →
        (s.reqs.any fun e => match e.2 with
          | some q => q.slot == x.base && q.desc.opc == 1 && q.phase != .finished && s.suspended.contains q.desc.task.toNat
          | none => false) = false →
        ∃ t, exec (.inPlaceDrained k) s = .next t ∧ (slotAt t k).drained = true ∧
          (∀ p, (plateAt t p).owner = x.base → (inherited x.man).contains (plateAt t p).shard = false →
            (plateAt t p).st = .free ∨ (plateAt t p).st = .bad))) ∧
    (∃ t, exec .nvRecordWrite s = .next t ∧ t.nv.epoch = s.epoch ∧ t.nv.suspended = s.suspended ∧ t.slots = s.slots ∧
      (∀ k, (slotAt s k).st = .active ∨ (slotAt s k).st = .retiring → tget Slot.zero t.nv.saved k = slotAt s k) ∧
      t.applied = [] ∧ (∀ id q, id ∈ s.applied → reqAt s id = some q →
        ∃ q', reqAt t id = some q' ∧ q'.phase = .finished ∧ q'.status = q.status))

/-- RUN_TASK puts its request under check at each of its cores; the refusals gathered are empty exactly where every check of every
core passes and, of a task with no core, the class is not reserved; a core that refuses holds its first failure in
SEQ_LAST_REFUSE and SEQ_LAST_NEED, and one that accepts counts at 0x40. The verdict, with every die of the task ready, on a
request with a refusal ends it with SHAPE_ILLEGAL before ACC_SHORT before SRAM_SHORT and starts no work; without one and with
length 0 it ends; else it starts one layer work for each set of each plate layer and one for each slow-tier layer. Of FETCH
and the claims, while the cores have their clocks: FETCH, with a whole group claimed or the last blocks of a layer, puts the
group in its home core's queue once its blocks are ready and it has room, counted by block at 0x44; a wait for blocks is
counted once at 0x50, and one for room only ends it. A claim of a set that may claim is made of the counter that the layer
holds, of die scope or of package scope, is counted once at 0x54, and takes up to CLAIM_N blocks, finds the counter exhausted,
or waits. A claim of package scope waits where the way to the Pavilion is not open, and ends its request with INTERNAL where
no way is left. That such a claim waits for its way is the model's reading (log 43), and so is that a claim counts once and a
wait as it begins (log 34). -/
def Obligations.TaskIssue : Prop :=
  ∀ (s : State), Settled s →
    (∀ (id : Nat) (q : Req), reqAt s id = some q →
      let m := manOf s q.slot
      let cs := taskCores m q.desc.task.toNat
      (q.phase = .dispatched → q.desc.opc = 1 → ∃ t q', exec (.runTask id) s = .next t ∧ reqAt t id = some q' ∧
        q'.phase = .checking ∧
        (q'.refusals = [] ↔ (∀ c, c ∈ cs → coreFailures s m q c = []) ∧ (cs = [] → q.desc.acc.toNat < 8)) ∧
        (∀ c layer r need lim l, c ∈ cs → coreFailures s m q c = (layer, r, need, lim) :: l →
          rget t (pgSeq c) 0x48 = (put 31 24 (reasonStatus r) ||| put 23 16 r ||| put 15 0 layer) ∧
          rget t (pgSeq c) 0x4C = (put 31 16 need ||| put 15 0 lim)) ∧
        (∀ c, c ∈ cs → coreFailures s m q c = [] →
          (rget t (pgSeq c) 0x40).toNat = min ((rget s (pgSeq c) 0x40).toNat + 1) 0xFFFFFFFF) ∧
        t.runs = s.runs ∧ t.slots = s.slots ∧ t.cores = s.cores) ∧
      (q.phase = .checking → diesReady s q = true → q.status = none →
        (∀ r l, q.refusals = r :: l → let st := q.refusals.map fun x => reasonStatus x.2.2.1
          ∃ t q', exec (.issueVerdict id) s = .next t ∧ reqAt t id = some q' ∧ q'.phase = .finished ∧
            q'.status = some (if st.contains 0x12 then 0x12 else if st.contains 0x10 then 0x10 else 0x11) ∧
            q'.detail = r.2.2.1 ∧ t.runs = s.runs ∧ t.cores = s.cores) ∧
        (q.refusals = [] → q.len = 0 → ∃ t q', exec (.issueVerdict id) s = .next t ∧ reqAt t id = some q' ∧
          q'.phase = .finished ∧ q'.status = none ∧ t.runs = s.runs) ∧
        (q.refusals = [] → q.len ≠ 0 → ∃ t q', exec (.issueVerdict id) s = .next t ∧ reqAt t id = some q' ∧
          q'.ran = true ∧ (q.clamped = true → q'.qual.getLsbD 9 = true) ∧
          t.nextRun = s.nextRun + ((taskLayers m q.desc.task.toNat).map fun e => if e.2.tier = 1 then 1 else max e.2.sets 1).sum ∧
          (q'.phase = .running → ∀ r, s.nextRun ≤ r → r < t.nextRun →
            ∃ w, runAt t r = some w ∧ w.req = id ∧ w.slot = q.slot)))) ∧
    (∀ (r : Nat) (w : Run) (q : Req), coreClocks s = true → runAt s r = some w → reqAt s w.req = some q →
      let l := w.rc s
      (∀ v, l.tier = 0 → w.pool ≠ [] → l.groupSize ≠ 0 → l.groupSize ≤ w.pool.length ∨ w.spent = true →
        let n := min l.groupSize w.pool.length
        let u := if fromDesc w s q then landInputs s r q (w.pool.take n) else s
        let home := v.home u
        let c := coreAt u home
        let depth := (c.fetchQ.map fun e => e.2.length).sum
        let room := (n ≤ 8 ∧ depth + n ≤ 8) ∨ depth = 0
        runAt u r = some v →
        ((w.pool.take n).all (fun b => blockReady u v b) = true → room →
          ∃ t, exec (.fetchGroup r) s = .next t ∧ (coreAt t home).fetchQ = c.fetchQ ++ [(r, w.pool.take n)] ∧
            runAt t r = some { v with pool := v.pool.drop n, readyWait := false } ∧ t.coreMem = u.coreMem ∧
            (rget t (pgFetch home) 0x44).toNat = min ((rget u (pgFetch home) 0x44).toNat + n) 0xFFFFFFFF) ∧
        ((w.pool.take n).all (fun b => blockReady u v b) = true → ¬room → exec (.fetchGroup r) s =
          .next (putRun u r (some { v with readyWait := false }))) ∧
        ((w.pool.take n).all (fun b => blockReady u v b) = false → exec (.fetchGroup r) s = .next (if v.readyWait then u
          else count (putRun u r (some { v with readyWait := true })) (pgFetch home) 0x50 1))) ∧
      (∀ (i key : Nat), ((slotAt s w.slot).ctrs.find? fun e => e.1 == w.layer) = some (i, key) → w.spent = false →
        w.left.length < l.groupSize * (1 + l.doubling) →
        let home := pgFetch (w.home s)
        let claimed := fun (seq : List Nat) (t : State) =>
          let a := (ctrAt s key).claim (BitVec.ofNat 16 q.launch) seq.length (max l.claimN 1)
          (∀ lo hi, a.2 = .took lo hi → ctrAt t key = a.1 ∧ runAt t r =
            some { addBlocks (w.man s) l w ((seq.drop lo).take (hi - lo)) with claimWait := false }) ∧
          (a.2 = .exhausted → ∀ v, runAt t r = some v → v.spent = true ∧ v.pool = w.pool) ∧
          (a.2 = .later → ctrAt t key = a.1 ∧ runAt t r = some { w with claimWait := true }) ∧
          (rget t home 0x54).toNat = if w.claimWait then (rget s home 0x54).toNat
            else min ((rget s home 0x54).toNat + 1) 0xFFFFFFFF
        (l.ctrScope = 1 → ∃ t, exec (.counterClaim r) s = .next t ∧ claimed (diePart l (blocksOf w.rows)) t) ∧
        (l.ctrScope = 2 →
          (reaches s l.die 16 = true → wayOpen s .ctrl l.die [16] = true → lostDests s 16 (layerDies s w) = [] →
            ∃ t, exec (.pavilionClaim r) s = .next t ∧ claimed (List.range (blocksOf w.rows)) t) ∧
          (reaches s l.die 16 = true → wayOpen s .ctrl l.die [16] = false → exec (.pavilionClaim r) s =
            .next (putRun (if w.claimWait then s else count s home 0x54 1) r (some { w with claimWait := true }))) ∧
          (reaches s l.die 16 = false → q.phase ≠ .finished → q.status = none → ∃ t q', exec (.pavilionClaim r) s = .next t ∧
            reqAt t w.req = some q' ∧ q'.phase = .finished ∧ q'.status = some 0x7F))))

/-- While the cores have their clocks: a broadcast stages one row of a K-slice at exactly the engines whose next step needs it,
where each has room, counted at 0x48, and does nothing where none needs it or one has no room. An allocation takes the tiles
of the unit asked for on every core that needs some, where each has them free and may, and the unit joins those of the layer
work; else it waits, once noted. A complete tile joins the queue to DRAIN while there is room. DRAIN, with no program running
and its vector unit not halted, starts the row program of the tile it has taken, or of the first in its queue whose passes may
begin, for the next valid row, with every vector register and mask at 0 but M0, which is all ones, and M1, which enables the
valid columns, and with S1 to S6 as R191 gives them, counted at 0x48. An end program, after the last row of its layer on the
core and with its passes free to begin, starts with everything at 0. (A program of no instructions is not meant here.) A
delivery leaves the core's list once every consumer can take it and its transfer may go; a wait while some consumer cannot
take it is counted once at 0x4C, and a wait for the transfer alone, or of a halted core, ends that one. That DRAIN takes the
first tile whose passes may begin is the model's reading (log 27). -/
def Obligations.CoreWork : Prop :=
  ∀ (s : State), Settled s → coreClocks s = true →
    (∀ (r : Nat) (w : Run), runAt s r = some w →
      let m := w.man s
      let l := w.rc s
      let ps := setPlates m l w.set
      (∀ row ks, let goals := (setEngines l ps).filterMap fun e =>
          match nextStep l w ps e with
          | some (p, n) => if n = row ∧ p.ks = ks then some (e, p) else none
          | none => none
        let room := (goals.all fun g => decide ((engAt s g.1).staged.length + (engAt s g.1).steps.length < 16)) = true
        (goals ≠ [] → room → ∃ t, exec (.rowBroadcast r row ks) s = .next t ∧
          (∀ g, g ∈ goals → (engAt t g.1).staged = (engAt s g.1).staged ++
            [⟨r, row, ks, g.2.nt, (findPlate s 15 g.1 w.slot g.2.shard g.2.inShard).getD 0, readRow s l row ks⟩]) ∧
          (∀ e, (∀ g, g ∈ goals → g.1 ≠ e) → engAt t e = engAt s e) ∧
          rget64 t (pgFetch (w.home s)) 0x48 = (rget64 s (pgFetch (w.home s)) 0x48 + 1) % 2 ^ 64) ∧
        (goals = [] ∨ ¬room → exec (.rowBroadcast r row ks) s = .next s)) ∧
      (∀ u, wantUnit s r w = some u →
        let cores := (setCores m l w.set).filter fun c => !(unitTiles m l u c).isEmpty
        let ok := fun (c : Nat) =>
          decide (unitsHeld s w (coreAt s (coreIdx l.die c)) < 1 + l.doubling) &&
          decide ((unitTiles m l u c).length ≤ (freeTiles (coreAt s (coreIdx l.die c))).length) && !earlierWaits s r w c
        (cores.all ok = true → ∃ t v, exec (.accAllocate r) s = .next t ∧ runAt t r = some v ∧ v.nUnit = w.nUnit + 1 ∧
          (v.units.map fun x => (x.blocks, x.nts)) = (w.units.map fun x => (x.blocks, x.nts)) ++ [(u.blocks, u.nts)] ∧
          v.accWait = false ∧ v.pool = w.pool ∧
          (∀ c, c ∈ cores → (freeTiles (coreAt t (coreIdx l.die c))).length + (unitTiles m l u c).length =
            (freeTiles (coreAt s (coreIdx l.die c))).length) ∧ t.plates = s.plates ∧ t.engines = s.engines) ∧
        (cores.all ok = false → w.accWait = false → ∃ t, exec (.accAllocate r) s = .next t ∧
          runAt t r = some { w with accWait := true } ∧ t.cores = s.cores) ∧
        (cores.all ok = false → w.accWait = true → exec (.accAllocate r) s = .next s)) ∧
      (∀ (c b n : Nat), let sibs := (siblings s w).filter fun e => (setCores (e.2.man s) (e.2.rc s) e.2.set).contains (c % 16)
        (coreAt s c).vrun = none → halted s c = false → l.tier = 0 → c / 16 = l.die → sibs ≠ [] →
        (sibs.all fun e => !e.2.ended.contains c && drainedOn s e.1 e.2 c) = true →
        progBounds s w.slot l.die (c % 16) l.endProg = some (b, n) → n ≠ 0 → busySlots s w c l.endProg = [] →
        exec (.endProg r c) s = .next (putCore s c { coreAt s c with
          v := [], m := [], sc := [], pc := b, vrun := some ⟨r, none, 0, b, n⟩, loops := [] }))) ∧
    (∀ (c : Nat), let k := coreAt s c
      (∀ (n : Nat) (x : Tile), tget none k.tiles n = some x →
        (x.left = 0 → x.queued = false → k.drainQ.length < 8 → exec (.tileQueue c n) s = .next (putCore s c
          { k with drainQ := k.drainQ ++ [n], tiles := tset none k.tiles n (some { x with queued := true }) })) ∧
        (x.left ≠ 0 ∨ x.queued = true ∨ 8 ≤ k.drainQ.length → exec (.tileQueue c n) s = .next s) ∧
        (∀ w b cnt, k.vrun = none → halted s c = false → runAt s x.run = some w →
          ((k.tiles.find? fun e => match e.2 with | some y => y.taken | none => false).map fun e => e.1).or
            (k.drainQ.drop (k.drainQ.takeWhile fun y => !(tileBusy s c y).isEmpty).length).head? = some n →
          progBounds s w.slot (w.rc s).die (c % 16) (w.rc s).drainProg = some (b, cnt) → cnt ≠ 0 →
          let cols := (w.rc s).cols x.nt
          ∃ t, exec (.drainRow c) s = .next t ∧ (coreAt t c).vrun = some ⟨x.run, some n, x.row, b, cnt⟩ ∧
            (coreAt t c).pc = b ∧ (coreAt t c).v = [] ∧ (coreAt t c).loops = [] ∧
            tget none (coreAt t c).tiles n = some { x with taken := true } ∧
            (∀ j, j < 8 → (coreAt t c).mask j = if j = 0 then 0xFFFFFFFFFFFFFFFF else if j = 1 then BitVec.ofNat 64 (2 ^ cols - 1) else 0) ∧
            (∀ j, j < 16 → (coreAt t c).scalar j =
              if j = 1 then BitVec.ofNat 32 (0x400000 + 4 * (n * 4096 + x.row * 64))
              else if j = 2 then BitVec.ofNat 32 ((64 * x.mb + x.row) * 64 * (w.rc s).nTiles + 64 * x.nt)
              else if j = 3 then BitVec.ofNat 32 (outAddr (w.man s) (w.rc s) (c % 16) (64 * x.mb + x.row) x.nt)
              else if j = 4 then BitVec.ofNat 32 cols else if j = 5 then BitVec.ofNat 32 x.nt
              else if j = 6 then BitVec.ofNat 32 (64 * x.mb + x.row) else 0) ∧
            (rget t (pgDrain c) 0x48).toNat = min ((rget s (pgDrain c) 0x48).toNat + 1) 0xFFFFFFFF ∧ t.coreMem = s.coreMem)) ∧
      (∀ r mb nt rest, k.deliver = (r, mb, nt) :: rest →
        (runAt s r = none → exec (.tileDelivery c) s = .next (putCore s c { k with deliver := rest, waitDel := false })) ∧
        (∀ w, runAt s r = some w →
          let cons := consEnts (w.man s) (w.rc s)
          let far := ((cons.map fun e => if e.kind = 1 ∨ e.die = 0xFF then 16 else e.die).dedup).filter fun d => d != (w.rc s).die
          let room := cons.all fun e => consReady s w mb e
          let go := !halted s c && room && mayTransfer s (w.rc s).die far
          (go = true → ∃ t, exec (.tileDelivery c) s = .next t ∧ (coreAt t c).waitDel = false ∧
            (∀ e, e ∈ (coreAt t c).deliver → e ∈ rest) ∧ t.plates = s.plates) ∧
          (go = false → room = true → exec (.tileDelivery c) s = .next (putCore s c { k with waitDel := false })) ∧
          (room = false → exec (.tileDelivery c) s = .next (if k.waitDel then s
            else count (putCore s c { k with waitDel := true }) (pgDrain c) 0x4C 1)))))

/-- A vector instruction that is the next of the program of a core, not halted and with its clocks, adds its issue cycles to the
core's 64-bit count (VEC page, 0x4C), as R167 gives them, and the program goes on with the next one. A per-lane operation
writes its result in each enabled lane of VD, by the integer rule of DT or the FP32 rule, from VA and VB or IMM; another lane
keeps its value or becomes 0 as MZ says; every other register, mask, scalar and byte of memory is unchanged. NOP changes
nothing else. A comparison writes a mask, a selection takes VA or VB by lane, and a reduction of the enabled lanes writes a
scalar. -/
def Obligations.VectorAlu : Prop :=
  ∀ (s : State) (c : Nat) (f : VF) (p : VRun), Settled s → coreClocks s = true → (coreAt s c).vrun = some p → (coreAt s c).loops = [] →
    p.first ≤ (coreAt s c).pc + 1 → (coreAt s c).pc + 1 < p.first + p.count → halted s c = false ∨ (coreAt s c).step = true →
    let k := coreAt s c
    let dt := f.dt.toNat
    let a := fun i => k.lane f.va.toNat i
    let b := fun i => k.laneB f i
    let d := fun i => k.lane f.vd.toNat i
    let gives := fun (op : Nat) (o : Host.Outcome State Fault Refusal) (post : Core → Prop) =>
      progWord s c k.pc = some (vWord op f) → ∃ t, o = .next t ∧ post (coreAt t c) ∧ (coreAt t c).pc = k.pc + 1 ∧ (coreAt t c).vrun = k.vrun ∧
        (coreAt t c).step = false ∧ t.coreMem = s.coreMem ∧ t.progs = s.progs ∧ t.reqs = s.reqs ∧
        (∀ e, e ≠ c → coreAt t e = coreAt s e) ∧
        rget64 t (pgVec c) 0x4C = (rget64 s (pgVec c) 0x4C + vecCycles op) % 2 ^ 64
    let vd := fun (g : Nat → W32) (z : Core) => z.m = k.m ∧ z.sc = k.sc ∧
      (∀ i, i < 64 → z.lane f.vd.toNat i = if k.enabled f i then g i else if f.mz then 0 else d i) ∧
      (∀ r i, r ≠ f.vd.toNat → i < 64 → z.lane r i = k.lane r i)
    let sc := fun (w : W32) (z : Core) => z.m = k.m ∧ z.v = k.v ∧
      (∀ j, z.scalar j = if j = f.vd.toNat % 16 ∧ j ≠ 0 then w else k.scalar j)
    let two := fun (h : Int → Int → Int) (g : Fv → Fv → W32) (i : Nat) => if isFp f then g (f32v (a i)) (f32v (b i))
      else ofLane (intFit dt f.sat (h (laneInt dt (a i)) (laneInt dt (b i))))
    let one := fun (h : Int → Int) (g : Fv → W32) (i : Nat) => if isFp f then g (f32v (a i))
      else ofLane (intFit dt f.sat (h (laneInt dt (a i))))
    let bits := fun (h : W32 → W32 → W32) (i : Nat) => ofLane (intOf dt (h (a i) (b i)).toNat)
    let shift := fun (h : Int → Nat → Int) (i : Nat) => ofLane (intFit dt f.sat (h (laneInt dt (a i)) ((b i).toNat % 32)))
    gives 0x00 (exec (.vecNop c f) s) (fun z => z.v = k.v ∧ z.m = k.m ∧ z.sc = k.sc) ∧
    gives 0x10 (exec (.vadd c f) s) (vd (two (· + ·) fpAdd)) ∧ gives 0x11 (exec (.vsub c f) s) (vd (two (· - ·) fpSub)) ∧
    gives 0x12 (exec (.vmul c f) s) (vd (two (· * ·) fpMul)) ∧ gives 0x14 (exec (.vmin c f) s) (vd (two min fpMin)) ∧
    gives 0x15 (exec (.vmax c f) s) (vd (two max fpMax)) ∧
    gives 0x13 (exec (.vmac c f) s) (vd fun i => if isFp f then fpFma (f32v (a i)) (f32v (b i)) (f32v (d i))
      else ofLane (intFit dt f.sat (laneInt dt (d i) + laneInt dt (a i) * laneInt dt (b i)))) ∧
    gives 0x16 (exec (.vabs c f) s) (vd (one (fun v => v.natAbs) fun v => f32Of v.abs)) ∧
    gives 0x17 (exec (.vneg c f) s) (vd (one (fun v => -v) fun v => f32Of v.neg)) ∧
    gives 0x18 (exec (.vdot c f) s) (vd fun i => ofLane (intFit 5 f.sat (laneInt 5 (d i) +
      (byteInt (a i) 0 * byteInt (b i) 0 + byteInt (a i) 1 * byteInt (b i) 1 + byteInt (a i) 2 * byteInt (b i) 2 +
        byteInt (a i) 3 * byteInt (b i) 3)))) ∧
    gives 0x19 (exec (.vdiv c f) s) (vd fun i => fpDiv (f32v (a i)) (f32v (b i))) ∧
    gives 0x20 (exec (.vand c f) s) (vd (bits (· &&& ·))) ∧ gives 0x21 (exec (.vor c f) s) (vd (bits (· ||| ·))) ∧
    gives 0x22 (exec (.vxor c f) s) (vd (bits (· ^^^ ·))) ∧ gives 0x23 (exec (.vshl c f) s) (vd (shift fun v n => v * 2 ^ n)) ∧
    gives 0x24 (exec (.vshra c f) s) (vd (shift fun v n => v / 2 ^ n)) ∧
    gives 0x25 (exec (.vshrr c f) s) (vd (shift fun v n => divAway v (2 ^ n))) ∧
    gives 0x28 (exec (.vcmp c f) s) (fun z => z.v = k.v ∧ z.sc = k.sc ∧ (∀ j, j ≠ f.vd.toNat % 8 → z.mask j = k.mask j) ∧
      (∀ i, i < 64 → f.vd.toNat % 8 ≠ 0 → (z.mask (f.vd.toNat % 8)).getLsbD i =
        if k.enabled f i then condHolds (f.imm.toNat % 8) (laneOrder k f i)
        else !f.mz && (k.mask (f.vd.toNat % 8)).getLsbD i)) ∧
    gives 0x29 (exec (.vsel c f) s) (fun z => z.m = k.m ∧ z.sc = k.sc ∧
      (∀ i, i < 64 → z.lane f.vd.toNat i = if k.enabled f i then a i else b i) ∧
      (∀ r i, r ≠ f.vd.toNat → i < 64 → z.lane r i = k.lane r i)) ∧
    gives 0x30 (exec (.vexp c f) s) (vd fun i => fpExp (f32v (a i))) ∧ gives 0x31 (exec (.vlog c f) s) (vd fun i => fpLog (f32v (a i))) ∧
    gives 0x32 (exec (.vrcp c f) s) (vd fun i => fpRcp (f32v (a i))) ∧ gives 0x33 (exec (.vrsqrt c f) s) (vd fun i => fpRsqrt (f32v (a i))) ∧
    gives 0x34 (exec (.vtanh c f) s) (vd fun i => fpTanh (f32v (a i))) ∧ gives 0x35 (exec (.verf c f) s) (vd fun i => fpErf (f32v (a i))) ∧
    gives 0x36 (exec (.vsqrt c f) s) (vd fun i => fpSqrt (f32v (a i))) ∧
    gives 0x38 (exec (.vrsum c f) s) (sc ((tree (fun x y => if isFp f then fpAdd (f32v x) (f32v y)
      else ofLane (intFit 5 f.sat (laneInt 5 x + laneInt 5 y))) 6
      ((List.range 64).map fun i => if k.enabled f i then a i else 0)).headD 0)) ∧
    gives 0x39 (exec (.vrmax c f) s) (sc ((tree (fun x y => if isFp f then fpMax (f32v x) (f32v y)
      else ofLane (max (laneInt 5 x) (laneInt 5 y))) 6
      ((List.range 64).map fun i => if k.enabled f i then a i else if isFp f then f32Inf true else 0x80000000)).headD 0)) ∧
    gives 0x3A (exec (.vramax c f) s) (sc ((tree (fun x y => fpMax (f32v x) (f32v y)) 6 ((List.range 64).map fun i =>
      if k.enabled f i then (if f32v (a i) = .nan then 0 else f32Of (f32v (a i)).abs) else 0)).headD 0)) ∧
    gives 0x3B (exec (.vslide c f) s) (vd fun i => let j := (i : Int) - sext 7 (f.imm.toNat % 128)
      if 0 ≤ j ∧ j < 64 then a j.toNat else 0) ∧
    gives 0x3C (exec (.vbcast c f) s) (vd fun _ => a (f.imm.toNat % 64)) ∧
    gives 0x40 (exec (.vcvt c f) s) (vd fun i => convert dt (f.imm.toNat % 16) f.sat (a i))

/-- Of an instruction that is the next of the program of a core, not halted and with its clocks. A load whose enabled lanes'
elements all lie in the core's memories, aligned, fills those lanes from them, and a store writes them, outside any loop; one
with an element elsewhere faults: the program stops at that instruction, whose index is held at 0x48, and no byte of the
core's memory changes. SMOV and SADD write a scalar. LOOP begins or skips its body, and a fifth level faults. END ends a row
program and goes to the next valid row or frees the tile, counted at ACC 0x4C and DRAIN 0x44, or marks the end program as
ended on its core. In a running pass VQNT gives each enabled lane the code of its element under the pass's scale, and 0 where
it has none. VQEND, where a way to every other member's die is left, ends the pass once every other member's post has come,
and waits, counted once at 0x70, until then. VQSCALE gives the scale of the running pass or of the one that would begin, and
where there is none any value, which is the model's choice (log 11). A post on its way to a member of its group joins that
slot's posts, on the same die or where the way is open, and waits where it is not. That a faulting store writes nothing, that
VQNT leaves a widened code in its lane, and that VQEND starts a pass that nothing has started, are the model's reading (log
32), and so is that a post waits for its way (log 43). -/
def Obligations.VectorMemQuant : Prop :=
  ∀ (s : State) (c : Nat) (f : VF) (p : VRun), Settled s → coreClocks s = true → (coreAt s c).vrun = some p → halted s c = false ∨ (coreAt s c).step = true →
    let k := coreAt s c
    let more := p.first ≤ k.pc + 1 ∧ k.pc + 1 < p.first + p.count
    let dt := f.dt.toNat
    let counted := fun (t : State) => rget64 t (pgVec c) 0x4C =
      (rget64 s (pgVec c) 0x4C + if progWord s c k.pc = some (vWord 0x05 f) then 2 else 1) % 2 ^ 64
    let is := fun (op : Nat) => progWord s c k.pc = some (vWord op f)
    let goesOn := fun (o : Host.Outcome State Fault Refusal) (post : State → Prop) => k.loops = [] → more →
      ∃ t, o = .next t ∧ (coreAt t c).pc = k.pc + 1 ∧ (coreAt t c).vrun = k.vrun ∧ (coreAt t c).loops = [] ∧
        (coreAt t c).m = k.m ∧ counted t ∧ post t
    let faults := fun (o : Host.Outcome State Fault Refusal) => pageReach s (pgVec c) = .ok → ∃ t, o = .next t ∧ (coreAt t c).vrun = none ∧
      t.coreMem = s.coreMem ∧ counted t ∧ rget t (pgVec c) 0x48 = put 14 0 k.pc ∧ bit (rget t (pgVec c) 0x18) 0 = true
    let fills := fun (g : Nat → W32) (t : State) => t.coreMem = s.coreMem ∧ (coreAt t c).sc = k.sc ∧
      (∀ i, i < 64 → (coreAt t c).lane f.vd.toNat i =
        if k.enabled f i then g i else if f.mz then 0 else k.lane f.vd.toNat i) ∧
      (∀ r i, r ≠ f.vd.toNat → i < 64 → (coreAt t c).lane r i = k.lane r i)
    let scalarIs := fun (w : W32) (t : State) => t.coreMem = s.coreMem ∧ (coreAt t c).v = k.v ∧
      (∀ j, (coreAt t c).scalar j = if j = f.vd.toNat % 16 ∧ j ≠ 0 then w else k.scalar j)
    let at_ := fun (r : Nat) (i : Nat) => elemAddr dt (k.base f r) i
    let lut := fun (i : Nat) => (k.scalar (f.imm.toNat % 16)).toNat + 4 * ((k.lane f.va.toNat i).toNat % 256)
    (is 0x01 → let fits := ∀ i, i < 64 → k.enabled f i = true → accessOk (at_ f.va.toNat i) (elemBytes dt) = true
      (fits → goesOn (exec (.vld c f) s) (fills fun i => widen dt (coreElem s c dt (k.base f f.va.toNat) i))) ∧
      (¬fits → faults (exec (.vld c f) s))) ∧
    (is 0x02 → let fits := ∀ i, i < 64 → k.enabled f i = true → accessOk (at_ f.vb.toNat i) (elemBytes dt) = true
      (fits → goesOn (exec (.vst c f) s) fun t => (coreAt t c).v = k.v ∧ (coreAt t c).sc = k.sc ∧
        (∀ i, i < 64 → k.enabled f i = true → fmtWidth dt ∈ [4, 8, 16, 32] →
          coreElem t c dt (k.base f f.vb.toNat) i = narrow dt f.sat (k.lane f.va.toNat i) % 2 ^ fmtWidth dt) ∧
        (∀ x, (∀ i, i < 64 → k.enabled f i = true → x < coreKey c (at_ f.vb.toNat i) ∨
          coreKey c (at_ f.vb.toNat i) + elemBytes dt ≤ x) → tget 0 t.coreMem x = tget 0 s.coreMem x)) ∧
      (¬fits → faults (exec (.vst c f) s))) ∧
    (is 0x03 → let fits := (∀ i, i < 64 → k.enabled f i = false) ∨ accessOk (k.base f f.va.toNat) (elemBytes dt) = true
      (fits → goesOn (exec (.vldb c f) s) (fills fun _ => widen dt (coreElem s c dt (k.base f f.va.toNat) 0))) ∧
      (¬fits → faults (exec (.vldb c f) s))) ∧
    (is 0x05 → let fits := ∀ i, i < 64 → k.enabled f i = true → accessOk (lut i) 4 = true
      (fits → goesOn (exec (.vlut c f) s) (fills fun i => BitVec.ofNat 32 (numAt s.coreMem (coreKey c (lut i)) 4))) ∧
      (¬fits → faults (exec (.vlut c f) s))) ∧
    (is 0x50 → goesOn (exec (.smov c f) s) (scalarIs f.imm)) ∧
    (is 0x51 → goesOn (exec (.sadd c f) s) (scalarIs (k.scalar (f.va.toNat % 16) + f.imm))) ∧
    (is 0x52 → let n := fld f.imm 31 16
      let times := fld f.imm 15 0
      (times ≠ 0 → n ≠ 0 → k.loops.length < 4 → more → ∃ t, exec (.vloop c f) s = .next t ∧ counted t ∧
        coreAt t c = { k with loops := ⟨k.pc + 1, k.pc + 1 + n, times⟩ :: k.loops, pc := k.pc + 1, step := false }) ∧
      (times = 0 ∨ n = 0 → k.loops = [] → p.first ≤ k.pc + 1 + n → k.pc + 1 + n < p.first + p.count → ∃ t,
        exec (.vloop c f) s = .next t ∧ counted t ∧
        coreAt t c = { k with pc := k.pc + 1 + n, step := false }) ∧
      (times ≠ 0 → n ≠ 0 → 4 ≤ k.loops.length → faults (exec (.vloop c f) s))) ∧
    (is 0x5F → ∀ w, runAt s p.run = some w →
      (∀ n x, p.tile = some n → tget none k.tiles n = some x → x.run = p.run →
        (x.row + 1 < blockRows w.rows x.mb → ∃ t, exec (.vend c f) s = .next t ∧ counted t ∧ coreAt t c =
          { k with vrun := none, loops := [], step := false, tiles := tset none k.tiles n (some { x with row := x.row + 1 }) }) ∧
        (blockRows w.rows x.mb ≤ x.row + 1 → ∃ t, exec (.vend c f) s = .next t ∧ counted t ∧ (coreAt t c).vrun = none ∧
          (coreAt t c).tiles = tdel k.tiles n ∧
          ((x.run, x.mb, x.nt) ∈ (coreAt t c).deliver ∨ (x.run, x.mb, x.nt) ∈ (coreAt t c).heldOut) ∧
          (rget t (pgAcc c) 0x4C).toNat = min ((rget s (pgAcc c) 0x4C).toNat + 1) 0xFFFFFFFF ∧
          (rget t (pgDrain c) 0x44).toNat = min ((rget s (pgDrain c) 0x44).toNat + 1) 0xFFFFFFFF)) ∧
      (p.tile = none → (setCores (w.man s) (w.rc s) w.set).contains (c % 16) = true → ∃ t, exec (.vend c f) s = .next t ∧
        counted t ∧ (coreAt t c).vrun = none ∧ (∀ v, runAt t p.run = some v → c ∈ v.ended))) ∧
    (∀ w q, runAt s p.run = some w → let n := f.imm.toNat % 65536
      let key := qKey w.slot c n
      let off := fun (i : Nat) => ((k.scalar (f.vb.toNat % 16)).toNat + i) % 2 ^ 32
      (is 0x41 → qslotAt s key = some q → q.isOpen = true → goesOn (exec (.vqnt c f) s) fun t => (coreAt t c).sc = k.sc ∧
        (∀ i, i < 64 → (coreAt t c).lane f.vd.toNat i = if k.enabled f i then
            (match passScale q (scaleIdx q.cfg (off i)) with
              | none => 0
              | some x => widen q.cfg.fmt (((quantise q.cfg.fmt (f32v (k.lane f.va.toNat i)) (f32v x)).1 % 2 ^ fmtWidth q.cfg.fmt).toNat))
          else if f.mz then 0 else k.lane f.vd.toNat i) ∧
        (∃ q', qslotAt t key = some q' ∧ q'.isOpen = true ∧ q'.hist = q.hist ∧ q'.passes = q.passes ∧
          (∀ i, i < 64 → k.enabled f i = true → tget false q'.elems (off i) = true))) ∧
      (is 0x42 → let u := passStart s w.slot c n w.req
        let others := otherMembers s w.slot c q.cfg
        let ended := fun (t : State) => ∃ m, (m = 1 ∨ m = max 1 (ceilDiv q.elems.length 64)) ∧
          rget64 t (pgVec c) 0x4C = (rget64 s (pgVec c) 0x4C + m) % 2 ^ 64
        let here := fun (e : Nat × Nat) => q.posts.any fun x => x.core == e.1 && x.pass == w.req
        qslotAt u key = some q → lostDests s (c / 16) ((others.map fun e => e.1 / 16).filter fun d => d != c / 16) = [] →
        (others = [] → k.loops = [] → more → ∃ t q', exec (.vqend c f) s = .next t ∧ (coreAt t c).pc = k.pc + 1 ∧ ended t ∧
          qslotAt t key = some q' ∧ q'.isOpen = false ∧ q'.passes = (if q.lost then 1 else q.passes + 1)) ∧
        (others.all here = true → k.loops = [] → more → ∃ t, exec (.vqend c f) s = .next t ∧ (coreAt t c).pc = k.pc + 1 ∧
          ended t ∧ (∀ q', qslotAt t key = some q' → q'.isOpen = false)) ∧
        (others.all here = false → ∃ t q', exec (.vqend c f) s = .next t ∧ (coreAt t c).pc = k.pc ∧
          (coreAt t c).vrun = k.vrun ∧ qslotAt t key = some q' ∧ q'.posted = true ∧ q'.isOpen = true ∧
          (rget t (pgVec c) 0x70).toNat = if q.waited then (rget s (pgVec c) 0x70).toNat
            else min ((rget s (pgVec c) 0x70).toNat + 1) 0xFFFFFFFF)) ∧
      (is 0x43 → qslotAt s key = some q →
        let scale := if q.clear = true ∧ q.isOpen = false then none
          else passScale (if q.isOpen then q else { q with hist := histFrom s c q }) 0
        (∀ x, scale = some x → goesOn (exec (.vqscale c f) s) fun t => scalarIs x t ∧ t.free = s.free) ∧
        (scale = none → goesOn (exec (.vqscale c f) s) fun t => t.coreMem = s.coreMem ∧ (coreAt t c).v = k.v ∧
          t.free = s.free + 1 ∧ (∀ j, j ≠ f.vd.toNat % 16 → (coreAt t c).scalar j = k.scalar j)))) ∧
    (∀ (n src pass key : Nat) (amaxes : List W32) (reset : Bool) (q r : QSlot) (post : Post),
      let isIt := fun (p : Post) => p.core == c && p.pass == pass && p.amax == amaxes && p.reset == reset
      let target := qKey (key / 262144) c n
      let from_ := src / 16
      (s.qslots.find? fun e => e.1 / 1024 % 256 == src && (match e.2 with
        | some q => q.sent.any isIt && (match qslotAt s (qKey (e.1 / 262144) c n) with
            | some r => r.cfg.group == q.cfg.group
            | none => false)
        | none => false)) = some (key, some q) →
      q.sent.find? isIt = some post → qslotAt s key = some q → qslotAt s target = some r → key ≠ target →
      (from_ = c / 16 ∨ reaches s from_ (c / 16) = true ∧ wayOpen s .ctrl from_ [c / 16] = true →
        ∃ t r' q', exec (.quantPostArrival c n src amaxes pass reset) s = .next t ∧ qslotAt t target = some r' ∧
          r'.posts = r.posts ++ [{ post with core := src }] ∧ qslotAt t key = some q' ∧ q'.sent = q.sent.erase post ∧
          t.cores = s.cores) ∧
      (from_ ≠ c / 16 → reaches s from_ (c / 16) = true → wayOpen s .ctrl from_ [c / 16] = false →
        exec (.quantPostArrival c n src amaxes pass reset) s = .next s))
end

