-- ==== Sys2Proof/Laws/State.lean ====
section
/-! SUPPORT. What each base update of the state leaves and sets, one lemma for each field, so that no proof unfolds a record
update. -/

namespace Sys2Proof.Laws

open Sys2Proof Sys2Proof.Machine

variable (s : State)

/-! ### rset -/

@[simp] theorem rset_part (p off : Nat) (v : W32) : (rset s p off v).part = s.part := rfl
@[simp] theorem rset_hiShadow (p off : Nat) (v : W32) : (rset s p off v).hiShadow = s.hiShadow := rfl
@[simp] theorem rset_loStage (p off : Nat) (v : W32) : (rset s p off v).loStage = s.loStage := rfl
@[simp] theorem rset_evq (p off : Nat) (v : W32) : (rset s p off v).evq = s.evq := rfl
@[simp] theorem rset_bus (p off : Nat) (v : W32) : (rset s p off v).bus = s.bus := rfl
@[simp] theorem rset_belv (p off : Nat) (v : W32) : (rset s p off v).belv = s.belv := rfl
@[simp] theorem rset_entries (p off : Nat) (v : W32) : (rset s p off v).entries = s.entries := rfl
@[simp] theorem rset_groups (p off : Nat) (v : W32) : (rset s p off v).groups = s.groups := rfl
@[simp] theorem rset_wins (p off : Nat) (v : W32) : (rset s p off v).wins = s.wins := rfl
@[simp] theorem rset_nextWin (p off : Nat) (v : W32) : (rset s p off v).nextWin = s.nextWin := rfl
@[simp] theorem rset_streams (p off : Nat) (v : W32) : (rset s p off v).streams = s.streams := rfl
@[simp] theorem rset_lp11 (p off : Nat) (v : W32) : (rset s p off v).lp11 = s.lp11 := rfl
@[simp] theorem rset_ingest (p off : Nat) (v : W32) : (rset s p off v).ingest = s.ingest := rfl
@[simp] theorem rset_rings (p off : Nat) (v : W32) : (rset s p off v).rings = s.rings := rfl
@[simp] theorem rset_rr (p off : Nat) (v : W32) : (rset s p off v).rr = s.rr := rfl
@[simp] theorem rset_reqs (p off : Nat) (v : W32) : (rset s p off v).reqs = s.reqs := rfl
@[simp] theorem rset_nextReq (p off : Nat) (v : W32) : (rset s p off v).nextReq = s.nextReq := rfl
@[simp] theorem rset_launches (p off : Nat) (v : W32) : (rset s p off v).launches = s.launches := rfl
@[simp] theorem rset_taskRuns (p off : Nat) (v : W32) : (rset s p off v).taskRuns = s.taskRuns := rfl
@[simp] theorem rset_sums (p off : Nat) (v : W32) : (rset s p off v).sums = s.sums := rfl
@[simp] theorem rset_hostMem (p off : Nat) (v : W32) : (rset s p off v).hostMem = s.hostMem := rfl
@[simp] theorem rset_slots (p off : Nat) (v : W32) : (rset s p off v).slots = s.slots := rfl
@[simp] theorem rset_prov (p off : Nat) (v : W32) : (rset s p off v).prov = s.prov := rfl
@[simp] theorem rset_epoch (p off : Nat) (v : W32) : (rset s p off v).epoch = s.epoch := rfl
@[simp] theorem rset_suspended (p off : Nat) (v : W32) : (rset s p off v).suspended = s.suspended := rfl
@[simp] theorem rset_applied (p off : Nat) (v : W32) : (rset s p off v).applied = s.applied := rfl
@[simp] theorem rset_staging (p off : Nat) (v : W32) : (rset s p off v).staging = s.staging := rfl
@[simp] theorem rset_engines (p off : Nat) (v : W32) : (rset s p off v).engines = s.engines := rfl
@[simp] theorem rset_plates (p off : Nat) (v : W32) : (rset s p off v).plates = s.plates := rfl
@[simp] theorem rset_weights (p off : Nat) (v : W32) : (rset s p off v).weights = s.weights := rfl
@[simp] theorem rset_banks (p off : Nat) (v : W32) : (rset s p off v).banks = s.banks := rfl
@[simp] theorem rset_slc (p off : Nat) (v : W32) : (rset s p off v).slc = s.slc := rfl
@[simp] theorem rset_retain (p off : Nat) (v : W32) : (rset s p off v).retain = s.retain := rfl
@[simp] theorem rset_dies (p off : Nat) (v : W32) : (rset s p off v).dies = s.dies := rfl
@[simp] theorem rset_cores (p off : Nat) (v : W32) : (rset s p off v).cores = s.cores := rfl
@[simp] theorem rset_coreMem (p off : Nat) (v : W32) : (rset s p off v).coreMem = s.coreMem := rfl
@[simp] theorem rset_progs (p off : Nat) (v : W32) : (rset s p off v).progs = s.progs := rfl
@[simp] theorem rset_qslots (p off : Nat) (v : W32) : (rset s p off v).qslots = s.qslots := rfl
@[simp] theorem rset_ctrs (p off : Nat) (v : W32) : (rset s p off v).ctrs = s.ctrs := rfl
@[simp] theorem rset_runs (p off : Nat) (v : W32) : (rset s p off v).runs = s.runs := rfl
@[simp] theorem rset_nextRun (p off : Nat) (v : W32) : (rset s p off v).nextRun = s.nextRun := rfl
@[simp] theorem rset_feeds (p off : Nat) (v : W32) : (rset s p off v).feeds = s.feeds := rfl
@[simp] theorem rset_slow (p off : Nat) (v : W32) : (rset s p off v).slow = s.slow := rfl
@[simp] theorem rset_links (p off : Nat) (v : W32) : (rset s p off v).links = s.links := rfl
@[simp] theorem rset_xfers (p off : Nat) (v : W32) : (rset s p off v).xfers = s.xfers := rfl
@[simp] theorem rset_nextXfer (p off : Nat) (v : W32) : (rset s p off v).nextXfer = s.nextXfer := rfl
@[simp] theorem rset_flows (p off : Nat) (v : W32) : (rset s p off v).flows = s.flows := rfl
@[simp] theorem rset_landing (p off : Nat) (v : W32) : (rset s p off v).landing = s.landing := rfl
@[simp] theorem rset_flitAt (p off : Nat) (v : W32) : (rset s p off v).flitAt = s.flitAt := rfl
@[simp] theorem rset_pkgMem (p off : Nat) (v : W32) : (rset s p off v).pkgMem = s.pkgMem := rfl
@[simp] theorem rset_poison (p off : Nat) (v : W32) : (rset s p off v).poison = s.poison := rfl
@[simp] theorem rset_scrubAt (p off : Nat) (v : W32) : (rset s p off v).scrubAt = s.scrubAt := rfl
@[simp] theorem rset_units (p off : Nat) (v : W32) : (rset s p off v).units = s.units := rfl
@[simp] theorem rset_tpls (p off : Nat) (v : W32) : (rset s p off v).tpls = s.tpls := rfl
@[simp] theorem rset_isu (p off : Nat) (v : W32) : (rset s p off v).isu = s.isu := rfl
@[simp] theorem rset_pwr (p off : Nat) (v : W32) : (rset s p off v).pwr = s.pwr := rfl
@[simp] theorem rset_otp (p off : Nat) (v : W32) : (rset s p off v).otp = s.otp := rfl
@[simp] theorem rset_nv (p off : Nat) (v : W32) : (rset s p off v).nv = s.nv := rfl
@[simp] theorem rset_sec (p off : Nat) (v : W32) : (rset s p off v).sec = s.sec := rfl
@[simp] theorem rset_boot (p off : Nat) (v : W32) : (rset s p off v).boot = s.boot := rfl
@[simp] theorem rset_tap (p off : Nat) (v : W32) : (rset s p off v).tap = s.tap := rfl
@[simp] theorem rset_free (p off : Nat) (v : W32) : (rset s p off v).free = s.free := rfl
@[simp] theorem rset_pending (p off : Nat) (v : W32) : (rset s p off v).pending = s.pending := rfl

/-! ### rset64 -/

@[simp] theorem rset64_part (p off v : Nat) : (rset64 s p off v).part = s.part := rfl
@[simp] theorem rset64_hiShadow (p off v : Nat) : (rset64 s p off v).hiShadow = s.hiShadow := rfl
@[simp] theorem rset64_loStage (p off v : Nat) : (rset64 s p off v).loStage = s.loStage := rfl
@[simp] theorem rset64_evq (p off v : Nat) : (rset64 s p off v).evq = s.evq := rfl
@[simp] theorem rset64_bus (p off v : Nat) : (rset64 s p off v).bus = s.bus := rfl
@[simp] theorem rset64_belv (p off v : Nat) : (rset64 s p off v).belv = s.belv := rfl
@[simp] theorem rset64_entries (p off v : Nat) : (rset64 s p off v).entries = s.entries := rfl
@[simp] theorem rset64_groups (p off v : Nat) : (rset64 s p off v).groups = s.groups := rfl
@[simp] theorem rset64_wins (p off v : Nat) : (rset64 s p off v).wins = s.wins := rfl
@[simp] theorem rset64_nextWin (p off v : Nat) : (rset64 s p off v).nextWin = s.nextWin := rfl
@[simp] theorem rset64_streams (p off v : Nat) : (rset64 s p off v).streams = s.streams := rfl
@[simp] theorem rset64_lp11 (p off v : Nat) : (rset64 s p off v).lp11 = s.lp11 := rfl
@[simp] theorem rset64_ingest (p off v : Nat) : (rset64 s p off v).ingest = s.ingest := rfl
@[simp] theorem rset64_rings (p off v : Nat) : (rset64 s p off v).rings = s.rings := rfl
@[simp] theorem rset64_rr (p off v : Nat) : (rset64 s p off v).rr = s.rr := rfl
@[simp] theorem rset64_reqs (p off v : Nat) : (rset64 s p off v).reqs = s.reqs := rfl
@[simp] theorem rset64_nextReq (p off v : Nat) : (rset64 s p off v).nextReq = s.nextReq := rfl
@[simp] theorem rset64_launches (p off v : Nat) : (rset64 s p off v).launches = s.launches := rfl
@[simp] theorem rset64_taskRuns (p off v : Nat) : (rset64 s p off v).taskRuns = s.taskRuns := rfl
@[simp] theorem rset64_sums (p off v : Nat) : (rset64 s p off v).sums = s.sums := rfl
@[simp] theorem rset64_hostMem (p off v : Nat) : (rset64 s p off v).hostMem = s.hostMem := rfl
@[simp] theorem rset64_slots (p off v : Nat) : (rset64 s p off v).slots = s.slots := rfl
@[simp] theorem rset64_prov (p off v : Nat) : (rset64 s p off v).prov = s.prov := rfl
@[simp] theorem rset64_epoch (p off v : Nat) : (rset64 s p off v).epoch = s.epoch := rfl
@[simp] theorem rset64_suspended (p off v : Nat) : (rset64 s p off v).suspended = s.suspended := rfl
@[simp] theorem rset64_applied (p off v : Nat) : (rset64 s p off v).applied = s.applied := rfl
@[simp] theorem rset64_staging (p off v : Nat) : (rset64 s p off v).staging = s.staging := rfl
@[simp] theorem rset64_engines (p off v : Nat) : (rset64 s p off v).engines = s.engines := rfl
@[simp] theorem rset64_plates (p off v : Nat) : (rset64 s p off v).plates = s.plates := rfl
@[simp] theorem rset64_weights (p off v : Nat) : (rset64 s p off v).weights = s.weights := rfl
@[simp] theorem rset64_banks (p off v : Nat) : (rset64 s p off v).banks = s.banks := rfl
@[simp] theorem rset64_slc (p off v : Nat) : (rset64 s p off v).slc = s.slc := rfl
@[simp] theorem rset64_retain (p off v : Nat) : (rset64 s p off v).retain = s.retain := rfl
@[simp] theorem rset64_dies (p off v : Nat) : (rset64 s p off v).dies = s.dies := rfl
@[simp] theorem rset64_cores (p off v : Nat) : (rset64 s p off v).cores = s.cores := rfl
@[simp] theorem rset64_coreMem (p off v : Nat) : (rset64 s p off v).coreMem = s.coreMem := rfl
@[simp] theorem rset64_progs (p off v : Nat) : (rset64 s p off v).progs = s.progs := rfl
@[simp] theorem rset64_qslots (p off v : Nat) : (rset64 s p off v).qslots = s.qslots := rfl
@[simp] theorem rset64_ctrs (p off v : Nat) : (rset64 s p off v).ctrs = s.ctrs := rfl
@[simp] theorem rset64_runs (p off v : Nat) : (rset64 s p off v).runs = s.runs := rfl
@[simp] theorem rset64_nextRun (p off v : Nat) : (rset64 s p off v).nextRun = s.nextRun := rfl
@[simp] theorem rset64_feeds (p off v : Nat) : (rset64 s p off v).feeds = s.feeds := rfl
@[simp] theorem rset64_slow (p off v : Nat) : (rset64 s p off v).slow = s.slow := rfl
@[simp] theorem rset64_links (p off v : Nat) : (rset64 s p off v).links = s.links := rfl
@[simp] theorem rset64_xfers (p off v : Nat) : (rset64 s p off v).xfers = s.xfers := rfl
@[simp] theorem rset64_nextXfer (p off v : Nat) : (rset64 s p off v).nextXfer = s.nextXfer := rfl
@[simp] theorem rset64_flows (p off v : Nat) : (rset64 s p off v).flows = s.flows := rfl
@[simp] theorem rset64_landing (p off v : Nat) : (rset64 s p off v).landing = s.landing := rfl
@[simp] theorem rset64_flitAt (p off v : Nat) : (rset64 s p off v).flitAt = s.flitAt := rfl
@[simp] theorem rset64_pkgMem (p off v : Nat) : (rset64 s p off v).pkgMem = s.pkgMem := rfl
@[simp] theorem rset64_poison (p off v : Nat) : (rset64 s p off v).poison = s.poison := rfl
@[simp] theorem rset64_scrubAt (p off v : Nat) : (rset64 s p off v).scrubAt = s.scrubAt := rfl
@[simp] theorem rset64_units (p off v : Nat) : (rset64 s p off v).units = s.units := rfl
@[simp] theorem rset64_tpls (p off v : Nat) : (rset64 s p off v).tpls = s.tpls := rfl
@[simp] theorem rset64_isu (p off v : Nat) : (rset64 s p off v).isu = s.isu := rfl
@[simp] theorem rset64_pwr (p off v : Nat) : (rset64 s p off v).pwr = s.pwr := rfl
@[simp] theorem rset64_otp (p off v : Nat) : (rset64 s p off v).otp = s.otp := rfl
@[simp] theorem rset64_nv (p off v : Nat) : (rset64 s p off v).nv = s.nv := rfl
@[simp] theorem rset64_sec (p off v : Nat) : (rset64 s p off v).sec = s.sec := rfl
@[simp] theorem rset64_boot (p off v : Nat) : (rset64 s p off v).boot = s.boot := rfl
@[simp] theorem rset64_tap (p off v : Nat) : (rset64 s p off v).tap = s.tap := rfl
@[simp] theorem rset64_free (p off v : Nat) : (rset64 s p off v).free = s.free := rfl
@[simp] theorem rset64_pending (p off v : Nat) : (rset64 s p off v).pending = s.pending := rfl

/-! ### count -/

@[simp] theorem count_part (p off n : Nat) : (count s p off n).part = s.part := rfl
@[simp] theorem count_hiShadow (p off n : Nat) : (count s p off n).hiShadow = s.hiShadow := rfl
@[simp] theorem count_loStage (p off n : Nat) : (count s p off n).loStage = s.loStage := rfl
@[simp] theorem count_evq (p off n : Nat) : (count s p off n).evq = s.evq := rfl
@[simp] theorem count_bus (p off n : Nat) : (count s p off n).bus = s.bus := rfl
@[simp] theorem count_belv (p off n : Nat) : (count s p off n).belv = s.belv := rfl
@[simp] theorem count_entries (p off n : Nat) : (count s p off n).entries = s.entries := rfl
@[simp] theorem count_groups (p off n : Nat) : (count s p off n).groups = s.groups := rfl
@[simp] theorem count_wins (p off n : Nat) : (count s p off n).wins = s.wins := rfl
@[simp] theorem count_nextWin (p off n : Nat) : (count s p off n).nextWin = s.nextWin := rfl
@[simp] theorem count_streams (p off n : Nat) : (count s p off n).streams = s.streams := rfl
@[simp] theorem count_lp11 (p off n : Nat) : (count s p off n).lp11 = s.lp11 := rfl
@[simp] theorem count_ingest (p off n : Nat) : (count s p off n).ingest = s.ingest := rfl
@[simp] theorem count_rings (p off n : Nat) : (count s p off n).rings = s.rings := rfl
@[simp] theorem count_rr (p off n : Nat) : (count s p off n).rr = s.rr := rfl
@[simp] theorem count_reqs (p off n : Nat) : (count s p off n).reqs = s.reqs := rfl
@[simp] theorem count_nextReq (p off n : Nat) : (count s p off n).nextReq = s.nextReq := rfl
@[simp] theorem count_launches (p off n : Nat) : (count s p off n).launches = s.launches := rfl
@[simp] theorem count_taskRuns (p off n : Nat) : (count s p off n).taskRuns = s.taskRuns := rfl
@[simp] theorem count_sums (p off n : Nat) : (count s p off n).sums = s.sums := rfl
@[simp] theorem count_hostMem (p off n : Nat) : (count s p off n).hostMem = s.hostMem := rfl
@[simp] theorem count_slots (p off n : Nat) : (count s p off n).slots = s.slots := rfl
@[simp] theorem count_prov (p off n : Nat) : (count s p off n).prov = s.prov := rfl
@[simp] theorem count_epoch (p off n : Nat) : (count s p off n).epoch = s.epoch := rfl
@[simp] theorem count_suspended (p off n : Nat) : (count s p off n).suspended = s.suspended := rfl
@[simp] theorem count_applied (p off n : Nat) : (count s p off n).applied = s.applied := rfl
@[simp] theorem count_staging (p off n : Nat) : (count s p off n).staging = s.staging := rfl
@[simp] theorem count_engines (p off n : Nat) : (count s p off n).engines = s.engines := rfl
@[simp] theorem count_plates (p off n : Nat) : (count s p off n).plates = s.plates := rfl
@[simp] theorem count_weights (p off n : Nat) : (count s p off n).weights = s.weights := rfl
@[simp] theorem count_banks (p off n : Nat) : (count s p off n).banks = s.banks := rfl
@[simp] theorem count_slc (p off n : Nat) : (count s p off n).slc = s.slc := rfl
@[simp] theorem count_retain (p off n : Nat) : (count s p off n).retain = s.retain := rfl
@[simp] theorem count_dies (p off n : Nat) : (count s p off n).dies = s.dies := rfl
@[simp] theorem count_cores (p off n : Nat) : (count s p off n).cores = s.cores := rfl
@[simp] theorem count_coreMem (p off n : Nat) : (count s p off n).coreMem = s.coreMem := rfl
@[simp] theorem count_progs (p off n : Nat) : (count s p off n).progs = s.progs := rfl
@[simp] theorem count_qslots (p off n : Nat) : (count s p off n).qslots = s.qslots := rfl
@[simp] theorem count_ctrs (p off n : Nat) : (count s p off n).ctrs = s.ctrs := rfl
@[simp] theorem count_runs (p off n : Nat) : (count s p off n).runs = s.runs := rfl
@[simp] theorem count_nextRun (p off n : Nat) : (count s p off n).nextRun = s.nextRun := rfl
@[simp] theorem count_feeds (p off n : Nat) : (count s p off n).feeds = s.feeds := rfl
@[simp] theorem count_slow (p off n : Nat) : (count s p off n).slow = s.slow := rfl
@[simp] theorem count_links (p off n : Nat) : (count s p off n).links = s.links := rfl
@[simp] theorem count_xfers (p off n : Nat) : (count s p off n).xfers = s.xfers := rfl
@[simp] theorem count_nextXfer (p off n : Nat) : (count s p off n).nextXfer = s.nextXfer := rfl
@[simp] theorem count_flows (p off n : Nat) : (count s p off n).flows = s.flows := rfl
@[simp] theorem count_landing (p off n : Nat) : (count s p off n).landing = s.landing := rfl
@[simp] theorem count_flitAt (p off n : Nat) : (count s p off n).flitAt = s.flitAt := rfl
@[simp] theorem count_pkgMem (p off n : Nat) : (count s p off n).pkgMem = s.pkgMem := rfl
@[simp] theorem count_poison (p off n : Nat) : (count s p off n).poison = s.poison := rfl
@[simp] theorem count_scrubAt (p off n : Nat) : (count s p off n).scrubAt = s.scrubAt := rfl
@[simp] theorem count_units (p off n : Nat) : (count s p off n).units = s.units := rfl
@[simp] theorem count_tpls (p off n : Nat) : (count s p off n).tpls = s.tpls := rfl
@[simp] theorem count_isu (p off n : Nat) : (count s p off n).isu = s.isu := rfl
@[simp] theorem count_pwr (p off n : Nat) : (count s p off n).pwr = s.pwr := rfl
@[simp] theorem count_otp (p off n : Nat) : (count s p off n).otp = s.otp := rfl
@[simp] theorem count_nv (p off n : Nat) : (count s p off n).nv = s.nv := rfl
@[simp] theorem count_sec (p off n : Nat) : (count s p off n).sec = s.sec := rfl
@[simp] theorem count_boot (p off n : Nat) : (count s p off n).boot = s.boot := rfl
@[simp] theorem count_tap (p off n : Nat) : (count s p off n).tap = s.tap := rfl
@[simp] theorem count_free (p off n : Nat) : (count s p off n).free = s.free := rfl
@[simp] theorem count_pending (p off n : Nat) : (count s p off n).pending = s.pending := rfl

/-! ### count64 -/

@[simp] theorem count64_part (p off n : Nat) : (count64 s p off n).part = s.part := rset64_part s p off _
@[simp] theorem count64_hiShadow (p off n : Nat) : (count64 s p off n).hiShadow = s.hiShadow := rset64_hiShadow s p off _
@[simp] theorem count64_loStage (p off n : Nat) : (count64 s p off n).loStage = s.loStage := rset64_loStage s p off _
@[simp] theorem count64_evq (p off n : Nat) : (count64 s p off n).evq = s.evq := rset64_evq s p off _
@[simp] theorem count64_bus (p off n : Nat) : (count64 s p off n).bus = s.bus := rset64_bus s p off _
@[simp] theorem count64_belv (p off n : Nat) : (count64 s p off n).belv = s.belv := rset64_belv s p off _
@[simp] theorem count64_entries (p off n : Nat) : (count64 s p off n).entries = s.entries := rset64_entries s p off _
@[simp] theorem count64_groups (p off n : Nat) : (count64 s p off n).groups = s.groups := rset64_groups s p off _
@[simp] theorem count64_wins (p off n : Nat) : (count64 s p off n).wins = s.wins := rset64_wins s p off _
@[simp] theorem count64_nextWin (p off n : Nat) : (count64 s p off n).nextWin = s.nextWin := rset64_nextWin s p off _
@[simp] theorem count64_streams (p off n : Nat) : (count64 s p off n).streams = s.streams := rset64_streams s p off _
@[simp] theorem count64_lp11 (p off n : Nat) : (count64 s p off n).lp11 = s.lp11 := rset64_lp11 s p off _
@[simp] theorem count64_ingest (p off n : Nat) : (count64 s p off n).ingest = s.ingest := rset64_ingest s p off _
@[simp] theorem count64_rings (p off n : Nat) : (count64 s p off n).rings = s.rings := rset64_rings s p off _
@[simp] theorem count64_rr (p off n : Nat) : (count64 s p off n).rr = s.rr := rset64_rr s p off _
@[simp] theorem count64_reqs (p off n : Nat) : (count64 s p off n).reqs = s.reqs := rset64_reqs s p off _
@[simp] theorem count64_nextReq (p off n : Nat) : (count64 s p off n).nextReq = s.nextReq := rset64_nextReq s p off _
@[simp] theorem count64_launches (p off n : Nat) : (count64 s p off n).launches = s.launches := rset64_launches s p off _
@[simp] theorem count64_taskRuns (p off n : Nat) : (count64 s p off n).taskRuns = s.taskRuns := rset64_taskRuns s p off _
@[simp] theorem count64_sums (p off n : Nat) : (count64 s p off n).sums = s.sums := rset64_sums s p off _
@[simp] theorem count64_hostMem (p off n : Nat) : (count64 s p off n).hostMem = s.hostMem := rset64_hostMem s p off _
@[simp] theorem count64_slots (p off n : Nat) : (count64 s p off n).slots = s.slots := rset64_slots s p off _
@[simp] theorem count64_prov (p off n : Nat) : (count64 s p off n).prov = s.prov := rset64_prov s p off _
@[simp] theorem count64_epoch (p off n : Nat) : (count64 s p off n).epoch = s.epoch := rset64_epoch s p off _
@[simp] theorem count64_suspended (p off n : Nat) : (count64 s p off n).suspended = s.suspended := rset64_suspended s p off _
@[simp] theorem count64_applied (p off n : Nat) : (count64 s p off n).applied = s.applied := rset64_applied s p off _
@[simp] theorem count64_staging (p off n : Nat) : (count64 s p off n).staging = s.staging := rset64_staging s p off _
@[simp] theorem count64_engines (p off n : Nat) : (count64 s p off n).engines = s.engines := rset64_engines s p off _
@[simp] theorem count64_plates (p off n : Nat) : (count64 s p off n).plates = s.plates := rset64_plates s p off _
@[simp] theorem count64_weights (p off n : Nat) : (count64 s p off n).weights = s.weights := rset64_weights s p off _
@[simp] theorem count64_banks (p off n : Nat) : (count64 s p off n).banks = s.banks := rset64_banks s p off _
@[simp] theorem count64_slc (p off n : Nat) : (count64 s p off n).slc = s.slc := rset64_slc s p off _
@[simp] theorem count64_retain (p off n : Nat) : (count64 s p off n).retain = s.retain := rset64_retain s p off _
@[simp] theorem count64_dies (p off n : Nat) : (count64 s p off n).dies = s.dies := rset64_dies s p off _
@[simp] theorem count64_cores (p off n : Nat) : (count64 s p off n).cores = s.cores := rset64_cores s p off _
@[simp] theorem count64_coreMem (p off n : Nat) : (count64 s p off n).coreMem = s.coreMem := rset64_coreMem s p off _
@[simp] theorem count64_progs (p off n : Nat) : (count64 s p off n).progs = s.progs := rset64_progs s p off _
@[simp] theorem count64_qslots (p off n : Nat) : (count64 s p off n).qslots = s.qslots := rset64_qslots s p off _
@[simp] theorem count64_ctrs (p off n : Nat) : (count64 s p off n).ctrs = s.ctrs := rset64_ctrs s p off _
@[simp] theorem count64_runs (p off n : Nat) : (count64 s p off n).runs = s.runs := rset64_runs s p off _
@[simp] theorem count64_nextRun (p off n : Nat) : (count64 s p off n).nextRun = s.nextRun := rset64_nextRun s p off _
@[simp] theorem count64_feeds (p off n : Nat) : (count64 s p off n).feeds = s.feeds := rset64_feeds s p off _
@[simp] theorem count64_slow (p off n : Nat) : (count64 s p off n).slow = s.slow := rset64_slow s p off _
@[simp] theorem count64_links (p off n : Nat) : (count64 s p off n).links = s.links := rset64_links s p off _
@[simp] theorem count64_xfers (p off n : Nat) : (count64 s p off n).xfers = s.xfers := rset64_xfers s p off _
@[simp] theorem count64_nextXfer (p off n : Nat) : (count64 s p off n).nextXfer = s.nextXfer := rset64_nextXfer s p off _
@[simp] theorem count64_flows (p off n : Nat) : (count64 s p off n).flows = s.flows := rset64_flows s p off _
@[simp] theorem count64_landing (p off n : Nat) : (count64 s p off n).landing = s.landing := rset64_landing s p off _
@[simp] theorem count64_flitAt (p off n : Nat) : (count64 s p off n).flitAt = s.flitAt := rset64_flitAt s p off _
@[simp] theorem count64_pkgMem (p off n : Nat) : (count64 s p off n).pkgMem = s.pkgMem := rset64_pkgMem s p off _
@[simp] theorem count64_poison (p off n : Nat) : (count64 s p off n).poison = s.poison := rset64_poison s p off _
@[simp] theorem count64_scrubAt (p off n : Nat) : (count64 s p off n).scrubAt = s.scrubAt := rset64_scrubAt s p off _
@[simp] theorem count64_units (p off n : Nat) : (count64 s p off n).units = s.units := rset64_units s p off _
@[simp] theorem count64_tpls (p off n : Nat) : (count64 s p off n).tpls = s.tpls := rset64_tpls s p off _
@[simp] theorem count64_isu (p off n : Nat) : (count64 s p off n).isu = s.isu := rset64_isu s p off _
@[simp] theorem count64_pwr (p off n : Nat) : (count64 s p off n).pwr = s.pwr := rset64_pwr s p off _
@[simp] theorem count64_otp (p off n : Nat) : (count64 s p off n).otp = s.otp := rset64_otp s p off _
@[simp] theorem count64_nv (p off n : Nat) : (count64 s p off n).nv = s.nv := rset64_nv s p off _
@[simp] theorem count64_sec (p off n : Nat) : (count64 s p off n).sec = s.sec := rset64_sec s p off _
@[simp] theorem count64_boot (p off n : Nat) : (count64 s p off n).boot = s.boot := rset64_boot s p off _
@[simp] theorem count64_tap (p off n : Nat) : (count64 s p off n).tap = s.tap := rset64_tap s p off _
@[simp] theorem count64_free (p off n : Nat) : (count64 s p off n).free = s.free := rset64_free s p off _
@[simp] theorem count64_pending (p off n : Nat) : (count64 s p off n).pending = s.pending := rset64_pending s p off _

/-! ### ev -/

@[simp] theorem ev_part (p b c : Nat) : (ev s p b c).part = s.part := rfl
@[simp] theorem ev_regs (p b c : Nat) : (ev s p b c).regs = s.regs := rfl
@[simp] theorem ev_hiShadow (p b c : Nat) : (ev s p b c).hiShadow = s.hiShadow := rfl
@[simp] theorem ev_loStage (p b c : Nat) : (ev s p b c).loStage = s.loStage := rfl
@[simp] theorem ev_evq (p b c : Nat) : (ev s p b c).evq = s.evq ++ [⟨p, b, c⟩] := rfl
@[simp] theorem ev_bus (p b c : Nat) : (ev s p b c).bus = s.bus := rfl
@[simp] theorem ev_belv (p b c : Nat) : (ev s p b c).belv = s.belv := rfl
@[simp] theorem ev_entries (p b c : Nat) : (ev s p b c).entries = s.entries := rfl
@[simp] theorem ev_groups (p b c : Nat) : (ev s p b c).groups = s.groups := rfl
@[simp] theorem ev_wins (p b c : Nat) : (ev s p b c).wins = s.wins := rfl
@[simp] theorem ev_nextWin (p b c : Nat) : (ev s p b c).nextWin = s.nextWin := rfl
@[simp] theorem ev_streams (p b c : Nat) : (ev s p b c).streams = s.streams := rfl
@[simp] theorem ev_lp11 (p b c : Nat) : (ev s p b c).lp11 = s.lp11 := rfl
@[simp] theorem ev_ingest (p b c : Nat) : (ev s p b c).ingest = s.ingest := rfl
@[simp] theorem ev_rings (p b c : Nat) : (ev s p b c).rings = s.rings := rfl
@[simp] theorem ev_rr (p b c : Nat) : (ev s p b c).rr = s.rr := rfl
@[simp] theorem ev_reqs (p b c : Nat) : (ev s p b c).reqs = s.reqs := rfl
@[simp] theorem ev_nextReq (p b c : Nat) : (ev s p b c).nextReq = s.nextReq := rfl
@[simp] theorem ev_launches (p b c : Nat) : (ev s p b c).launches = s.launches := rfl
@[simp] theorem ev_taskRuns (p b c : Nat) : (ev s p b c).taskRuns = s.taskRuns := rfl
@[simp] theorem ev_sums (p b c : Nat) : (ev s p b c).sums = s.sums := rfl
@[simp] theorem ev_hostMem (p b c : Nat) : (ev s p b c).hostMem = s.hostMem := rfl
@[simp] theorem ev_slots (p b c : Nat) : (ev s p b c).slots = s.slots := rfl
@[simp] theorem ev_prov (p b c : Nat) : (ev s p b c).prov = s.prov := rfl
@[simp] theorem ev_epoch (p b c : Nat) : (ev s p b c).epoch = s.epoch := rfl
@[simp] theorem ev_suspended (p b c : Nat) : (ev s p b c).suspended = s.suspended := rfl
@[simp] theorem ev_applied (p b c : Nat) : (ev s p b c).applied = s.applied := rfl
@[simp] theorem ev_staging (p b c : Nat) : (ev s p b c).staging = s.staging := rfl
@[simp] theorem ev_engines (p b c : Nat) : (ev s p b c).engines = s.engines := rfl
@[simp] theorem ev_plates (p b c : Nat) : (ev s p b c).plates = s.plates := rfl
@[simp] theorem ev_weights (p b c : Nat) : (ev s p b c).weights = s.weights := rfl
@[simp] theorem ev_banks (p b c : Nat) : (ev s p b c).banks = s.banks := rfl
@[simp] theorem ev_slc (p b c : Nat) : (ev s p b c).slc = s.slc := rfl
@[simp] theorem ev_retain (p b c : Nat) : (ev s p b c).retain = s.retain := rfl
@[simp] theorem ev_dies (p b c : Nat) : (ev s p b c).dies = s.dies := rfl
@[simp] theorem ev_cores (p b c : Nat) : (ev s p b c).cores = s.cores := rfl
@[simp] theorem ev_coreMem (p b c : Nat) : (ev s p b c).coreMem = s.coreMem := rfl
@[simp] theorem ev_progs (p b c : Nat) : (ev s p b c).progs = s.progs := rfl
@[simp] theorem ev_qslots (p b c : Nat) : (ev s p b c).qslots = s.qslots := rfl
@[simp] theorem ev_ctrs (p b c : Nat) : (ev s p b c).ctrs = s.ctrs := rfl
@[simp] theorem ev_runs (p b c : Nat) : (ev s p b c).runs = s.runs := rfl
@[simp] theorem ev_nextRun (p b c : Nat) : (ev s p b c).nextRun = s.nextRun := rfl
@[simp] theorem ev_feeds (p b c : Nat) : (ev s p b c).feeds = s.feeds := rfl
@[simp] theorem ev_slow (p b c : Nat) : (ev s p b c).slow = s.slow := rfl
@[simp] theorem ev_links (p b c : Nat) : (ev s p b c).links = s.links := rfl
@[simp] theorem ev_xfers (p b c : Nat) : (ev s p b c).xfers = s.xfers := rfl
@[simp] theorem ev_nextXfer (p b c : Nat) : (ev s p b c).nextXfer = s.nextXfer := rfl
@[simp] theorem ev_flows (p b c : Nat) : (ev s p b c).flows = s.flows := rfl
@[simp] theorem ev_landing (p b c : Nat) : (ev s p b c).landing = s.landing := rfl
@[simp] theorem ev_flitAt (p b c : Nat) : (ev s p b c).flitAt = s.flitAt := rfl
@[simp] theorem ev_pkgMem (p b c : Nat) : (ev s p b c).pkgMem = s.pkgMem := rfl
@[simp] theorem ev_poison (p b c : Nat) : (ev s p b c).poison = s.poison := rfl
@[simp] theorem ev_scrubAt (p b c : Nat) : (ev s p b c).scrubAt = s.scrubAt := rfl
@[simp] theorem ev_units (p b c : Nat) : (ev s p b c).units = s.units := rfl
@[simp] theorem ev_tpls (p b c : Nat) : (ev s p b c).tpls = s.tpls := rfl
@[simp] theorem ev_isu (p b c : Nat) : (ev s p b c).isu = s.isu := rfl
@[simp] theorem ev_pwr (p b c : Nat) : (ev s p b c).pwr = s.pwr := rfl
@[simp] theorem ev_otp (p b c : Nat) : (ev s p b c).otp = s.otp := rfl
@[simp] theorem ev_nv (p b c : Nat) : (ev s p b c).nv = s.nv := rfl
@[simp] theorem ev_sec (p b c : Nat) : (ev s p b c).sec = s.sec := rfl
@[simp] theorem ev_boot (p b c : Nat) : (ev s p b c).boot = s.boot := rfl
@[simp] theorem ev_tap (p b c : Nat) : (ev s p b c).tap = s.tap := rfl
@[simp] theorem ev_free (p b c : Nat) : (ev s p b c).free = s.free := rfl
@[simp] theorem ev_pending (p b c : Nat) : (ev s p b c).pending = s.pending := rfl

/-! ### answer -/

@[simp] theorem answer_part (c : Cpl) (l : List W32) : (answer s c l).part = s.part := rfl
@[simp] theorem answer_regs (c : Cpl) (l : List W32) : (answer s c l).regs = s.regs := rfl
@[simp] theorem answer_hiShadow (c : Cpl) (l : List W32) : (answer s c l).hiShadow = s.hiShadow := rfl
@[simp] theorem answer_loStage (c : Cpl) (l : List W32) : (answer s c l).loStage = s.loStage := rfl
@[simp] theorem answer_evq (c : Cpl) (l : List W32) : (answer s c l).evq = s.evq := rfl
@[simp] theorem answer_belv (c : Cpl) (l : List W32) : (answer s c l).belv = s.belv := rfl
@[simp] theorem answer_entries (c : Cpl) (l : List W32) : (answer s c l).entries = s.entries := rfl
@[simp] theorem answer_groups (c : Cpl) (l : List W32) : (answer s c l).groups = s.groups := rfl
@[simp] theorem answer_wins (c : Cpl) (l : List W32) : (answer s c l).wins = s.wins := rfl
@[simp] theorem answer_nextWin (c : Cpl) (l : List W32) : (answer s c l).nextWin = s.nextWin := rfl
@[simp] theorem answer_streams (c : Cpl) (l : List W32) : (answer s c l).streams = s.streams := rfl
@[simp] theorem answer_lp11 (c : Cpl) (l : List W32) : (answer s c l).lp11 = s.lp11 := rfl
@[simp] theorem answer_ingest (c : Cpl) (l : List W32) : (answer s c l).ingest = s.ingest := rfl
@[simp] theorem answer_rings (c : Cpl) (l : List W32) : (answer s c l).rings = s.rings := rfl
@[simp] theorem answer_rr (c : Cpl) (l : List W32) : (answer s c l).rr = s.rr := rfl
@[simp] theorem answer_reqs (c : Cpl) (l : List W32) : (answer s c l).reqs = s.reqs := rfl
@[simp] theorem answer_nextReq (c : Cpl) (l : List W32) : (answer s c l).nextReq = s.nextReq := rfl
@[simp] theorem answer_launches (c : Cpl) (l : List W32) : (answer s c l).launches = s.launches := rfl
@[simp] theorem answer_taskRuns (c : Cpl) (l : List W32) : (answer s c l).taskRuns = s.taskRuns := rfl
@[simp] theorem answer_sums (c : Cpl) (l : List W32) : (answer s c l).sums = s.sums := rfl
@[simp] theorem answer_hostMem (c : Cpl) (l : List W32) : (answer s c l).hostMem = s.hostMem := rfl
@[simp] theorem answer_slots (c : Cpl) (l : List W32) : (answer s c l).slots = s.slots := rfl
@[simp] theorem answer_prov (c : Cpl) (l : List W32) : (answer s c l).prov = s.prov := rfl
@[simp] theorem answer_epoch (c : Cpl) (l : List W32) : (answer s c l).epoch = s.epoch := rfl
@[simp] theorem answer_suspended (c : Cpl) (l : List W32) : (answer s c l).suspended = s.suspended := rfl
@[simp] theorem answer_applied (c : Cpl) (l : List W32) : (answer s c l).applied = s.applied := rfl
@[simp] theorem answer_staging (c : Cpl) (l : List W32) : (answer s c l).staging = s.staging := rfl
@[simp] theorem answer_engines (c : Cpl) (l : List W32) : (answer s c l).engines = s.engines := rfl
@[simp] theorem answer_plates (c : Cpl) (l : List W32) : (answer s c l).plates = s.plates := rfl
@[simp] theorem answer_weights (c : Cpl) (l : List W32) : (answer s c l).weights = s.weights := rfl
@[simp] theorem answer_banks (c : Cpl) (l : List W32) : (answer s c l).banks = s.banks := rfl
@[simp] theorem answer_slc (c : Cpl) (l : List W32) : (answer s c l).slc = s.slc := rfl
@[simp] theorem answer_retain (c : Cpl) (l : List W32) : (answer s c l).retain = s.retain := rfl
@[simp] theorem answer_dies (c : Cpl) (l : List W32) : (answer s c l).dies = s.dies := rfl
@[simp] theorem answer_cores (c : Cpl) (l : List W32) : (answer s c l).cores = s.cores := rfl
@[simp] theorem answer_coreMem (c : Cpl) (l : List W32) : (answer s c l).coreMem = s.coreMem := rfl
@[simp] theorem answer_progs (c : Cpl) (l : List W32) : (answer s c l).progs = s.progs := rfl
@[simp] theorem answer_qslots (c : Cpl) (l : List W32) : (answer s c l).qslots = s.qslots := rfl
@[simp] theorem answer_ctrs (c : Cpl) (l : List W32) : (answer s c l).ctrs = s.ctrs := rfl
@[simp] theorem answer_runs (c : Cpl) (l : List W32) : (answer s c l).runs = s.runs := rfl
@[simp] theorem answer_nextRun (c : Cpl) (l : List W32) : (answer s c l).nextRun = s.nextRun := rfl
@[simp] theorem answer_feeds (c : Cpl) (l : List W32) : (answer s c l).feeds = s.feeds := rfl
@[simp] theorem answer_slow (c : Cpl) (l : List W32) : (answer s c l).slow = s.slow := rfl
@[simp] theorem answer_links (c : Cpl) (l : List W32) : (answer s c l).links = s.links := rfl
@[simp] theorem answer_xfers (c : Cpl) (l : List W32) : (answer s c l).xfers = s.xfers := rfl
@[simp] theorem answer_nextXfer (c : Cpl) (l : List W32) : (answer s c l).nextXfer = s.nextXfer := rfl
@[simp] theorem answer_flows (c : Cpl) (l : List W32) : (answer s c l).flows = s.flows := rfl
@[simp] theorem answer_landing (c : Cpl) (l : List W32) : (answer s c l).landing = s.landing := rfl
@[simp] theorem answer_flitAt (c : Cpl) (l : List W32) : (answer s c l).flitAt = s.flitAt := rfl
@[simp] theorem answer_pkgMem (c : Cpl) (l : List W32) : (answer s c l).pkgMem = s.pkgMem := rfl
@[simp] theorem answer_poison (c : Cpl) (l : List W32) : (answer s c l).poison = s.poison := rfl
@[simp] theorem answer_scrubAt (c : Cpl) (l : List W32) : (answer s c l).scrubAt = s.scrubAt := rfl
@[simp] theorem answer_units (c : Cpl) (l : List W32) : (answer s c l).units = s.units := rfl
@[simp] theorem answer_tpls (c : Cpl) (l : List W32) : (answer s c l).tpls = s.tpls := rfl
@[simp] theorem answer_isu (c : Cpl) (l : List W32) : (answer s c l).isu = s.isu := rfl
@[simp] theorem answer_pwr (c : Cpl) (l : List W32) : (answer s c l).pwr = s.pwr := rfl
@[simp] theorem answer_otp (c : Cpl) (l : List W32) : (answer s c l).otp = s.otp := rfl
@[simp] theorem answer_nv (c : Cpl) (l : List W32) : (answer s c l).nv = s.nv := rfl
@[simp] theorem answer_sec (c : Cpl) (l : List W32) : (answer s c l).sec = s.sec := rfl
@[simp] theorem answer_boot (c : Cpl) (l : List W32) : (answer s c l).boot = s.boot := rfl
@[simp] theorem answer_tap (c : Cpl) (l : List W32) : (answer s c l).tap = s.tap := rfl
@[simp] theorem answer_free (c : Cpl) (l : List W32) : (answer s c l).free = s.free := rfl
@[simp] theorem answer_pending (c : Cpl) (l : List W32) : (answer s c l).pending = s.pending := rfl

/-! ### putDie -/

@[simp] theorem putDie_part (d : Nat) (v : Die) : (putDie s d v).part = s.part := rfl
@[simp] theorem putDie_regs (d : Nat) (v : Die) : (putDie s d v).regs = s.regs := rfl
@[simp] theorem putDie_hiShadow (d : Nat) (v : Die) : (putDie s d v).hiShadow = s.hiShadow := rfl
@[simp] theorem putDie_loStage (d : Nat) (v : Die) : (putDie s d v).loStage = s.loStage := rfl
@[simp] theorem putDie_evq (d : Nat) (v : Die) : (putDie s d v).evq = s.evq := rfl
@[simp] theorem putDie_bus (d : Nat) (v : Die) : (putDie s d v).bus = s.bus := rfl
@[simp] theorem putDie_belv (d : Nat) (v : Die) : (putDie s d v).belv = s.belv := rfl
@[simp] theorem putDie_entries (d : Nat) (v : Die) : (putDie s d v).entries = s.entries := rfl
@[simp] theorem putDie_groups (d : Nat) (v : Die) : (putDie s d v).groups = s.groups := rfl
@[simp] theorem putDie_wins (d : Nat) (v : Die) : (putDie s d v).wins = s.wins := rfl
@[simp] theorem putDie_nextWin (d : Nat) (v : Die) : (putDie s d v).nextWin = s.nextWin := rfl
@[simp] theorem putDie_streams (d : Nat) (v : Die) : (putDie s d v).streams = s.streams := rfl
@[simp] theorem putDie_lp11 (d : Nat) (v : Die) : (putDie s d v).lp11 = s.lp11 := rfl
@[simp] theorem putDie_ingest (d : Nat) (v : Die) : (putDie s d v).ingest = s.ingest := rfl
@[simp] theorem putDie_rings (d : Nat) (v : Die) : (putDie s d v).rings = s.rings := rfl
@[simp] theorem putDie_rr (d : Nat) (v : Die) : (putDie s d v).rr = s.rr := rfl
@[simp] theorem putDie_reqs (d : Nat) (v : Die) : (putDie s d v).reqs = s.reqs := rfl
@[simp] theorem putDie_nextReq (d : Nat) (v : Die) : (putDie s d v).nextReq = s.nextReq := rfl
@[simp] theorem putDie_launches (d : Nat) (v : Die) : (putDie s d v).launches = s.launches := rfl
@[simp] theorem putDie_taskRuns (d : Nat) (v : Die) : (putDie s d v).taskRuns = s.taskRuns := rfl
@[simp] theorem putDie_sums (d : Nat) (v : Die) : (putDie s d v).sums = s.sums := rfl
@[simp] theorem putDie_hostMem (d : Nat) (v : Die) : (putDie s d v).hostMem = s.hostMem := rfl
@[simp] theorem putDie_slots (d : Nat) (v : Die) : (putDie s d v).slots = s.slots := rfl
@[simp] theorem putDie_prov (d : Nat) (v : Die) : (putDie s d v).prov = s.prov := rfl
@[simp] theorem putDie_epoch (d : Nat) (v : Die) : (putDie s d v).epoch = s.epoch := rfl
@[simp] theorem putDie_suspended (d : Nat) (v : Die) : (putDie s d v).suspended = s.suspended := rfl
@[simp] theorem putDie_applied (d : Nat) (v : Die) : (putDie s d v).applied = s.applied := rfl
@[simp] theorem putDie_staging (d : Nat) (v : Die) : (putDie s d v).staging = s.staging := rfl
@[simp] theorem putDie_engines (d : Nat) (v : Die) : (putDie s d v).engines = s.engines := rfl
@[simp] theorem putDie_plates (d : Nat) (v : Die) : (putDie s d v).plates = s.plates := rfl
@[simp] theorem putDie_weights (d : Nat) (v : Die) : (putDie s d v).weights = s.weights := rfl
@[simp] theorem putDie_banks (d : Nat) (v : Die) : (putDie s d v).banks = s.banks := rfl
@[simp] theorem putDie_slc (d : Nat) (v : Die) : (putDie s d v).slc = s.slc := rfl
@[simp] theorem putDie_retain (d : Nat) (v : Die) : (putDie s d v).retain = s.retain := rfl
@[simp] theorem putDie_cores (d : Nat) (v : Die) : (putDie s d v).cores = s.cores := rfl
@[simp] theorem putDie_coreMem (d : Nat) (v : Die) : (putDie s d v).coreMem = s.coreMem := rfl
@[simp] theorem putDie_progs (d : Nat) (v : Die) : (putDie s d v).progs = s.progs := rfl
@[simp] theorem putDie_qslots (d : Nat) (v : Die) : (putDie s d v).qslots = s.qslots := rfl
@[simp] theorem putDie_ctrs (d : Nat) (v : Die) : (putDie s d v).ctrs = s.ctrs := rfl
@[simp] theorem putDie_runs (d : Nat) (v : Die) : (putDie s d v).runs = s.runs := rfl
@[simp] theorem putDie_nextRun (d : Nat) (v : Die) : (putDie s d v).nextRun = s.nextRun := rfl
@[simp] theorem putDie_feeds (d : Nat) (v : Die) : (putDie s d v).feeds = s.feeds := rfl
@[simp] theorem putDie_slow (d : Nat) (v : Die) : (putDie s d v).slow = s.slow := rfl
@[simp] theorem putDie_links (d : Nat) (v : Die) : (putDie s d v).links = s.links := rfl
@[simp] theorem putDie_xfers (d : Nat) (v : Die) : (putDie s d v).xfers = s.xfers := rfl
@[simp] theorem putDie_nextXfer (d : Nat) (v : Die) : (putDie s d v).nextXfer = s.nextXfer := rfl
@[simp] theorem putDie_flows (d : Nat) (v : Die) : (putDie s d v).flows = s.flows := rfl
@[simp] theorem putDie_landing (d : Nat) (v : Die) : (putDie s d v).landing = s.landing := rfl
@[simp] theorem putDie_flitAt (d : Nat) (v : Die) : (putDie s d v).flitAt = s.flitAt := rfl
@[simp] theorem putDie_pkgMem (d : Nat) (v : Die) : (putDie s d v).pkgMem = s.pkgMem := rfl
@[simp] theorem putDie_poison (d : Nat) (v : Die) : (putDie s d v).poison = s.poison := rfl
@[simp] theorem putDie_scrubAt (d : Nat) (v : Die) : (putDie s d v).scrubAt = s.scrubAt := rfl
@[simp] theorem putDie_units (d : Nat) (v : Die) : (putDie s d v).units = s.units := rfl
@[simp] theorem putDie_tpls (d : Nat) (v : Die) : (putDie s d v).tpls = s.tpls := rfl
@[simp] theorem putDie_isu (d : Nat) (v : Die) : (putDie s d v).isu = s.isu := rfl
@[simp] theorem putDie_pwr (d : Nat) (v : Die) : (putDie s d v).pwr = s.pwr := rfl
@[simp] theorem putDie_otp (d : Nat) (v : Die) : (putDie s d v).otp = s.otp := rfl
@[simp] theorem putDie_nv (d : Nat) (v : Die) : (putDie s d v).nv = s.nv := rfl
@[simp] theorem putDie_sec (d : Nat) (v : Die) : (putDie s d v).sec = s.sec := rfl
@[simp] theorem putDie_boot (d : Nat) (v : Die) : (putDie s d v).boot = s.boot := rfl
@[simp] theorem putDie_tap (d : Nat) (v : Die) : (putDie s d v).tap = s.tap := rfl
@[simp] theorem putDie_free (d : Nat) (v : Die) : (putDie s d v).free = s.free := rfl
@[simp] theorem putDie_pending (d : Nat) (v : Die) : (putDie s d v).pending = s.pending := rfl

/-! ### putEng -/

@[simp] theorem putEng_part (e : Nat) (v : Engine) : (putEng s e v).part = s.part := rfl
@[simp] theorem putEng_regs (e : Nat) (v : Engine) : (putEng s e v).regs = s.regs := rfl
@[simp] theorem putEng_hiShadow (e : Nat) (v : Engine) : (putEng s e v).hiShadow = s.hiShadow := rfl
@[simp] theorem putEng_loStage (e : Nat) (v : Engine) : (putEng s e v).loStage = s.loStage := rfl
@[simp] theorem putEng_evq (e : Nat) (v : Engine) : (putEng s e v).evq = s.evq := rfl
@[simp] theorem putEng_bus (e : Nat) (v : Engine) : (putEng s e v).bus = s.bus := rfl
@[simp] theorem putEng_belv (e : Nat) (v : Engine) : (putEng s e v).belv = s.belv := rfl
@[simp] theorem putEng_entries (e : Nat) (v : Engine) : (putEng s e v).entries = s.entries := rfl
@[simp] theorem putEng_groups (e : Nat) (v : Engine) : (putEng s e v).groups = s.groups := rfl
@[simp] theorem putEng_wins (e : Nat) (v : Engine) : (putEng s e v).wins = s.wins := rfl
@[simp] theorem putEng_nextWin (e : Nat) (v : Engine) : (putEng s e v).nextWin = s.nextWin := rfl
@[simp] theorem putEng_streams (e : Nat) (v : Engine) : (putEng s e v).streams = s.streams := rfl
@[simp] theorem putEng_lp11 (e : Nat) (v : Engine) : (putEng s e v).lp11 = s.lp11 := rfl
@[simp] theorem putEng_ingest (e : Nat) (v : Engine) : (putEng s e v).ingest = s.ingest := rfl
@[simp] theorem putEng_rings (e : Nat) (v : Engine) : (putEng s e v).rings = s.rings := rfl
@[simp] theorem putEng_rr (e : Nat) (v : Engine) : (putEng s e v).rr = s.rr := rfl
@[simp] theorem putEng_reqs (e : Nat) (v : Engine) : (putEng s e v).reqs = s.reqs := rfl
@[simp] theorem putEng_nextReq (e : Nat) (v : Engine) : (putEng s e v).nextReq = s.nextReq := rfl
@[simp] theorem putEng_launches (e : Nat) (v : Engine) : (putEng s e v).launches = s.launches := rfl
@[simp] theorem putEng_taskRuns (e : Nat) (v : Engine) : (putEng s e v).taskRuns = s.taskRuns := rfl
@[simp] theorem putEng_sums (e : Nat) (v : Engine) : (putEng s e v).sums = s.sums := rfl
@[simp] theorem putEng_hostMem (e : Nat) (v : Engine) : (putEng s e v).hostMem = s.hostMem := rfl
@[simp] theorem putEng_slots (e : Nat) (v : Engine) : (putEng s e v).slots = s.slots := rfl
@[simp] theorem putEng_prov (e : Nat) (v : Engine) : (putEng s e v).prov = s.prov := rfl
@[simp] theorem putEng_epoch (e : Nat) (v : Engine) : (putEng s e v).epoch = s.epoch := rfl
@[simp] theorem putEng_suspended (e : Nat) (v : Engine) : (putEng s e v).suspended = s.suspended := rfl
@[simp] theorem putEng_applied (e : Nat) (v : Engine) : (putEng s e v).applied = s.applied := rfl
@[simp] theorem putEng_staging (e : Nat) (v : Engine) : (putEng s e v).staging = s.staging := rfl
@[simp] theorem putEng_plates (e : Nat) (v : Engine) : (putEng s e v).plates = s.plates := rfl
@[simp] theorem putEng_weights (e : Nat) (v : Engine) : (putEng s e v).weights = s.weights := rfl
@[simp] theorem putEng_banks (e : Nat) (v : Engine) : (putEng s e v).banks = s.banks := rfl
@[simp] theorem putEng_slc (e : Nat) (v : Engine) : (putEng s e v).slc = s.slc := rfl
@[simp] theorem putEng_retain (e : Nat) (v : Engine) : (putEng s e v).retain = s.retain := rfl
@[simp] theorem putEng_dies (e : Nat) (v : Engine) : (putEng s e v).dies = s.dies := rfl
@[simp] theorem putEng_cores (e : Nat) (v : Engine) : (putEng s e v).cores = s.cores := rfl
@[simp] theorem putEng_coreMem (e : Nat) (v : Engine) : (putEng s e v).coreMem = s.coreMem := rfl
@[simp] theorem putEng_progs (e : Nat) (v : Engine) : (putEng s e v).progs = s.progs := rfl
@[simp] theorem putEng_qslots (e : Nat) (v : Engine) : (putEng s e v).qslots = s.qslots := rfl
@[simp] theorem putEng_ctrs (e : Nat) (v : Engine) : (putEng s e v).ctrs = s.ctrs := rfl
@[simp] theorem putEng_runs (e : Nat) (v : Engine) : (putEng s e v).runs = s.runs := rfl
@[simp] theorem putEng_nextRun (e : Nat) (v : Engine) : (putEng s e v).nextRun = s.nextRun := rfl
@[simp] theorem putEng_feeds (e : Nat) (v : Engine) : (putEng s e v).feeds = s.feeds := rfl
@[simp] theorem putEng_slow (e : Nat) (v : Engine) : (putEng s e v).slow = s.slow := rfl
@[simp] theorem putEng_links (e : Nat) (v : Engine) : (putEng s e v).links = s.links := rfl
@[simp] theorem putEng_xfers (e : Nat) (v : Engine) : (putEng s e v).xfers = s.xfers := rfl
@[simp] theorem putEng_nextXfer (e : Nat) (v : Engine) : (putEng s e v).nextXfer = s.nextXfer := rfl
@[simp] theorem putEng_flows (e : Nat) (v : Engine) : (putEng s e v).flows = s.flows := rfl
@[simp] theorem putEng_landing (e : Nat) (v : Engine) : (putEng s e v).landing = s.landing := rfl
@[simp] theorem putEng_flitAt (e : Nat) (v : Engine) : (putEng s e v).flitAt = s.flitAt := rfl
@[simp] theorem putEng_pkgMem (e : Nat) (v : Engine) : (putEng s e v).pkgMem = s.pkgMem := rfl
@[simp] theorem putEng_poison (e : Nat) (v : Engine) : (putEng s e v).poison = s.poison := rfl
@[simp] theorem putEng_scrubAt (e : Nat) (v : Engine) : (putEng s e v).scrubAt = s.scrubAt := rfl
@[simp] theorem putEng_units (e : Nat) (v : Engine) : (putEng s e v).units = s.units := rfl
@[simp] theorem putEng_tpls (e : Nat) (v : Engine) : (putEng s e v).tpls = s.tpls := rfl
@[simp] theorem putEng_isu (e : Nat) (v : Engine) : (putEng s e v).isu = s.isu := rfl
@[simp] theorem putEng_pwr (e : Nat) (v : Engine) : (putEng s e v).pwr = s.pwr := rfl
@[simp] theorem putEng_otp (e : Nat) (v : Engine) : (putEng s e v).otp = s.otp := rfl
@[simp] theorem putEng_nv (e : Nat) (v : Engine) : (putEng s e v).nv = s.nv := rfl
@[simp] theorem putEng_sec (e : Nat) (v : Engine) : (putEng s e v).sec = s.sec := rfl
@[simp] theorem putEng_boot (e : Nat) (v : Engine) : (putEng s e v).boot = s.boot := rfl
@[simp] theorem putEng_tap (e : Nat) (v : Engine) : (putEng s e v).tap = s.tap := rfl
@[simp] theorem putEng_free (e : Nat) (v : Engine) : (putEng s e v).free = s.free := rfl
@[simp] theorem putEng_pending (e : Nat) (v : Engine) : (putEng s e v).pending = s.pending := rfl

/-! ### putCore -/

@[simp] theorem putCore_part (c : Nat) (v : Core) : (putCore s c v).part = s.part := rfl
@[simp] theorem putCore_regs (c : Nat) (v : Core) : (putCore s c v).regs = s.regs := rfl
@[simp] theorem putCore_hiShadow (c : Nat) (v : Core) : (putCore s c v).hiShadow = s.hiShadow := rfl
@[simp] theorem putCore_loStage (c : Nat) (v : Core) : (putCore s c v).loStage = s.loStage := rfl
@[simp] theorem putCore_evq (c : Nat) (v : Core) : (putCore s c v).evq = s.evq := rfl
@[simp] theorem putCore_bus (c : Nat) (v : Core) : (putCore s c v).bus = s.bus := rfl
@[simp] theorem putCore_belv (c : Nat) (v : Core) : (putCore s c v).belv = s.belv := rfl
@[simp] theorem putCore_entries (c : Nat) (v : Core) : (putCore s c v).entries = s.entries := rfl
@[simp] theorem putCore_groups (c : Nat) (v : Core) : (putCore s c v).groups = s.groups := rfl
@[simp] theorem putCore_wins (c : Nat) (v : Core) : (putCore s c v).wins = s.wins := rfl
@[simp] theorem putCore_nextWin (c : Nat) (v : Core) : (putCore s c v).nextWin = s.nextWin := rfl
@[simp] theorem putCore_streams (c : Nat) (v : Core) : (putCore s c v).streams = s.streams := rfl
@[simp] theorem putCore_lp11 (c : Nat) (v : Core) : (putCore s c v).lp11 = s.lp11 := rfl
@[simp] theorem putCore_ingest (c : Nat) (v : Core) : (putCore s c v).ingest = s.ingest := rfl
@[simp] theorem putCore_rings (c : Nat) (v : Core) : (putCore s c v).rings = s.rings := rfl
@[simp] theorem putCore_rr (c : Nat) (v : Core) : (putCore s c v).rr = s.rr := rfl
@[simp] theorem putCore_reqs (c : Nat) (v : Core) : (putCore s c v).reqs = s.reqs := rfl
@[simp] theorem putCore_nextReq (c : Nat) (v : Core) : (putCore s c v).nextReq = s.nextReq := rfl
@[simp] theorem putCore_launches (c : Nat) (v : Core) : (putCore s c v).launches = s.launches := rfl
@[simp] theorem putCore_taskRuns (c : Nat) (v : Core) : (putCore s c v).taskRuns = s.taskRuns := rfl
@[simp] theorem putCore_sums (c : Nat) (v : Core) : (putCore s c v).sums = s.sums := rfl
@[simp] theorem putCore_hostMem (c : Nat) (v : Core) : (putCore s c v).hostMem = s.hostMem := rfl
@[simp] theorem putCore_slots (c : Nat) (v : Core) : (putCore s c v).slots = s.slots := rfl
@[simp] theorem putCore_prov (c : Nat) (v : Core) : (putCore s c v).prov = s.prov := rfl
@[simp] theorem putCore_epoch (c : Nat) (v : Core) : (putCore s c v).epoch = s.epoch := rfl
@[simp] theorem putCore_suspended (c : Nat) (v : Core) : (putCore s c v).suspended = s.suspended := rfl
@[simp] theorem putCore_applied (c : Nat) (v : Core) : (putCore s c v).applied = s.applied := rfl
@[simp] theorem putCore_staging (c : Nat) (v : Core) : (putCore s c v).staging = s.staging := rfl
@[simp] theorem putCore_engines (c : Nat) (v : Core) : (putCore s c v).engines = s.engines := rfl
@[simp] theorem putCore_plates (c : Nat) (v : Core) : (putCore s c v).plates = s.plates := rfl
@[simp] theorem putCore_weights (c : Nat) (v : Core) : (putCore s c v).weights = s.weights := rfl
@[simp] theorem putCore_banks (c : Nat) (v : Core) : (putCore s c v).banks = s.banks := rfl
@[simp] theorem putCore_slc (c : Nat) (v : Core) : (putCore s c v).slc = s.slc := rfl
@[simp] theorem putCore_retain (c : Nat) (v : Core) : (putCore s c v).retain = s.retain := rfl
@[simp] theorem putCore_dies (c : Nat) (v : Core) : (putCore s c v).dies = s.dies := rfl
@[simp] theorem putCore_coreMem (c : Nat) (v : Core) : (putCore s c v).coreMem = s.coreMem := rfl
@[simp] theorem putCore_progs (c : Nat) (v : Core) : (putCore s c v).progs = s.progs := rfl
@[simp] theorem putCore_qslots (c : Nat) (v : Core) : (putCore s c v).qslots = s.qslots := rfl
@[simp] theorem putCore_ctrs (c : Nat) (v : Core) : (putCore s c v).ctrs = s.ctrs := rfl
@[simp] theorem putCore_runs (c : Nat) (v : Core) : (putCore s c v).runs = s.runs := rfl
@[simp] theorem putCore_nextRun (c : Nat) (v : Core) : (putCore s c v).nextRun = s.nextRun := rfl
@[simp] theorem putCore_feeds (c : Nat) (v : Core) : (putCore s c v).feeds = s.feeds := rfl
@[simp] theorem putCore_slow (c : Nat) (v : Core) : (putCore s c v).slow = s.slow := rfl
@[simp] theorem putCore_links (c : Nat) (v : Core) : (putCore s c v).links = s.links := rfl
@[simp] theorem putCore_xfers (c : Nat) (v : Core) : (putCore s c v).xfers = s.xfers := rfl
@[simp] theorem putCore_nextXfer (c : Nat) (v : Core) : (putCore s c v).nextXfer = s.nextXfer := rfl
@[simp] theorem putCore_flows (c : Nat) (v : Core) : (putCore s c v).flows = s.flows := rfl
@[simp] theorem putCore_landing (c : Nat) (v : Core) : (putCore s c v).landing = s.landing := rfl
@[simp] theorem putCore_flitAt (c : Nat) (v : Core) : (putCore s c v).flitAt = s.flitAt := rfl
@[simp] theorem putCore_pkgMem (c : Nat) (v : Core) : (putCore s c v).pkgMem = s.pkgMem := rfl
@[simp] theorem putCore_poison (c : Nat) (v : Core) : (putCore s c v).poison = s.poison := rfl
@[simp] theorem putCore_scrubAt (c : Nat) (v : Core) : (putCore s c v).scrubAt = s.scrubAt := rfl
@[simp] theorem putCore_units (c : Nat) (v : Core) : (putCore s c v).units = s.units := rfl
@[simp] theorem putCore_tpls (c : Nat) (v : Core) : (putCore s c v).tpls = s.tpls := rfl
@[simp] theorem putCore_isu (c : Nat) (v : Core) : (putCore s c v).isu = s.isu := rfl
@[simp] theorem putCore_pwr (c : Nat) (v : Core) : (putCore s c v).pwr = s.pwr := rfl
@[simp] theorem putCore_otp (c : Nat) (v : Core) : (putCore s c v).otp = s.otp := rfl
@[simp] theorem putCore_nv (c : Nat) (v : Core) : (putCore s c v).nv = s.nv := rfl
@[simp] theorem putCore_sec (c : Nat) (v : Core) : (putCore s c v).sec = s.sec := rfl
@[simp] theorem putCore_boot (c : Nat) (v : Core) : (putCore s c v).boot = s.boot := rfl
@[simp] theorem putCore_tap (c : Nat) (v : Core) : (putCore s c v).tap = s.tap := rfl
@[simp] theorem putCore_free (c : Nat) (v : Core) : (putCore s c v).free = s.free := rfl
@[simp] theorem putCore_pending (c : Nat) (v : Core) : (putCore s c v).pending = s.pending := rfl

/-! ### putRing -/

@[simp] theorem putRing_part (n : Nat) (v : Ring) : (putRing s n v).part = s.part := rfl
@[simp] theorem putRing_regs (n : Nat) (v : Ring) : (putRing s n v).regs = s.regs := rfl
@[simp] theorem putRing_hiShadow (n : Nat) (v : Ring) : (putRing s n v).hiShadow = s.hiShadow := rfl
@[simp] theorem putRing_loStage (n : Nat) (v : Ring) : (putRing s n v).loStage = s.loStage := rfl
@[simp] theorem putRing_evq (n : Nat) (v : Ring) : (putRing s n v).evq = s.evq := rfl
@[simp] theorem putRing_bus (n : Nat) (v : Ring) : (putRing s n v).bus = s.bus := rfl
@[simp] theorem putRing_belv (n : Nat) (v : Ring) : (putRing s n v).belv = s.belv := rfl
@[simp] theorem putRing_entries (n : Nat) (v : Ring) : (putRing s n v).entries = s.entries := rfl
@[simp] theorem putRing_groups (n : Nat) (v : Ring) : (putRing s n v).groups = s.groups := rfl
@[simp] theorem putRing_wins (n : Nat) (v : Ring) : (putRing s n v).wins = s.wins := rfl
@[simp] theorem putRing_nextWin (n : Nat) (v : Ring) : (putRing s n v).nextWin = s.nextWin := rfl
@[simp] theorem putRing_streams (n : Nat) (v : Ring) : (putRing s n v).streams = s.streams := rfl
@[simp] theorem putRing_lp11 (n : Nat) (v : Ring) : (putRing s n v).lp11 = s.lp11 := rfl
@[simp] theorem putRing_ingest (n : Nat) (v : Ring) : (putRing s n v).ingest = s.ingest := rfl
@[simp] theorem putRing_rr (n : Nat) (v : Ring) : (putRing s n v).rr = s.rr := rfl
@[simp] theorem putRing_reqs (n : Nat) (v : Ring) : (putRing s n v).reqs = s.reqs := rfl
@[simp] theorem putRing_nextReq (n : Nat) (v : Ring) : (putRing s n v).nextReq = s.nextReq := rfl
@[simp] theorem putRing_launches (n : Nat) (v : Ring) : (putRing s n v).launches = s.launches := rfl
@[simp] theorem putRing_taskRuns (n : Nat) (v : Ring) : (putRing s n v).taskRuns = s.taskRuns := rfl
@[simp] theorem putRing_sums (n : Nat) (v : Ring) : (putRing s n v).sums = s.sums := rfl
@[simp] theorem putRing_hostMem (n : Nat) (v : Ring) : (putRing s n v).hostMem = s.hostMem := rfl
@[simp] theorem putRing_slots (n : Nat) (v : Ring) : (putRing s n v).slots = s.slots := rfl
@[simp] theorem putRing_prov (n : Nat) (v : Ring) : (putRing s n v).prov = s.prov := rfl
@[simp] theorem putRing_epoch (n : Nat) (v : Ring) : (putRing s n v).epoch = s.epoch := rfl
@[simp] theorem putRing_suspended (n : Nat) (v : Ring) : (putRing s n v).suspended = s.suspended := rfl
@[simp] theorem putRing_applied (n : Nat) (v : Ring) : (putRing s n v).applied = s.applied := rfl
@[simp] theorem putRing_staging (n : Nat) (v : Ring) : (putRing s n v).staging = s.staging := rfl
@[simp] theorem putRing_engines (n : Nat) (v : Ring) : (putRing s n v).engines = s.engines := rfl
@[simp] theorem putRing_plates (n : Nat) (v : Ring) : (putRing s n v).plates = s.plates := rfl
@[simp] theorem putRing_weights (n : Nat) (v : Ring) : (putRing s n v).weights = s.weights := rfl
@[simp] theorem putRing_banks (n : Nat) (v : Ring) : (putRing s n v).banks = s.banks := rfl
@[simp] theorem putRing_slc (n : Nat) (v : Ring) : (putRing s n v).slc = s.slc := rfl
@[simp] theorem putRing_retain (n : Nat) (v : Ring) : (putRing s n v).retain = s.retain := rfl
@[simp] theorem putRing_dies (n : Nat) (v : Ring) : (putRing s n v).dies = s.dies := rfl
@[simp] theorem putRing_cores (n : Nat) (v : Ring) : (putRing s n v).cores = s.cores := rfl
@[simp] theorem putRing_coreMem (n : Nat) (v : Ring) : (putRing s n v).coreMem = s.coreMem := rfl
@[simp] theorem putRing_progs (n : Nat) (v : Ring) : (putRing s n v).progs = s.progs := rfl
@[simp] theorem putRing_qslots (n : Nat) (v : Ring) : (putRing s n v).qslots = s.qslots := rfl
@[simp] theorem putRing_ctrs (n : Nat) (v : Ring) : (putRing s n v).ctrs = s.ctrs := rfl
@[simp] theorem putRing_runs (n : Nat) (v : Ring) : (putRing s n v).runs = s.runs := rfl
@[simp] theorem putRing_nextRun (n : Nat) (v : Ring) : (putRing s n v).nextRun = s.nextRun := rfl
@[simp] theorem putRing_feeds (n : Nat) (v : Ring) : (putRing s n v).feeds = s.feeds := rfl
@[simp] theorem putRing_slow (n : Nat) (v : Ring) : (putRing s n v).slow = s.slow := rfl
@[simp] theorem putRing_links (n : Nat) (v : Ring) : (putRing s n v).links = s.links := rfl
@[simp] theorem putRing_xfers (n : Nat) (v : Ring) : (putRing s n v).xfers = s.xfers := rfl
@[simp] theorem putRing_nextXfer (n : Nat) (v : Ring) : (putRing s n v).nextXfer = s.nextXfer := rfl
@[simp] theorem putRing_flows (n : Nat) (v : Ring) : (putRing s n v).flows = s.flows := rfl
@[simp] theorem putRing_landing (n : Nat) (v : Ring) : (putRing s n v).landing = s.landing := rfl
@[simp] theorem putRing_flitAt (n : Nat) (v : Ring) : (putRing s n v).flitAt = s.flitAt := rfl
@[simp] theorem putRing_pkgMem (n : Nat) (v : Ring) : (putRing s n v).pkgMem = s.pkgMem := rfl
@[simp] theorem putRing_poison (n : Nat) (v : Ring) : (putRing s n v).poison = s.poison := rfl
@[simp] theorem putRing_scrubAt (n : Nat) (v : Ring) : (putRing s n v).scrubAt = s.scrubAt := rfl
@[simp] theorem putRing_units (n : Nat) (v : Ring) : (putRing s n v).units = s.units := rfl
@[simp] theorem putRing_tpls (n : Nat) (v : Ring) : (putRing s n v).tpls = s.tpls := rfl
@[simp] theorem putRing_isu (n : Nat) (v : Ring) : (putRing s n v).isu = s.isu := rfl
@[simp] theorem putRing_pwr (n : Nat) (v : Ring) : (putRing s n v).pwr = s.pwr := rfl
@[simp] theorem putRing_otp (n : Nat) (v : Ring) : (putRing s n v).otp = s.otp := rfl
@[simp] theorem putRing_nv (n : Nat) (v : Ring) : (putRing s n v).nv = s.nv := rfl
@[simp] theorem putRing_sec (n : Nat) (v : Ring) : (putRing s n v).sec = s.sec := rfl
@[simp] theorem putRing_boot (n : Nat) (v : Ring) : (putRing s n v).boot = s.boot := rfl
@[simp] theorem putRing_tap (n : Nat) (v : Ring) : (putRing s n v).tap = s.tap := rfl
@[simp] theorem putRing_free (n : Nat) (v : Ring) : (putRing s n v).free = s.free := rfl
@[simp] theorem putRing_pending (n : Nat) (v : Ring) : (putRing s n v).pending = s.pending := rfl

/-! ### putReq -/

@[simp] theorem putReq_part (r : Nat) (v : Option Req) : (putReq s r v).part = s.part := rfl
@[simp] theorem putReq_regs (r : Nat) (v : Option Req) : (putReq s r v).regs = s.regs := rfl
@[simp] theorem putReq_hiShadow (r : Nat) (v : Option Req) : (putReq s r v).hiShadow = s.hiShadow := rfl
@[simp] theorem putReq_loStage (r : Nat) (v : Option Req) : (putReq s r v).loStage = s.loStage := rfl
@[simp] theorem putReq_evq (r : Nat) (v : Option Req) : (putReq s r v).evq = s.evq := rfl
@[simp] theorem putReq_bus (r : Nat) (v : Option Req) : (putReq s r v).bus = s.bus := rfl
@[simp] theorem putReq_belv (r : Nat) (v : Option Req) : (putReq s r v).belv = s.belv := rfl
@[simp] theorem putReq_entries (r : Nat) (v : Option Req) : (putReq s r v).entries = s.entries := rfl
@[simp] theorem putReq_groups (r : Nat) (v : Option Req) : (putReq s r v).groups = s.groups := rfl
@[simp] theorem putReq_wins (r : Nat) (v : Option Req) : (putReq s r v).wins = s.wins := rfl
@[simp] theorem putReq_nextWin (r : Nat) (v : Option Req) : (putReq s r v).nextWin = s.nextWin := rfl
@[simp] theorem putReq_streams (r : Nat) (v : Option Req) : (putReq s r v).streams = s.streams := rfl
@[simp] theorem putReq_lp11 (r : Nat) (v : Option Req) : (putReq s r v).lp11 = s.lp11 := rfl
@[simp] theorem putReq_ingest (r : Nat) (v : Option Req) : (putReq s r v).ingest = s.ingest := rfl
@[simp] theorem putReq_rings (r : Nat) (v : Option Req) : (putReq s r v).rings = s.rings := rfl
@[simp] theorem putReq_rr (r : Nat) (v : Option Req) : (putReq s r v).rr = s.rr := rfl
@[simp] theorem putReq_nextReq (r : Nat) (v : Option Req) : (putReq s r v).nextReq = s.nextReq := rfl
@[simp] theorem putReq_launches (r : Nat) (v : Option Req) : (putReq s r v).launches = s.launches := rfl
@[simp] theorem putReq_taskRuns (r : Nat) (v : Option Req) : (putReq s r v).taskRuns = s.taskRuns := rfl
@[simp] theorem putReq_sums (r : Nat) (v : Option Req) : (putReq s r v).sums = s.sums := rfl
@[simp] theorem putReq_hostMem (r : Nat) (v : Option Req) : (putReq s r v).hostMem = s.hostMem := rfl
@[simp] theorem putReq_slots (r : Nat) (v : Option Req) : (putReq s r v).slots = s.slots := rfl
@[simp] theorem putReq_prov (r : Nat) (v : Option Req) : (putReq s r v).prov = s.prov := rfl
@[simp] theorem putReq_epoch (r : Nat) (v : Option Req) : (putReq s r v).epoch = s.epoch := rfl
@[simp] theorem putReq_suspended (r : Nat) (v : Option Req) : (putReq s r v).suspended = s.suspended := rfl
@[simp] theorem putReq_applied (r : Nat) (v : Option Req) : (putReq s r v).applied = s.applied := rfl
@[simp] theorem putReq_staging (r : Nat) (v : Option Req) : (putReq s r v).staging = s.staging := rfl
@[simp] theorem putReq_engines (r : Nat) (v : Option Req) : (putReq s r v).engines = s.engines := rfl
@[simp] theorem putReq_plates (r : Nat) (v : Option Req) : (putReq s r v).plates = s.plates := rfl
@[simp] theorem putReq_weights (r : Nat) (v : Option Req) : (putReq s r v).weights = s.weights := rfl
@[simp] theorem putReq_banks (r : Nat) (v : Option Req) : (putReq s r v).banks = s.banks := rfl
@[simp] theorem putReq_slc (r : Nat) (v : Option Req) : (putReq s r v).slc = s.slc := rfl
@[simp] theorem putReq_retain (r : Nat) (v : Option Req) : (putReq s r v).retain = s.retain := rfl
@[simp] theorem putReq_dies (r : Nat) (v : Option Req) : (putReq s r v).dies = s.dies := rfl
@[simp] theorem putReq_cores (r : Nat) (v : Option Req) : (putReq s r v).cores = s.cores := rfl
@[simp] theorem putReq_coreMem (r : Nat) (v : Option Req) : (putReq s r v).coreMem = s.coreMem := rfl
@[simp] theorem putReq_progs (r : Nat) (v : Option Req) : (putReq s r v).progs = s.progs := rfl
@[simp] theorem putReq_qslots (r : Nat) (v : Option Req) : (putReq s r v).qslots = s.qslots := rfl
@[simp] theorem putReq_ctrs (r : Nat) (v : Option Req) : (putReq s r v).ctrs = s.ctrs := rfl
@[simp] theorem putReq_runs (r : Nat) (v : Option Req) : (putReq s r v).runs = s.runs := rfl
@[simp] theorem putReq_nextRun (r : Nat) (v : Option Req) : (putReq s r v).nextRun = s.nextRun := rfl
@[simp] theorem putReq_feeds (r : Nat) (v : Option Req) : (putReq s r v).feeds = s.feeds := rfl
@[simp] theorem putReq_slow (r : Nat) (v : Option Req) : (putReq s r v).slow = s.slow := rfl
@[simp] theorem putReq_links (r : Nat) (v : Option Req) : (putReq s r v).links = s.links := rfl
@[simp] theorem putReq_xfers (r : Nat) (v : Option Req) : (putReq s r v).xfers = s.xfers := rfl
@[simp] theorem putReq_nextXfer (r : Nat) (v : Option Req) : (putReq s r v).nextXfer = s.nextXfer := rfl
@[simp] theorem putReq_flows (r : Nat) (v : Option Req) : (putReq s r v).flows = s.flows := rfl
@[simp] theorem putReq_landing (r : Nat) (v : Option Req) : (putReq s r v).landing = s.landing := rfl
@[simp] theorem putReq_flitAt (r : Nat) (v : Option Req) : (putReq s r v).flitAt = s.flitAt := rfl
@[simp] theorem putReq_pkgMem (r : Nat) (v : Option Req) : (putReq s r v).pkgMem = s.pkgMem := rfl
@[simp] theorem putReq_poison (r : Nat) (v : Option Req) : (putReq s r v).poison = s.poison := rfl
@[simp] theorem putReq_scrubAt (r : Nat) (v : Option Req) : (putReq s r v).scrubAt = s.scrubAt := rfl
@[simp] theorem putReq_units (r : Nat) (v : Option Req) : (putReq s r v).units = s.units := rfl
@[simp] theorem putReq_tpls (r : Nat) (v : Option Req) : (putReq s r v).tpls = s.tpls := rfl
@[simp] theorem putReq_isu (r : Nat) (v : Option Req) : (putReq s r v).isu = s.isu := rfl
@[simp] theorem putReq_pwr (r : Nat) (v : Option Req) : (putReq s r v).pwr = s.pwr := rfl
@[simp] theorem putReq_otp (r : Nat) (v : Option Req) : (putReq s r v).otp = s.otp := rfl
@[simp] theorem putReq_nv (r : Nat) (v : Option Req) : (putReq s r v).nv = s.nv := rfl
@[simp] theorem putReq_sec (r : Nat) (v : Option Req) : (putReq s r v).sec = s.sec := rfl
@[simp] theorem putReq_boot (r : Nat) (v : Option Req) : (putReq s r v).boot = s.boot := rfl
@[simp] theorem putReq_tap (r : Nat) (v : Option Req) : (putReq s r v).tap = s.tap := rfl
@[simp] theorem putReq_free (r : Nat) (v : Option Req) : (putReq s r v).free = s.free := rfl
@[simp] theorem putReq_pending (r : Nat) (v : Option Req) : (putReq s r v).pending = s.pending := rfl

/-! ### putSlot -/

@[simp] theorem putSlot_part (k : Nat) (v : Slot) : (putSlot s k v).part = s.part := rfl
@[simp] theorem putSlot_regs (k : Nat) (v : Slot) : (putSlot s k v).regs = s.regs := rfl
@[simp] theorem putSlot_hiShadow (k : Nat) (v : Slot) : (putSlot s k v).hiShadow = s.hiShadow := rfl
@[simp] theorem putSlot_loStage (k : Nat) (v : Slot) : (putSlot s k v).loStage = s.loStage := rfl
@[simp] theorem putSlot_evq (k : Nat) (v : Slot) : (putSlot s k v).evq = s.evq := rfl
@[simp] theorem putSlot_bus (k : Nat) (v : Slot) : (putSlot s k v).bus = s.bus := rfl
@[simp] theorem putSlot_belv (k : Nat) (v : Slot) : (putSlot s k v).belv = s.belv := rfl
@[simp] theorem putSlot_entries (k : Nat) (v : Slot) : (putSlot s k v).entries = s.entries := rfl
@[simp] theorem putSlot_groups (k : Nat) (v : Slot) : (putSlot s k v).groups = s.groups := rfl
@[simp] theorem putSlot_wins (k : Nat) (v : Slot) : (putSlot s k v).wins = s.wins := rfl
@[simp] theorem putSlot_nextWin (k : Nat) (v : Slot) : (putSlot s k v).nextWin = s.nextWin := rfl
@[simp] theorem putSlot_streams (k : Nat) (v : Slot) : (putSlot s k v).streams = s.streams := rfl
@[simp] theorem putSlot_lp11 (k : Nat) (v : Slot) : (putSlot s k v).lp11 = s.lp11 := rfl
@[simp] theorem putSlot_ingest (k : Nat) (v : Slot) : (putSlot s k v).ingest = s.ingest := rfl
@[simp] theorem putSlot_rings (k : Nat) (v : Slot) : (putSlot s k v).rings = s.rings := rfl
@[simp] theorem putSlot_rr (k : Nat) (v : Slot) : (putSlot s k v).rr = s.rr := rfl
@[simp] theorem putSlot_reqs (k : Nat) (v : Slot) : (putSlot s k v).reqs = s.reqs := rfl
@[simp] theorem putSlot_nextReq (k : Nat) (v : Slot) : (putSlot s k v).nextReq = s.nextReq := rfl
@[simp] theorem putSlot_launches (k : Nat) (v : Slot) : (putSlot s k v).launches = s.launches := rfl
@[simp] theorem putSlot_taskRuns (k : Nat) (v : Slot) : (putSlot s k v).taskRuns = s.taskRuns := rfl
@[simp] theorem putSlot_sums (k : Nat) (v : Slot) : (putSlot s k v).sums = s.sums := rfl
@[simp] theorem putSlot_hostMem (k : Nat) (v : Slot) : (putSlot s k v).hostMem = s.hostMem := rfl
@[simp] theorem putSlot_prov (k : Nat) (v : Slot) : (putSlot s k v).prov = s.prov := rfl
@[simp] theorem putSlot_epoch (k : Nat) (v : Slot) : (putSlot s k v).epoch = s.epoch := rfl
@[simp] theorem putSlot_suspended (k : Nat) (v : Slot) : (putSlot s k v).suspended = s.suspended := rfl
@[simp] theorem putSlot_applied (k : Nat) (v : Slot) : (putSlot s k v).applied = s.applied := rfl
@[simp] theorem putSlot_staging (k : Nat) (v : Slot) : (putSlot s k v).staging = s.staging := rfl
@[simp] theorem putSlot_engines (k : Nat) (v : Slot) : (putSlot s k v).engines = s.engines := rfl
@[simp] theorem putSlot_plates (k : Nat) (v : Slot) : (putSlot s k v).plates = s.plates := rfl
@[simp] theorem putSlot_weights (k : Nat) (v : Slot) : (putSlot s k v).weights = s.weights := rfl
@[simp] theorem putSlot_banks (k : Nat) (v : Slot) : (putSlot s k v).banks = s.banks := rfl
@[simp] theorem putSlot_slc (k : Nat) (v : Slot) : (putSlot s k v).slc = s.slc := rfl
@[simp] theorem putSlot_retain (k : Nat) (v : Slot) : (putSlot s k v).retain = s.retain := rfl
@[simp] theorem putSlot_dies (k : Nat) (v : Slot) : (putSlot s k v).dies = s.dies := rfl
@[simp] theorem putSlot_cores (k : Nat) (v : Slot) : (putSlot s k v).cores = s.cores := rfl
@[simp] theorem putSlot_coreMem (k : Nat) (v : Slot) : (putSlot s k v).coreMem = s.coreMem := rfl
@[simp] theorem putSlot_progs (k : Nat) (v : Slot) : (putSlot s k v).progs = s.progs := rfl
@[simp] theorem putSlot_qslots (k : Nat) (v : Slot) : (putSlot s k v).qslots = s.qslots := rfl
@[simp] theorem putSlot_ctrs (k : Nat) (v : Slot) : (putSlot s k v).ctrs = s.ctrs := rfl
@[simp] theorem putSlot_runs (k : Nat) (v : Slot) : (putSlot s k v).runs = s.runs := rfl
@[simp] theorem putSlot_nextRun (k : Nat) (v : Slot) : (putSlot s k v).nextRun = s.nextRun := rfl
@[simp] theorem putSlot_feeds (k : Nat) (v : Slot) : (putSlot s k v).feeds = s.feeds := rfl
@[simp] theorem putSlot_slow (k : Nat) (v : Slot) : (putSlot s k v).slow = s.slow := rfl
@[simp] theorem putSlot_links (k : Nat) (v : Slot) : (putSlot s k v).links = s.links := rfl
@[simp] theorem putSlot_xfers (k : Nat) (v : Slot) : (putSlot s k v).xfers = s.xfers := rfl
@[simp] theorem putSlot_nextXfer (k : Nat) (v : Slot) : (putSlot s k v).nextXfer = s.nextXfer := rfl
@[simp] theorem putSlot_flows (k : Nat) (v : Slot) : (putSlot s k v).flows = s.flows := rfl
@[simp] theorem putSlot_landing (k : Nat) (v : Slot) : (putSlot s k v).landing = s.landing := rfl
@[simp] theorem putSlot_flitAt (k : Nat) (v : Slot) : (putSlot s k v).flitAt = s.flitAt := rfl
@[simp] theorem putSlot_pkgMem (k : Nat) (v : Slot) : (putSlot s k v).pkgMem = s.pkgMem := rfl
@[simp] theorem putSlot_poison (k : Nat) (v : Slot) : (putSlot s k v).poison = s.poison := rfl
@[simp] theorem putSlot_scrubAt (k : Nat) (v : Slot) : (putSlot s k v).scrubAt = s.scrubAt := rfl
@[simp] theorem putSlot_units (k : Nat) (v : Slot) : (putSlot s k v).units = s.units := rfl
@[simp] theorem putSlot_tpls (k : Nat) (v : Slot) : (putSlot s k v).tpls = s.tpls := rfl
@[simp] theorem putSlot_isu (k : Nat) (v : Slot) : (putSlot s k v).isu = s.isu := rfl
@[simp] theorem putSlot_pwr (k : Nat) (v : Slot) : (putSlot s k v).pwr = s.pwr := rfl
@[simp] theorem putSlot_otp (k : Nat) (v : Slot) : (putSlot s k v).otp = s.otp := rfl
@[simp] theorem putSlot_nv (k : Nat) (v : Slot) : (putSlot s k v).nv = s.nv := rfl
@[simp] theorem putSlot_sec (k : Nat) (v : Slot) : (putSlot s k v).sec = s.sec := rfl
@[simp] theorem putSlot_boot (k : Nat) (v : Slot) : (putSlot s k v).boot = s.boot := rfl
@[simp] theorem putSlot_tap (k : Nat) (v : Slot) : (putSlot s k v).tap = s.tap := rfl
@[simp] theorem putSlot_free (k : Nat) (v : Slot) : (putSlot s k v).free = s.free := rfl
@[simp] theorem putSlot_pending (k : Nat) (v : Slot) : (putSlot s k v).pending = s.pending := rfl

/-! ### putEntry -/

@[simp] theorem putEntry_part (n : Nat) (v : Entry) : (putEntry s n v).part = s.part := rfl
@[simp] theorem putEntry_regs (n : Nat) (v : Entry) : (putEntry s n v).regs = s.regs := rfl
@[simp] theorem putEntry_hiShadow (n : Nat) (v : Entry) : (putEntry s n v).hiShadow = s.hiShadow := rfl
@[simp] theorem putEntry_loStage (n : Nat) (v : Entry) : (putEntry s n v).loStage = s.loStage := rfl
@[simp] theorem putEntry_evq (n : Nat) (v : Entry) : (putEntry s n v).evq = s.evq := rfl
@[simp] theorem putEntry_bus (n : Nat) (v : Entry) : (putEntry s n v).bus = s.bus := rfl
@[simp] theorem putEntry_belv (n : Nat) (v : Entry) : (putEntry s n v).belv = s.belv := rfl
@[simp] theorem putEntry_groups (n : Nat) (v : Entry) : (putEntry s n v).groups = s.groups := rfl
@[simp] theorem putEntry_wins (n : Nat) (v : Entry) : (putEntry s n v).wins = s.wins := rfl
@[simp] theorem putEntry_nextWin (n : Nat) (v : Entry) : (putEntry s n v).nextWin = s.nextWin := rfl
@[simp] theorem putEntry_streams (n : Nat) (v : Entry) : (putEntry s n v).streams = s.streams := rfl
@[simp] theorem putEntry_lp11 (n : Nat) (v : Entry) : (putEntry s n v).lp11 = s.lp11 := rfl
@[simp] theorem putEntry_ingest (n : Nat) (v : Entry) : (putEntry s n v).ingest = s.ingest := rfl
@[simp] theorem putEntry_rings (n : Nat) (v : Entry) : (putEntry s n v).rings = s.rings := rfl
@[simp] theorem putEntry_rr (n : Nat) (v : Entry) : (putEntry s n v).rr = s.rr := rfl
@[simp] theorem putEntry_reqs (n : Nat) (v : Entry) : (putEntry s n v).reqs = s.reqs := rfl
@[simp] theorem putEntry_nextReq (n : Nat) (v : Entry) : (putEntry s n v).nextReq = s.nextReq := rfl
@[simp] theorem putEntry_launches (n : Nat) (v : Entry) : (putEntry s n v).launches = s.launches := rfl
@[simp] theorem putEntry_taskRuns (n : Nat) (v : Entry) : (putEntry s n v).taskRuns = s.taskRuns := rfl
@[simp] theorem putEntry_sums (n : Nat) (v : Entry) : (putEntry s n v).sums = s.sums := rfl
@[simp] theorem putEntry_hostMem (n : Nat) (v : Entry) : (putEntry s n v).hostMem = s.hostMem := rfl
@[simp] theorem putEntry_slots (n : Nat) (v : Entry) : (putEntry s n v).slots = s.slots := rfl
@[simp] theorem putEntry_prov (n : Nat) (v : Entry) : (putEntry s n v).prov = s.prov := rfl
@[simp] theorem putEntry_epoch (n : Nat) (v : Entry) : (putEntry s n v).epoch = s.epoch := rfl
@[simp] theorem putEntry_suspended (n : Nat) (v : Entry) : (putEntry s n v).suspended = s.suspended := rfl
@[simp] theorem putEntry_applied (n : Nat) (v : Entry) : (putEntry s n v).applied = s.applied := rfl
@[simp] theorem putEntry_staging (n : Nat) (v : Entry) : (putEntry s n v).staging = s.staging := rfl
@[simp] theorem putEntry_engines (n : Nat) (v : Entry) : (putEntry s n v).engines = s.engines := rfl
@[simp] theorem putEntry_plates (n : Nat) (v : Entry) : (putEntry s n v).plates = s.plates := rfl
@[simp] theorem putEntry_weights (n : Nat) (v : Entry) : (putEntry s n v).weights = s.weights := rfl
@[simp] theorem putEntry_banks (n : Nat) (v : Entry) : (putEntry s n v).banks = s.banks := rfl
@[simp] theorem putEntry_slc (n : Nat) (v : Entry) : (putEntry s n v).slc = s.slc := rfl
@[simp] theorem putEntry_retain (n : Nat) (v : Entry) : (putEntry s n v).retain = s.retain := rfl
@[simp] theorem putEntry_dies (n : Nat) (v : Entry) : (putEntry s n v).dies = s.dies := rfl
@[simp] theorem putEntry_cores (n : Nat) (v : Entry) : (putEntry s n v).cores = s.cores := rfl
@[simp] theorem putEntry_coreMem (n : Nat) (v : Entry) : (putEntry s n v).coreMem = s.coreMem := rfl
@[simp] theorem putEntry_progs (n : Nat) (v : Entry) : (putEntry s n v).progs = s.progs := rfl
@[simp] theorem putEntry_qslots (n : Nat) (v : Entry) : (putEntry s n v).qslots = s.qslots := rfl
@[simp] theorem putEntry_ctrs (n : Nat) (v : Entry) : (putEntry s n v).ctrs = s.ctrs := rfl
@[simp] theorem putEntry_runs (n : Nat) (v : Entry) : (putEntry s n v).runs = s.runs := rfl
@[simp] theorem putEntry_nextRun (n : Nat) (v : Entry) : (putEntry s n v).nextRun = s.nextRun := rfl
@[simp] theorem putEntry_feeds (n : Nat) (v : Entry) : (putEntry s n v).feeds = s.feeds := rfl
@[simp] theorem putEntry_slow (n : Nat) (v : Entry) : (putEntry s n v).slow = s.slow := rfl
@[simp] theorem putEntry_links (n : Nat) (v : Entry) : (putEntry s n v).links = s.links := rfl
@[simp] theorem putEntry_xfers (n : Nat) (v : Entry) : (putEntry s n v).xfers = s.xfers := rfl
@[simp] theorem putEntry_nextXfer (n : Nat) (v : Entry) : (putEntry s n v).nextXfer = s.nextXfer := rfl
@[simp] theorem putEntry_flows (n : Nat) (v : Entry) : (putEntry s n v).flows = s.flows := rfl
@[simp] theorem putEntry_landing (n : Nat) (v : Entry) : (putEntry s n v).landing = s.landing := rfl
@[simp] theorem putEntry_flitAt (n : Nat) (v : Entry) : (putEntry s n v).flitAt = s.flitAt := rfl
@[simp] theorem putEntry_pkgMem (n : Nat) (v : Entry) : (putEntry s n v).pkgMem = s.pkgMem := rfl
@[simp] theorem putEntry_poison (n : Nat) (v : Entry) : (putEntry s n v).poison = s.poison := rfl
@[simp] theorem putEntry_scrubAt (n : Nat) (v : Entry) : (putEntry s n v).scrubAt = s.scrubAt := rfl
@[simp] theorem putEntry_units (n : Nat) (v : Entry) : (putEntry s n v).units = s.units := rfl
@[simp] theorem putEntry_tpls (n : Nat) (v : Entry) : (putEntry s n v).tpls = s.tpls := rfl
@[simp] theorem putEntry_isu (n : Nat) (v : Entry) : (putEntry s n v).isu = s.isu := rfl
@[simp] theorem putEntry_pwr (n : Nat) (v : Entry) : (putEntry s n v).pwr = s.pwr := rfl
@[simp] theorem putEntry_otp (n : Nat) (v : Entry) : (putEntry s n v).otp = s.otp := rfl
@[simp] theorem putEntry_nv (n : Nat) (v : Entry) : (putEntry s n v).nv = s.nv := rfl
@[simp] theorem putEntry_sec (n : Nat) (v : Entry) : (putEntry s n v).sec = s.sec := rfl
@[simp] theorem putEntry_boot (n : Nat) (v : Entry) : (putEntry s n v).boot = s.boot := rfl
@[simp] theorem putEntry_tap (n : Nat) (v : Entry) : (putEntry s n v).tap = s.tap := rfl
@[simp] theorem putEntry_free (n : Nat) (v : Entry) : (putEntry s n v).free = s.free := rfl
@[simp] theorem putEntry_pending (n : Nat) (v : Entry) : (putEntry s n v).pending = s.pending := rfl

/-! ### putGroup -/

@[simp] theorem putGroup_part (g : Nat) (v : Group) : (putGroup s g v).part = s.part := rfl
@[simp] theorem putGroup_regs (g : Nat) (v : Group) : (putGroup s g v).regs = s.regs := rfl
@[simp] theorem putGroup_hiShadow (g : Nat) (v : Group) : (putGroup s g v).hiShadow = s.hiShadow := rfl
@[simp] theorem putGroup_loStage (g : Nat) (v : Group) : (putGroup s g v).loStage = s.loStage := rfl
@[simp] theorem putGroup_evq (g : Nat) (v : Group) : (putGroup s g v).evq = s.evq := rfl
@[simp] theorem putGroup_bus (g : Nat) (v : Group) : (putGroup s g v).bus = s.bus := rfl
@[simp] theorem putGroup_belv (g : Nat) (v : Group) : (putGroup s g v).belv = s.belv := rfl
@[simp] theorem putGroup_entries (g : Nat) (v : Group) : (putGroup s g v).entries = s.entries := rfl
@[simp] theorem putGroup_wins (g : Nat) (v : Group) : (putGroup s g v).wins = s.wins := rfl
@[simp] theorem putGroup_nextWin (g : Nat) (v : Group) : (putGroup s g v).nextWin = s.nextWin := rfl
@[simp] theorem putGroup_streams (g : Nat) (v : Group) : (putGroup s g v).streams = s.streams := rfl
@[simp] theorem putGroup_lp11 (g : Nat) (v : Group) : (putGroup s g v).lp11 = s.lp11 := rfl
@[simp] theorem putGroup_ingest (g : Nat) (v : Group) : (putGroup s g v).ingest = s.ingest := rfl
@[simp] theorem putGroup_rings (g : Nat) (v : Group) : (putGroup s g v).rings = s.rings := rfl
@[simp] theorem putGroup_rr (g : Nat) (v : Group) : (putGroup s g v).rr = s.rr := rfl
@[simp] theorem putGroup_reqs (g : Nat) (v : Group) : (putGroup s g v).reqs = s.reqs := rfl
@[simp] theorem putGroup_nextReq (g : Nat) (v : Group) : (putGroup s g v).nextReq = s.nextReq := rfl
@[simp] theorem putGroup_launches (g : Nat) (v : Group) : (putGroup s g v).launches = s.launches := rfl
@[simp] theorem putGroup_taskRuns (g : Nat) (v : Group) : (putGroup s g v).taskRuns = s.taskRuns := rfl
@[simp] theorem putGroup_sums (g : Nat) (v : Group) : (putGroup s g v).sums = s.sums := rfl
@[simp] theorem putGroup_hostMem (g : Nat) (v : Group) : (putGroup s g v).hostMem = s.hostMem := rfl
@[simp] theorem putGroup_slots (g : Nat) (v : Group) : (putGroup s g v).slots = s.slots := rfl
@[simp] theorem putGroup_prov (g : Nat) (v : Group) : (putGroup s g v).prov = s.prov := rfl
@[simp] theorem putGroup_epoch (g : Nat) (v : Group) : (putGroup s g v).epoch = s.epoch := rfl
@[simp] theorem putGroup_suspended (g : Nat) (v : Group) : (putGroup s g v).suspended = s.suspended := rfl
@[simp] theorem putGroup_applied (g : Nat) (v : Group) : (putGroup s g v).applied = s.applied := rfl
@[simp] theorem putGroup_staging (g : Nat) (v : Group) : (putGroup s g v).staging = s.staging := rfl
@[simp] theorem putGroup_engines (g : Nat) (v : Group) : (putGroup s g v).engines = s.engines := rfl
@[simp] theorem putGroup_plates (g : Nat) (v : Group) : (putGroup s g v).plates = s.plates := rfl
@[simp] theorem putGroup_weights (g : Nat) (v : Group) : (putGroup s g v).weights = s.weights := rfl
@[simp] theorem putGroup_banks (g : Nat) (v : Group) : (putGroup s g v).banks = s.banks := rfl
@[simp] theorem putGroup_slc (g : Nat) (v : Group) : (putGroup s g v).slc = s.slc := rfl
@[simp] theorem putGroup_retain (g : Nat) (v : Group) : (putGroup s g v).retain = s.retain := rfl
@[simp] theorem putGroup_dies (g : Nat) (v : Group) : (putGroup s g v).dies = s.dies := rfl
@[simp] theorem putGroup_cores (g : Nat) (v : Group) : (putGroup s g v).cores = s.cores := rfl
@[simp] theorem putGroup_coreMem (g : Nat) (v : Group) : (putGroup s g v).coreMem = s.coreMem := rfl
@[simp] theorem putGroup_progs (g : Nat) (v : Group) : (putGroup s g v).progs = s.progs := rfl
@[simp] theorem putGroup_qslots (g : Nat) (v : Group) : (putGroup s g v).qslots = s.qslots := rfl
@[simp] theorem putGroup_ctrs (g : Nat) (v : Group) : (putGroup s g v).ctrs = s.ctrs := rfl
@[simp] theorem putGroup_runs (g : Nat) (v : Group) : (putGroup s g v).runs = s.runs := rfl
@[simp] theorem putGroup_nextRun (g : Nat) (v : Group) : (putGroup s g v).nextRun = s.nextRun := rfl
@[simp] theorem putGroup_feeds (g : Nat) (v : Group) : (putGroup s g v).feeds = s.feeds := rfl
@[simp] theorem putGroup_slow (g : Nat) (v : Group) : (putGroup s g v).slow = s.slow := rfl
@[simp] theorem putGroup_links (g : Nat) (v : Group) : (putGroup s g v).links = s.links := rfl
@[simp] theorem putGroup_xfers (g : Nat) (v : Group) : (putGroup s g v).xfers = s.xfers := rfl
@[simp] theorem putGroup_nextXfer (g : Nat) (v : Group) : (putGroup s g v).nextXfer = s.nextXfer := rfl
@[simp] theorem putGroup_flows (g : Nat) (v : Group) : (putGroup s g v).flows = s.flows := rfl
@[simp] theorem putGroup_landing (g : Nat) (v : Group) : (putGroup s g v).landing = s.landing := rfl
@[simp] theorem putGroup_flitAt (g : Nat) (v : Group) : (putGroup s g v).flitAt = s.flitAt := rfl
@[simp] theorem putGroup_pkgMem (g : Nat) (v : Group) : (putGroup s g v).pkgMem = s.pkgMem := rfl
@[simp] theorem putGroup_poison (g : Nat) (v : Group) : (putGroup s g v).poison = s.poison := rfl
@[simp] theorem putGroup_scrubAt (g : Nat) (v : Group) : (putGroup s g v).scrubAt = s.scrubAt := rfl
@[simp] theorem putGroup_units (g : Nat) (v : Group) : (putGroup s g v).units = s.units := rfl
@[simp] theorem putGroup_tpls (g : Nat) (v : Group) : (putGroup s g v).tpls = s.tpls := rfl
@[simp] theorem putGroup_isu (g : Nat) (v : Group) : (putGroup s g v).isu = s.isu := rfl
@[simp] theorem putGroup_pwr (g : Nat) (v : Group) : (putGroup s g v).pwr = s.pwr := rfl
@[simp] theorem putGroup_otp (g : Nat) (v : Group) : (putGroup s g v).otp = s.otp := rfl
@[simp] theorem putGroup_nv (g : Nat) (v : Group) : (putGroup s g v).nv = s.nv := rfl
@[simp] theorem putGroup_sec (g : Nat) (v : Group) : (putGroup s g v).sec = s.sec := rfl
@[simp] theorem putGroup_boot (g : Nat) (v : Group) : (putGroup s g v).boot = s.boot := rfl
@[simp] theorem putGroup_tap (g : Nat) (v : Group) : (putGroup s g v).tap = s.tap := rfl
@[simp] theorem putGroup_free (g : Nat) (v : Group) : (putGroup s g v).free = s.free := rfl
@[simp] theorem putGroup_pending (g : Nat) (v : Group) : (putGroup s g v).pending = s.pending := rfl

/-! ### putStream -/

@[simp] theorem putStream_part (n : Nat) (v : Stream) : (putStream s n v).part = s.part := rfl
@[simp] theorem putStream_regs (n : Nat) (v : Stream) : (putStream s n v).regs = s.regs := rfl
@[simp] theorem putStream_hiShadow (n : Nat) (v : Stream) : (putStream s n v).hiShadow = s.hiShadow := rfl
@[simp] theorem putStream_loStage (n : Nat) (v : Stream) : (putStream s n v).loStage = s.loStage := rfl
@[simp] theorem putStream_evq (n : Nat) (v : Stream) : (putStream s n v).evq = s.evq := rfl
@[simp] theorem putStream_bus (n : Nat) (v : Stream) : (putStream s n v).bus = s.bus := rfl
@[simp] theorem putStream_belv (n : Nat) (v : Stream) : (putStream s n v).belv = s.belv := rfl
@[simp] theorem putStream_entries (n : Nat) (v : Stream) : (putStream s n v).entries = s.entries := rfl
@[simp] theorem putStream_groups (n : Nat) (v : Stream) : (putStream s n v).groups = s.groups := rfl
@[simp] theorem putStream_wins (n : Nat) (v : Stream) : (putStream s n v).wins = s.wins := rfl
@[simp] theorem putStream_nextWin (n : Nat) (v : Stream) : (putStream s n v).nextWin = s.nextWin := rfl
@[simp] theorem putStream_lp11 (n : Nat) (v : Stream) : (putStream s n v).lp11 = s.lp11 := rfl
@[simp] theorem putStream_ingest (n : Nat) (v : Stream) : (putStream s n v).ingest = s.ingest := rfl
@[simp] theorem putStream_rings (n : Nat) (v : Stream) : (putStream s n v).rings = s.rings := rfl
@[simp] theorem putStream_rr (n : Nat) (v : Stream) : (putStream s n v).rr = s.rr := rfl
@[simp] theorem putStream_reqs (n : Nat) (v : Stream) : (putStream s n v).reqs = s.reqs := rfl
@[simp] theorem putStream_nextReq (n : Nat) (v : Stream) : (putStream s n v).nextReq = s.nextReq := rfl
@[simp] theorem putStream_launches (n : Nat) (v : Stream) : (putStream s n v).launches = s.launches := rfl
@[simp] theorem putStream_taskRuns (n : Nat) (v : Stream) : (putStream s n v).taskRuns = s.taskRuns := rfl
@[simp] theorem putStream_sums (n : Nat) (v : Stream) : (putStream s n v).sums = s.sums := rfl
@[simp] theorem putStream_hostMem (n : Nat) (v : Stream) : (putStream s n v).hostMem = s.hostMem := rfl
@[simp] theorem putStream_slots (n : Nat) (v : Stream) : (putStream s n v).slots = s.slots := rfl
@[simp] theorem putStream_prov (n : Nat) (v : Stream) : (putStream s n v).prov = s.prov := rfl
@[simp] theorem putStream_epoch (n : Nat) (v : Stream) : (putStream s n v).epoch = s.epoch := rfl
@[simp] theorem putStream_suspended (n : Nat) (v : Stream) : (putStream s n v).suspended = s.suspended := rfl
@[simp] theorem putStream_applied (n : Nat) (v : Stream) : (putStream s n v).applied = s.applied := rfl
@[simp] theorem putStream_staging (n : Nat) (v : Stream) : (putStream s n v).staging = s.staging := rfl
@[simp] theorem putStream_engines (n : Nat) (v : Stream) : (putStream s n v).engines = s.engines := rfl
@[simp] theorem putStream_plates (n : Nat) (v : Stream) : (putStream s n v).plates = s.plates := rfl
@[simp] theorem putStream_weights (n : Nat) (v : Stream) : (putStream s n v).weights = s.weights := rfl
@[simp] theorem putStream_banks (n : Nat) (v : Stream) : (putStream s n v).banks = s.banks := rfl
@[simp] theorem putStream_slc (n : Nat) (v : Stream) : (putStream s n v).slc = s.slc := rfl
@[simp] theorem putStream_retain (n : Nat) (v : Stream) : (putStream s n v).retain = s.retain := rfl
@[simp] theorem putStream_dies (n : Nat) (v : Stream) : (putStream s n v).dies = s.dies := rfl
@[simp] theorem putStream_cores (n : Nat) (v : Stream) : (putStream s n v).cores = s.cores := rfl
@[simp] theorem putStream_coreMem (n : Nat) (v : Stream) : (putStream s n v).coreMem = s.coreMem := rfl
@[simp] theorem putStream_progs (n : Nat) (v : Stream) : (putStream s n v).progs = s.progs := rfl
@[simp] theorem putStream_qslots (n : Nat) (v : Stream) : (putStream s n v).qslots = s.qslots := rfl
@[simp] theorem putStream_ctrs (n : Nat) (v : Stream) : (putStream s n v).ctrs = s.ctrs := rfl
@[simp] theorem putStream_runs (n : Nat) (v : Stream) : (putStream s n v).runs = s.runs := rfl
@[simp] theorem putStream_nextRun (n : Nat) (v : Stream) : (putStream s n v).nextRun = s.nextRun := rfl
@[simp] theorem putStream_feeds (n : Nat) (v : Stream) : (putStream s n v).feeds = s.feeds := rfl
@[simp] theorem putStream_slow (n : Nat) (v : Stream) : (putStream s n v).slow = s.slow := rfl
@[simp] theorem putStream_links (n : Nat) (v : Stream) : (putStream s n v).links = s.links := rfl
@[simp] theorem putStream_xfers (n : Nat) (v : Stream) : (putStream s n v).xfers = s.xfers := rfl
@[simp] theorem putStream_nextXfer (n : Nat) (v : Stream) : (putStream s n v).nextXfer = s.nextXfer := rfl
@[simp] theorem putStream_flows (n : Nat) (v : Stream) : (putStream s n v).flows = s.flows := rfl
@[simp] theorem putStream_landing (n : Nat) (v : Stream) : (putStream s n v).landing = s.landing := rfl
@[simp] theorem putStream_flitAt (n : Nat) (v : Stream) : (putStream s n v).flitAt = s.flitAt := rfl
@[simp] theorem putStream_pkgMem (n : Nat) (v : Stream) : (putStream s n v).pkgMem = s.pkgMem := rfl
@[simp] theorem putStream_poison (n : Nat) (v : Stream) : (putStream s n v).poison = s.poison := rfl
@[simp] theorem putStream_scrubAt (n : Nat) (v : Stream) : (putStream s n v).scrubAt = s.scrubAt := rfl
@[simp] theorem putStream_units (n : Nat) (v : Stream) : (putStream s n v).units = s.units := rfl
@[simp] theorem putStream_tpls (n : Nat) (v : Stream) : (putStream s n v).tpls = s.tpls := rfl
@[simp] theorem putStream_isu (n : Nat) (v : Stream) : (putStream s n v).isu = s.isu := rfl
@[simp] theorem putStream_pwr (n : Nat) (v : Stream) : (putStream s n v).pwr = s.pwr := rfl
@[simp] theorem putStream_otp (n : Nat) (v : Stream) : (putStream s n v).otp = s.otp := rfl
@[simp] theorem putStream_nv (n : Nat) (v : Stream) : (putStream s n v).nv = s.nv := rfl
@[simp] theorem putStream_sec (n : Nat) (v : Stream) : (putStream s n v).sec = s.sec := rfl
@[simp] theorem putStream_boot (n : Nat) (v : Stream) : (putStream s n v).boot = s.boot := rfl
@[simp] theorem putStream_tap (n : Nat) (v : Stream) : (putStream s n v).tap = s.tap := rfl
@[simp] theorem putStream_free (n : Nat) (v : Stream) : (putStream s n v).free = s.free := rfl
@[simp] theorem putStream_pending (n : Nat) (v : Stream) : (putStream s n v).pending = s.pending := rfl

/-! ### putLink -/

@[simp] theorem putLink_part (l : Nat) (v : Link) : (putLink s l v).part = s.part := rfl
@[simp] theorem putLink_regs (l : Nat) (v : Link) : (putLink s l v).regs = s.regs := rfl
@[simp] theorem putLink_hiShadow (l : Nat) (v : Link) : (putLink s l v).hiShadow = s.hiShadow := rfl
@[simp] theorem putLink_loStage (l : Nat) (v : Link) : (putLink s l v).loStage = s.loStage := rfl
@[simp] theorem putLink_evq (l : Nat) (v : Link) : (putLink s l v).evq = s.evq := rfl
@[simp] theorem putLink_bus (l : Nat) (v : Link) : (putLink s l v).bus = s.bus := rfl
@[simp] theorem putLink_belv (l : Nat) (v : Link) : (putLink s l v).belv = s.belv := rfl
@[simp] theorem putLink_entries (l : Nat) (v : Link) : (putLink s l v).entries = s.entries := rfl
@[simp] theorem putLink_groups (l : Nat) (v : Link) : (putLink s l v).groups = s.groups := rfl
@[simp] theorem putLink_wins (l : Nat) (v : Link) : (putLink s l v).wins = s.wins := rfl
@[simp] theorem putLink_nextWin (l : Nat) (v : Link) : (putLink s l v).nextWin = s.nextWin := rfl
@[simp] theorem putLink_streams (l : Nat) (v : Link) : (putLink s l v).streams = s.streams := rfl
@[simp] theorem putLink_lp11 (l : Nat) (v : Link) : (putLink s l v).lp11 = s.lp11 := rfl
@[simp] theorem putLink_ingest (l : Nat) (v : Link) : (putLink s l v).ingest = s.ingest := rfl
@[simp] theorem putLink_rings (l : Nat) (v : Link) : (putLink s l v).rings = s.rings := rfl
@[simp] theorem putLink_rr (l : Nat) (v : Link) : (putLink s l v).rr = s.rr := rfl
@[simp] theorem putLink_reqs (l : Nat) (v : Link) : (putLink s l v).reqs = s.reqs := rfl
@[simp] theorem putLink_nextReq (l : Nat) (v : Link) : (putLink s l v).nextReq = s.nextReq := rfl
@[simp] theorem putLink_launches (l : Nat) (v : Link) : (putLink s l v).launches = s.launches := rfl
@[simp] theorem putLink_taskRuns (l : Nat) (v : Link) : (putLink s l v).taskRuns = s.taskRuns := rfl
@[simp] theorem putLink_sums (l : Nat) (v : Link) : (putLink s l v).sums = s.sums := rfl
@[simp] theorem putLink_hostMem (l : Nat) (v : Link) : (putLink s l v).hostMem = s.hostMem := rfl
@[simp] theorem putLink_slots (l : Nat) (v : Link) : (putLink s l v).slots = s.slots := rfl
@[simp] theorem putLink_prov (l : Nat) (v : Link) : (putLink s l v).prov = s.prov := rfl
@[simp] theorem putLink_epoch (l : Nat) (v : Link) : (putLink s l v).epoch = s.epoch := rfl
@[simp] theorem putLink_suspended (l : Nat) (v : Link) : (putLink s l v).suspended = s.suspended := rfl
@[simp] theorem putLink_applied (l : Nat) (v : Link) : (putLink s l v).applied = s.applied := rfl
@[simp] theorem putLink_staging (l : Nat) (v : Link) : (putLink s l v).staging = s.staging := rfl
@[simp] theorem putLink_engines (l : Nat) (v : Link) : (putLink s l v).engines = s.engines := rfl
@[simp] theorem putLink_plates (l : Nat) (v : Link) : (putLink s l v).plates = s.plates := rfl
@[simp] theorem putLink_weights (l : Nat) (v : Link) : (putLink s l v).weights = s.weights := rfl
@[simp] theorem putLink_banks (l : Nat) (v : Link) : (putLink s l v).banks = s.banks := rfl
@[simp] theorem putLink_slc (l : Nat) (v : Link) : (putLink s l v).slc = s.slc := rfl
@[simp] theorem putLink_retain (l : Nat) (v : Link) : (putLink s l v).retain = s.retain := rfl
@[simp] theorem putLink_dies (l : Nat) (v : Link) : (putLink s l v).dies = s.dies := rfl
@[simp] theorem putLink_cores (l : Nat) (v : Link) : (putLink s l v).cores = s.cores := rfl
@[simp] theorem putLink_coreMem (l : Nat) (v : Link) : (putLink s l v).coreMem = s.coreMem := rfl
@[simp] theorem putLink_progs (l : Nat) (v : Link) : (putLink s l v).progs = s.progs := rfl
@[simp] theorem putLink_qslots (l : Nat) (v : Link) : (putLink s l v).qslots = s.qslots := rfl
@[simp] theorem putLink_ctrs (l : Nat) (v : Link) : (putLink s l v).ctrs = s.ctrs := rfl
@[simp] theorem putLink_runs (l : Nat) (v : Link) : (putLink s l v).runs = s.runs := rfl
@[simp] theorem putLink_nextRun (l : Nat) (v : Link) : (putLink s l v).nextRun = s.nextRun := rfl
@[simp] theorem putLink_feeds (l : Nat) (v : Link) : (putLink s l v).feeds = s.feeds := rfl
@[simp] theorem putLink_slow (l : Nat) (v : Link) : (putLink s l v).slow = s.slow := rfl
@[simp] theorem putLink_xfers (l : Nat) (v : Link) : (putLink s l v).xfers = s.xfers := rfl
@[simp] theorem putLink_nextXfer (l : Nat) (v : Link) : (putLink s l v).nextXfer = s.nextXfer := rfl
@[simp] theorem putLink_flows (l : Nat) (v : Link) : (putLink s l v).flows = s.flows := rfl
@[simp] theorem putLink_landing (l : Nat) (v : Link) : (putLink s l v).landing = s.landing := rfl
@[simp] theorem putLink_flitAt (l : Nat) (v : Link) : (putLink s l v).flitAt = s.flitAt := rfl
@[simp] theorem putLink_pkgMem (l : Nat) (v : Link) : (putLink s l v).pkgMem = s.pkgMem := rfl
@[simp] theorem putLink_poison (l : Nat) (v : Link) : (putLink s l v).poison = s.poison := rfl
@[simp] theorem putLink_scrubAt (l : Nat) (v : Link) : (putLink s l v).scrubAt = s.scrubAt := rfl
@[simp] theorem putLink_units (l : Nat) (v : Link) : (putLink s l v).units = s.units := rfl
@[simp] theorem putLink_tpls (l : Nat) (v : Link) : (putLink s l v).tpls = s.tpls := rfl
@[simp] theorem putLink_isu (l : Nat) (v : Link) : (putLink s l v).isu = s.isu := rfl
@[simp] theorem putLink_pwr (l : Nat) (v : Link) : (putLink s l v).pwr = s.pwr := rfl
@[simp] theorem putLink_otp (l : Nat) (v : Link) : (putLink s l v).otp = s.otp := rfl
@[simp] theorem putLink_nv (l : Nat) (v : Link) : (putLink s l v).nv = s.nv := rfl
@[simp] theorem putLink_sec (l : Nat) (v : Link) : (putLink s l v).sec = s.sec := rfl
@[simp] theorem putLink_boot (l : Nat) (v : Link) : (putLink s l v).boot = s.boot := rfl
@[simp] theorem putLink_tap (l : Nat) (v : Link) : (putLink s l v).tap = s.tap := rfl
@[simp] theorem putLink_free (l : Nat) (v : Link) : (putLink s l v).free = s.free := rfl
@[simp] theorem putLink_pending (l : Nat) (v : Link) : (putLink s l v).pending = s.pending := rfl

/-! ### putRun -/

@[simp] theorem putRun_part (r : Nat) (v : Option Run) : (putRun s r v).part = s.part := rfl
@[simp] theorem putRun_regs (r : Nat) (v : Option Run) : (putRun s r v).regs = s.regs := rfl
@[simp] theorem putRun_hiShadow (r : Nat) (v : Option Run) : (putRun s r v).hiShadow = s.hiShadow := rfl
@[simp] theorem putRun_loStage (r : Nat) (v : Option Run) : (putRun s r v).loStage = s.loStage := rfl
@[simp] theorem putRun_evq (r : Nat) (v : Option Run) : (putRun s r v).evq = s.evq := rfl
@[simp] theorem putRun_bus (r : Nat) (v : Option Run) : (putRun s r v).bus = s.bus := rfl
@[simp] theorem putRun_belv (r : Nat) (v : Option Run) : (putRun s r v).belv = s.belv := rfl
@[simp] theorem putRun_entries (r : Nat) (v : Option Run) : (putRun s r v).entries = s.entries := rfl
@[simp] theorem putRun_groups (r : Nat) (v : Option Run) : (putRun s r v).groups = s.groups := rfl
@[simp] theorem putRun_wins (r : Nat) (v : Option Run) : (putRun s r v).wins = s.wins := rfl
@[simp] theorem putRun_nextWin (r : Nat) (v : Option Run) : (putRun s r v).nextWin = s.nextWin := rfl
@[simp] theorem putRun_streams (r : Nat) (v : Option Run) : (putRun s r v).streams = s.streams := rfl
@[simp] theorem putRun_lp11 (r : Nat) (v : Option Run) : (putRun s r v).lp11 = s.lp11 := rfl
@[simp] theorem putRun_ingest (r : Nat) (v : Option Run) : (putRun s r v).ingest = s.ingest := rfl
@[simp] theorem putRun_rings (r : Nat) (v : Option Run) : (putRun s r v).rings = s.rings := rfl
@[simp] theorem putRun_rr (r : Nat) (v : Option Run) : (putRun s r v).rr = s.rr := rfl
@[simp] theorem putRun_reqs (r : Nat) (v : Option Run) : (putRun s r v).reqs = s.reqs := rfl
@[simp] theorem putRun_nextReq (r : Nat) (v : Option Run) : (putRun s r v).nextReq = s.nextReq := rfl
@[simp] theorem putRun_launches (r : Nat) (v : Option Run) : (putRun s r v).launches = s.launches := rfl
@[simp] theorem putRun_taskRuns (r : Nat) (v : Option Run) : (putRun s r v).taskRuns = s.taskRuns := rfl
@[simp] theorem putRun_sums (r : Nat) (v : Option Run) : (putRun s r v).sums = s.sums := rfl
@[simp] theorem putRun_hostMem (r : Nat) (v : Option Run) : (putRun s r v).hostMem = s.hostMem := rfl
@[simp] theorem putRun_slots (r : Nat) (v : Option Run) : (putRun s r v).slots = s.slots := rfl
@[simp] theorem putRun_prov (r : Nat) (v : Option Run) : (putRun s r v).prov = s.prov := rfl
@[simp] theorem putRun_epoch (r : Nat) (v : Option Run) : (putRun s r v).epoch = s.epoch := rfl
@[simp] theorem putRun_suspended (r : Nat) (v : Option Run) : (putRun s r v).suspended = s.suspended := rfl
@[simp] theorem putRun_applied (r : Nat) (v : Option Run) : (putRun s r v).applied = s.applied := rfl
@[simp] theorem putRun_staging (r : Nat) (v : Option Run) : (putRun s r v).staging = s.staging := rfl
@[simp] theorem putRun_engines (r : Nat) (v : Option Run) : (putRun s r v).engines = s.engines := rfl
@[simp] theorem putRun_plates (r : Nat) (v : Option Run) : (putRun s r v).plates = s.plates := rfl
@[simp] theorem putRun_weights (r : Nat) (v : Option Run) : (putRun s r v).weights = s.weights := rfl
@[simp] theorem putRun_banks (r : Nat) (v : Option Run) : (putRun s r v).banks = s.banks := rfl
@[simp] theorem putRun_slc (r : Nat) (v : Option Run) : (putRun s r v).slc = s.slc := rfl
@[simp] theorem putRun_retain (r : Nat) (v : Option Run) : (putRun s r v).retain = s.retain := rfl
@[simp] theorem putRun_dies (r : Nat) (v : Option Run) : (putRun s r v).dies = s.dies := rfl
@[simp] theorem putRun_cores (r : Nat) (v : Option Run) : (putRun s r v).cores = s.cores := rfl
@[simp] theorem putRun_coreMem (r : Nat) (v : Option Run) : (putRun s r v).coreMem = s.coreMem := rfl
@[simp] theorem putRun_progs (r : Nat) (v : Option Run) : (putRun s r v).progs = s.progs := rfl
@[simp] theorem putRun_qslots (r : Nat) (v : Option Run) : (putRun s r v).qslots = s.qslots := rfl
@[simp] theorem putRun_ctrs (r : Nat) (v : Option Run) : (putRun s r v).ctrs = s.ctrs := rfl
@[simp] theorem putRun_nextRun (r : Nat) (v : Option Run) : (putRun s r v).nextRun = s.nextRun := rfl
@[simp] theorem putRun_feeds (r : Nat) (v : Option Run) : (putRun s r v).feeds = s.feeds := rfl
@[simp] theorem putRun_slow (r : Nat) (v : Option Run) : (putRun s r v).slow = s.slow := rfl
@[simp] theorem putRun_links (r : Nat) (v : Option Run) : (putRun s r v).links = s.links := rfl
@[simp] theorem putRun_xfers (r : Nat) (v : Option Run) : (putRun s r v).xfers = s.xfers := rfl
@[simp] theorem putRun_nextXfer (r : Nat) (v : Option Run) : (putRun s r v).nextXfer = s.nextXfer := rfl
@[simp] theorem putRun_flows (r : Nat) (v : Option Run) : (putRun s r v).flows = s.flows := rfl
@[simp] theorem putRun_landing (r : Nat) (v : Option Run) : (putRun s r v).landing = s.landing := rfl
@[simp] theorem putRun_flitAt (r : Nat) (v : Option Run) : (putRun s r v).flitAt = s.flitAt := rfl
@[simp] theorem putRun_pkgMem (r : Nat) (v : Option Run) : (putRun s r v).pkgMem = s.pkgMem := rfl
@[simp] theorem putRun_poison (r : Nat) (v : Option Run) : (putRun s r v).poison = s.poison := rfl
@[simp] theorem putRun_scrubAt (r : Nat) (v : Option Run) : (putRun s r v).scrubAt = s.scrubAt := rfl
@[simp] theorem putRun_units (r : Nat) (v : Option Run) : (putRun s r v).units = s.units := rfl
@[simp] theorem putRun_tpls (r : Nat) (v : Option Run) : (putRun s r v).tpls = s.tpls := rfl
@[simp] theorem putRun_isu (r : Nat) (v : Option Run) : (putRun s r v).isu = s.isu := rfl
@[simp] theorem putRun_pwr (r : Nat) (v : Option Run) : (putRun s r v).pwr = s.pwr := rfl
@[simp] theorem putRun_otp (r : Nat) (v : Option Run) : (putRun s r v).otp = s.otp := rfl
@[simp] theorem putRun_nv (r : Nat) (v : Option Run) : (putRun s r v).nv = s.nv := rfl
@[simp] theorem putRun_sec (r : Nat) (v : Option Run) : (putRun s r v).sec = s.sec := rfl
@[simp] theorem putRun_boot (r : Nat) (v : Option Run) : (putRun s r v).boot = s.boot := rfl
@[simp] theorem putRun_tap (r : Nat) (v : Option Run) : (putRun s r v).tap = s.tap := rfl
@[simp] theorem putRun_free (r : Nat) (v : Option Run) : (putRun s r v).free = s.free := rfl
@[simp] theorem putRun_pending (r : Nat) (v : Option Run) : (putRun s r v).pending = s.pending := rfl

/-! ### hostPut -/

@[simp] theorem hostPut_part (a : Nat) (l : List Byte) : (hostPut s a l).part = s.part := rfl
@[simp] theorem hostPut_regs (a : Nat) (l : List Byte) : (hostPut s a l).regs = s.regs := rfl
@[simp] theorem hostPut_hiShadow (a : Nat) (l : List Byte) : (hostPut s a l).hiShadow = s.hiShadow := rfl
@[simp] theorem hostPut_loStage (a : Nat) (l : List Byte) : (hostPut s a l).loStage = s.loStage := rfl
@[simp] theorem hostPut_evq (a : Nat) (l : List Byte) : (hostPut s a l).evq = s.evq := rfl
@[simp] theorem hostPut_bus (a : Nat) (l : List Byte) : (hostPut s a l).bus = s.bus := rfl
@[simp] theorem hostPut_belv (a : Nat) (l : List Byte) : (hostPut s a l).belv = s.belv := rfl
@[simp] theorem hostPut_entries (a : Nat) (l : List Byte) : (hostPut s a l).entries = s.entries := rfl
@[simp] theorem hostPut_groups (a : Nat) (l : List Byte) : (hostPut s a l).groups = s.groups := rfl
@[simp] theorem hostPut_wins (a : Nat) (l : List Byte) : (hostPut s a l).wins = s.wins := rfl
@[simp] theorem hostPut_nextWin (a : Nat) (l : List Byte) : (hostPut s a l).nextWin = s.nextWin := rfl
@[simp] theorem hostPut_streams (a : Nat) (l : List Byte) : (hostPut s a l).streams = s.streams := rfl
@[simp] theorem hostPut_lp11 (a : Nat) (l : List Byte) : (hostPut s a l).lp11 = s.lp11 := rfl
@[simp] theorem hostPut_ingest (a : Nat) (l : List Byte) : (hostPut s a l).ingest = s.ingest := rfl
@[simp] theorem hostPut_rings (a : Nat) (l : List Byte) : (hostPut s a l).rings = s.rings := rfl
@[simp] theorem hostPut_rr (a : Nat) (l : List Byte) : (hostPut s a l).rr = s.rr := rfl
@[simp] theorem hostPut_reqs (a : Nat) (l : List Byte) : (hostPut s a l).reqs = s.reqs := rfl
@[simp] theorem hostPut_nextReq (a : Nat) (l : List Byte) : (hostPut s a l).nextReq = s.nextReq := rfl
@[simp] theorem hostPut_launches (a : Nat) (l : List Byte) : (hostPut s a l).launches = s.launches := rfl
@[simp] theorem hostPut_taskRuns (a : Nat) (l : List Byte) : (hostPut s a l).taskRuns = s.taskRuns := rfl
@[simp] theorem hostPut_sums (a : Nat) (l : List Byte) : (hostPut s a l).sums = s.sums := rfl
@[simp] theorem hostPut_hostMem (a : Nat) (l : List Byte) : (hostPut s a l).hostMem = putBytes s.hostMem a l := rfl
@[simp] theorem hostPut_slots (a : Nat) (l : List Byte) : (hostPut s a l).slots = s.slots := rfl
@[simp] theorem hostPut_prov (a : Nat) (l : List Byte) : (hostPut s a l).prov = s.prov := rfl
@[simp] theorem hostPut_epoch (a : Nat) (l : List Byte) : (hostPut s a l).epoch = s.epoch := rfl
@[simp] theorem hostPut_suspended (a : Nat) (l : List Byte) : (hostPut s a l).suspended = s.suspended := rfl
@[simp] theorem hostPut_applied (a : Nat) (l : List Byte) : (hostPut s a l).applied = s.applied := rfl
@[simp] theorem hostPut_staging (a : Nat) (l : List Byte) : (hostPut s a l).staging = s.staging := rfl
@[simp] theorem hostPut_engines (a : Nat) (l : List Byte) : (hostPut s a l).engines = s.engines := rfl
@[simp] theorem hostPut_plates (a : Nat) (l : List Byte) : (hostPut s a l).plates = s.plates := rfl
@[simp] theorem hostPut_weights (a : Nat) (l : List Byte) : (hostPut s a l).weights = s.weights := rfl
@[simp] theorem hostPut_banks (a : Nat) (l : List Byte) : (hostPut s a l).banks = s.banks := rfl
@[simp] theorem hostPut_slc (a : Nat) (l : List Byte) : (hostPut s a l).slc = s.slc := rfl
@[simp] theorem hostPut_retain (a : Nat) (l : List Byte) : (hostPut s a l).retain = s.retain := rfl
@[simp] theorem hostPut_dies (a : Nat) (l : List Byte) : (hostPut s a l).dies = s.dies := rfl
@[simp] theorem hostPut_cores (a : Nat) (l : List Byte) : (hostPut s a l).cores = s.cores := rfl
@[simp] theorem hostPut_coreMem (a : Nat) (l : List Byte) : (hostPut s a l).coreMem = s.coreMem := rfl
@[simp] theorem hostPut_progs (a : Nat) (l : List Byte) : (hostPut s a l).progs = s.progs := rfl
@[simp] theorem hostPut_qslots (a : Nat) (l : List Byte) : (hostPut s a l).qslots = s.qslots := rfl
@[simp] theorem hostPut_ctrs (a : Nat) (l : List Byte) : (hostPut s a l).ctrs = s.ctrs := rfl
@[simp] theorem hostPut_runs (a : Nat) (l : List Byte) : (hostPut s a l).runs = s.runs := rfl
@[simp] theorem hostPut_nextRun (a : Nat) (l : List Byte) : (hostPut s a l).nextRun = s.nextRun := rfl
@[simp] theorem hostPut_feeds (a : Nat) (l : List Byte) : (hostPut s a l).feeds = s.feeds := rfl
@[simp] theorem hostPut_slow (a : Nat) (l : List Byte) : (hostPut s a l).slow = s.slow := rfl
@[simp] theorem hostPut_links (a : Nat) (l : List Byte) : (hostPut s a l).links = s.links := rfl
@[simp] theorem hostPut_xfers (a : Nat) (l : List Byte) : (hostPut s a l).xfers = s.xfers := rfl
@[simp] theorem hostPut_nextXfer (a : Nat) (l : List Byte) : (hostPut s a l).nextXfer = s.nextXfer := rfl
@[simp] theorem hostPut_flows (a : Nat) (l : List Byte) : (hostPut s a l).flows = s.flows := rfl
@[simp] theorem hostPut_landing (a : Nat) (l : List Byte) : (hostPut s a l).landing = s.landing := rfl
@[simp] theorem hostPut_flitAt (a : Nat) (l : List Byte) : (hostPut s a l).flitAt = s.flitAt := rfl
@[simp] theorem hostPut_pkgMem (a : Nat) (l : List Byte) : (hostPut s a l).pkgMem = s.pkgMem := rfl
@[simp] theorem hostPut_poison (a : Nat) (l : List Byte) : (hostPut s a l).poison = s.poison := rfl
@[simp] theorem hostPut_scrubAt (a : Nat) (l : List Byte) : (hostPut s a l).scrubAt = s.scrubAt := rfl
@[simp] theorem hostPut_units (a : Nat) (l : List Byte) : (hostPut s a l).units = s.units := rfl
@[simp] theorem hostPut_tpls (a : Nat) (l : List Byte) : (hostPut s a l).tpls = s.tpls := rfl
@[simp] theorem hostPut_isu (a : Nat) (l : List Byte) : (hostPut s a l).isu = s.isu := rfl
@[simp] theorem hostPut_pwr (a : Nat) (l : List Byte) : (hostPut s a l).pwr = s.pwr := rfl
@[simp] theorem hostPut_otp (a : Nat) (l : List Byte) : (hostPut s a l).otp = s.otp := rfl
@[simp] theorem hostPut_nv (a : Nat) (l : List Byte) : (hostPut s a l).nv = s.nv := rfl
@[simp] theorem hostPut_sec (a : Nat) (l : List Byte) : (hostPut s a l).sec = s.sec := rfl
@[simp] theorem hostPut_boot (a : Nat) (l : List Byte) : (hostPut s a l).boot = s.boot := rfl
@[simp] theorem hostPut_tap (a : Nat) (l : List Byte) : (hostPut s a l).tap = s.tap := rfl
@[simp] theorem hostPut_free (a : Nat) (l : List Byte) : (hostPut s a l).free = s.free := rfl
@[simp] theorem hostPut_pending (a : Nat) (l : List Byte) : (hostPut s a l).pending = s.pending := rfl

/-! ### modBelv -/

@[simp] theorem modBelv_part (f : Belv → Belv) : (modBelv s f).part = s.part := rfl
@[simp] theorem modBelv_regs (f : Belv → Belv) : (modBelv s f).regs = s.regs := rfl
@[simp] theorem modBelv_hiShadow (f : Belv → Belv) : (modBelv s f).hiShadow = s.hiShadow := rfl
@[simp] theorem modBelv_loStage (f : Belv → Belv) : (modBelv s f).loStage = s.loStage := rfl
@[simp] theorem modBelv_evq (f : Belv → Belv) : (modBelv s f).evq = s.evq := rfl
@[simp] theorem modBelv_bus (f : Belv → Belv) : (modBelv s f).bus = s.bus := rfl
@[simp] theorem modBelv_belv (f : Belv → Belv) : (modBelv s f).belv = f s.belv := rfl
@[simp] theorem modBelv_entries (f : Belv → Belv) : (modBelv s f).entries = s.entries := rfl
@[simp] theorem modBelv_groups (f : Belv → Belv) : (modBelv s f).groups = s.groups := rfl
@[simp] theorem modBelv_wins (f : Belv → Belv) : (modBelv s f).wins = s.wins := rfl
@[simp] theorem modBelv_nextWin (f : Belv → Belv) : (modBelv s f).nextWin = s.nextWin := rfl
@[simp] theorem modBelv_streams (f : Belv → Belv) : (modBelv s f).streams = s.streams := rfl
@[simp] theorem modBelv_lp11 (f : Belv → Belv) : (modBelv s f).lp11 = s.lp11 := rfl
@[simp] theorem modBelv_ingest (f : Belv → Belv) : (modBelv s f).ingest = s.ingest := rfl
@[simp] theorem modBelv_rings (f : Belv → Belv) : (modBelv s f).rings = s.rings := rfl
@[simp] theorem modBelv_rr (f : Belv → Belv) : (modBelv s f).rr = s.rr := rfl
@[simp] theorem modBelv_reqs (f : Belv → Belv) : (modBelv s f).reqs = s.reqs := rfl
@[simp] theorem modBelv_nextReq (f : Belv → Belv) : (modBelv s f).nextReq = s.nextReq := rfl
@[simp] theorem modBelv_launches (f : Belv → Belv) : (modBelv s f).launches = s.launches := rfl
@[simp] theorem modBelv_taskRuns (f : Belv → Belv) : (modBelv s f).taskRuns = s.taskRuns := rfl
@[simp] theorem modBelv_sums (f : Belv → Belv) : (modBelv s f).sums = s.sums := rfl
@[simp] theorem modBelv_hostMem (f : Belv → Belv) : (modBelv s f).hostMem = s.hostMem := rfl
@[simp] theorem modBelv_slots (f : Belv → Belv) : (modBelv s f).slots = s.slots := rfl
@[simp] theorem modBelv_prov (f : Belv → Belv) : (modBelv s f).prov = s.prov := rfl
@[simp] theorem modBelv_epoch (f : Belv → Belv) : (modBelv s f).epoch = s.epoch := rfl
@[simp] theorem modBelv_suspended (f : Belv → Belv) : (modBelv s f).suspended = s.suspended := rfl
@[simp] theorem modBelv_applied (f : Belv → Belv) : (modBelv s f).applied = s.applied := rfl
@[simp] theorem modBelv_staging (f : Belv → Belv) : (modBelv s f).staging = s.staging := rfl
@[simp] theorem modBelv_engines (f : Belv → Belv) : (modBelv s f).engines = s.engines := rfl
@[simp] theorem modBelv_plates (f : Belv → Belv) : (modBelv s f).plates = s.plates := rfl
@[simp] theorem modBelv_weights (f : Belv → Belv) : (modBelv s f).weights = s.weights := rfl
@[simp] theorem modBelv_banks (f : Belv → Belv) : (modBelv s f).banks = s.banks := rfl
@[simp] theorem modBelv_slc (f : Belv → Belv) : (modBelv s f).slc = s.slc := rfl
@[simp] theorem modBelv_retain (f : Belv → Belv) : (modBelv s f).retain = s.retain := rfl
@[simp] theorem modBelv_dies (f : Belv → Belv) : (modBelv s f).dies = s.dies := rfl
@[simp] theorem modBelv_cores (f : Belv → Belv) : (modBelv s f).cores = s.cores := rfl
@[simp] theorem modBelv_coreMem (f : Belv → Belv) : (modBelv s f).coreMem = s.coreMem := rfl
@[simp] theorem modBelv_progs (f : Belv → Belv) : (modBelv s f).progs = s.progs := rfl
@[simp] theorem modBelv_qslots (f : Belv → Belv) : (modBelv s f).qslots = s.qslots := rfl
@[simp] theorem modBelv_ctrs (f : Belv → Belv) : (modBelv s f).ctrs = s.ctrs := rfl
@[simp] theorem modBelv_runs (f : Belv → Belv) : (modBelv s f).runs = s.runs := rfl
@[simp] theorem modBelv_nextRun (f : Belv → Belv) : (modBelv s f).nextRun = s.nextRun := rfl
@[simp] theorem modBelv_feeds (f : Belv → Belv) : (modBelv s f).feeds = s.feeds := rfl
@[simp] theorem modBelv_slow (f : Belv → Belv) : (modBelv s f).slow = s.slow := rfl
@[simp] theorem modBelv_links (f : Belv → Belv) : (modBelv s f).links = s.links := rfl
@[simp] theorem modBelv_xfers (f : Belv → Belv) : (modBelv s f).xfers = s.xfers := rfl
@[simp] theorem modBelv_nextXfer (f : Belv → Belv) : (modBelv s f).nextXfer = s.nextXfer := rfl
@[simp] theorem modBelv_flows (f : Belv → Belv) : (modBelv s f).flows = s.flows := rfl
@[simp] theorem modBelv_landing (f : Belv → Belv) : (modBelv s f).landing = s.landing := rfl
@[simp] theorem modBelv_flitAt (f : Belv → Belv) : (modBelv s f).flitAt = s.flitAt := rfl
@[simp] theorem modBelv_pkgMem (f : Belv → Belv) : (modBelv s f).pkgMem = s.pkgMem := rfl
@[simp] theorem modBelv_poison (f : Belv → Belv) : (modBelv s f).poison = s.poison := rfl
@[simp] theorem modBelv_scrubAt (f : Belv → Belv) : (modBelv s f).scrubAt = s.scrubAt := rfl
@[simp] theorem modBelv_units (f : Belv → Belv) : (modBelv s f).units = s.units := rfl
@[simp] theorem modBelv_tpls (f : Belv → Belv) : (modBelv s f).tpls = s.tpls := rfl
@[simp] theorem modBelv_isu (f : Belv → Belv) : (modBelv s f).isu = s.isu := rfl
@[simp] theorem modBelv_pwr (f : Belv → Belv) : (modBelv s f).pwr = s.pwr := rfl
@[simp] theorem modBelv_otp (f : Belv → Belv) : (modBelv s f).otp = s.otp := rfl
@[simp] theorem modBelv_nv (f : Belv → Belv) : (modBelv s f).nv = s.nv := rfl
@[simp] theorem modBelv_sec (f : Belv → Belv) : (modBelv s f).sec = s.sec := rfl
@[simp] theorem modBelv_boot (f : Belv → Belv) : (modBelv s f).boot = s.boot := rfl
@[simp] theorem modBelv_tap (f : Belv → Belv) : (modBelv s f).tap = s.tap := rfl
@[simp] theorem modBelv_free (f : Belv → Belv) : (modBelv s f).free = s.free := rfl
@[simp] theorem modBelv_pending (f : Belv → Belv) : (modBelv s f).pending = s.pending := rfl

/-! ### modIsu -/

@[simp] theorem modIsu_part (f : Isu → Isu) : (modIsu s f).part = s.part := rfl
@[simp] theorem modIsu_regs (f : Isu → Isu) : (modIsu s f).regs = s.regs := rfl
@[simp] theorem modIsu_hiShadow (f : Isu → Isu) : (modIsu s f).hiShadow = s.hiShadow := rfl
@[simp] theorem modIsu_loStage (f : Isu → Isu) : (modIsu s f).loStage = s.loStage := rfl
@[simp] theorem modIsu_evq (f : Isu → Isu) : (modIsu s f).evq = s.evq := rfl
@[simp] theorem modIsu_bus (f : Isu → Isu) : (modIsu s f).bus = s.bus := rfl
@[simp] theorem modIsu_belv (f : Isu → Isu) : (modIsu s f).belv = s.belv := rfl
@[simp] theorem modIsu_entries (f : Isu → Isu) : (modIsu s f).entries = s.entries := rfl
@[simp] theorem modIsu_groups (f : Isu → Isu) : (modIsu s f).groups = s.groups := rfl
@[simp] theorem modIsu_wins (f : Isu → Isu) : (modIsu s f).wins = s.wins := rfl
@[simp] theorem modIsu_nextWin (f : Isu → Isu) : (modIsu s f).nextWin = s.nextWin := rfl
@[simp] theorem modIsu_streams (f : Isu → Isu) : (modIsu s f).streams = s.streams := rfl
@[simp] theorem modIsu_lp11 (f : Isu → Isu) : (modIsu s f).lp11 = s.lp11 := rfl
@[simp] theorem modIsu_ingest (f : Isu → Isu) : (modIsu s f).ingest = s.ingest := rfl
@[simp] theorem modIsu_rings (f : Isu → Isu) : (modIsu s f).rings = s.rings := rfl
@[simp] theorem modIsu_rr (f : Isu → Isu) : (modIsu s f).rr = s.rr := rfl
@[simp] theorem modIsu_reqs (f : Isu → Isu) : (modIsu s f).reqs = s.reqs := rfl
@[simp] theorem modIsu_nextReq (f : Isu → Isu) : (modIsu s f).nextReq = s.nextReq := rfl
@[simp] theorem modIsu_launches (f : Isu → Isu) : (modIsu s f).launches = s.launches := rfl
@[simp] theorem modIsu_taskRuns (f : Isu → Isu) : (modIsu s f).taskRuns = s.taskRuns := rfl
@[simp] theorem modIsu_sums (f : Isu → Isu) : (modIsu s f).sums = s.sums := rfl
@[simp] theorem modIsu_hostMem (f : Isu → Isu) : (modIsu s f).hostMem = s.hostMem := rfl
@[simp] theorem modIsu_slots (f : Isu → Isu) : (modIsu s f).slots = s.slots := rfl
@[simp] theorem modIsu_prov (f : Isu → Isu) : (modIsu s f).prov = s.prov := rfl
@[simp] theorem modIsu_epoch (f : Isu → Isu) : (modIsu s f).epoch = s.epoch := rfl
@[simp] theorem modIsu_suspended (f : Isu → Isu) : (modIsu s f).suspended = s.suspended := rfl
@[simp] theorem modIsu_applied (f : Isu → Isu) : (modIsu s f).applied = s.applied := rfl
@[simp] theorem modIsu_staging (f : Isu → Isu) : (modIsu s f).staging = s.staging := rfl
@[simp] theorem modIsu_engines (f : Isu → Isu) : (modIsu s f).engines = s.engines := rfl
@[simp] theorem modIsu_plates (f : Isu → Isu) : (modIsu s f).plates = s.plates := rfl
@[simp] theorem modIsu_weights (f : Isu → Isu) : (modIsu s f).weights = s.weights := rfl
@[simp] theorem modIsu_banks (f : Isu → Isu) : (modIsu s f).banks = s.banks := rfl
@[simp] theorem modIsu_slc (f : Isu → Isu) : (modIsu s f).slc = s.slc := rfl
@[simp] theorem modIsu_retain (f : Isu → Isu) : (modIsu s f).retain = s.retain := rfl
@[simp] theorem modIsu_dies (f : Isu → Isu) : (modIsu s f).dies = s.dies := rfl
@[simp] theorem modIsu_cores (f : Isu → Isu) : (modIsu s f).cores = s.cores := rfl
@[simp] theorem modIsu_coreMem (f : Isu → Isu) : (modIsu s f).coreMem = s.coreMem := rfl
@[simp] theorem modIsu_progs (f : Isu → Isu) : (modIsu s f).progs = s.progs := rfl
@[simp] theorem modIsu_qslots (f : Isu → Isu) : (modIsu s f).qslots = s.qslots := rfl
@[simp] theorem modIsu_ctrs (f : Isu → Isu) : (modIsu s f).ctrs = s.ctrs := rfl
@[simp] theorem modIsu_runs (f : Isu → Isu) : (modIsu s f).runs = s.runs := rfl
@[simp] theorem modIsu_nextRun (f : Isu → Isu) : (modIsu s f).nextRun = s.nextRun := rfl
@[simp] theorem modIsu_feeds (f : Isu → Isu) : (modIsu s f).feeds = s.feeds := rfl
@[simp] theorem modIsu_slow (f : Isu → Isu) : (modIsu s f).slow = s.slow := rfl
@[simp] theorem modIsu_links (f : Isu → Isu) : (modIsu s f).links = s.links := rfl
@[simp] theorem modIsu_xfers (f : Isu → Isu) : (modIsu s f).xfers = s.xfers := rfl
@[simp] theorem modIsu_nextXfer (f : Isu → Isu) : (modIsu s f).nextXfer = s.nextXfer := rfl
@[simp] theorem modIsu_flows (f : Isu → Isu) : (modIsu s f).flows = s.flows := rfl
@[simp] theorem modIsu_landing (f : Isu → Isu) : (modIsu s f).landing = s.landing := rfl
@[simp] theorem modIsu_flitAt (f : Isu → Isu) : (modIsu s f).flitAt = s.flitAt := rfl
@[simp] theorem modIsu_pkgMem (f : Isu → Isu) : (modIsu s f).pkgMem = s.pkgMem := rfl
@[simp] theorem modIsu_poison (f : Isu → Isu) : (modIsu s f).poison = s.poison := rfl
@[simp] theorem modIsu_scrubAt (f : Isu → Isu) : (modIsu s f).scrubAt = s.scrubAt := rfl
@[simp] theorem modIsu_units (f : Isu → Isu) : (modIsu s f).units = s.units := rfl
@[simp] theorem modIsu_tpls (f : Isu → Isu) : (modIsu s f).tpls = s.tpls := rfl
@[simp] theorem modIsu_isu (f : Isu → Isu) : (modIsu s f).isu = f s.isu := rfl
@[simp] theorem modIsu_pwr (f : Isu → Isu) : (modIsu s f).pwr = s.pwr := rfl
@[simp] theorem modIsu_otp (f : Isu → Isu) : (modIsu s f).otp = s.otp := rfl
@[simp] theorem modIsu_nv (f : Isu → Isu) : (modIsu s f).nv = s.nv := rfl
@[simp] theorem modIsu_sec (f : Isu → Isu) : (modIsu s f).sec = s.sec := rfl
@[simp] theorem modIsu_boot (f : Isu → Isu) : (modIsu s f).boot = s.boot := rfl
@[simp] theorem modIsu_tap (f : Isu → Isu) : (modIsu s f).tap = s.tap := rfl
@[simp] theorem modIsu_free (f : Isu → Isu) : (modIsu s f).free = s.free := rfl
@[simp] theorem modIsu_pending (f : Isu → Isu) : (modIsu s f).pending = s.pending := rfl

/-! ### modPwr -/

@[simp] theorem modPwr_part (f : Pwr → Pwr) : (modPwr s f).part = s.part := rfl
@[simp] theorem modPwr_regs (f : Pwr → Pwr) : (modPwr s f).regs = s.regs := rfl
@[simp] theorem modPwr_hiShadow (f : Pwr → Pwr) : (modPwr s f).hiShadow = s.hiShadow := rfl
@[simp] theorem modPwr_loStage (f : Pwr → Pwr) : (modPwr s f).loStage = s.loStage := rfl
@[simp] theorem modPwr_evq (f : Pwr → Pwr) : (modPwr s f).evq = s.evq := rfl
@[simp] theorem modPwr_bus (f : Pwr → Pwr) : (modPwr s f).bus = s.bus := rfl
@[simp] theorem modPwr_belv (f : Pwr → Pwr) : (modPwr s f).belv = s.belv := rfl
@[simp] theorem modPwr_entries (f : Pwr → Pwr) : (modPwr s f).entries = s.entries := rfl
@[simp] theorem modPwr_groups (f : Pwr → Pwr) : (modPwr s f).groups = s.groups := rfl
@[simp] theorem modPwr_wins (f : Pwr → Pwr) : (modPwr s f).wins = s.wins := rfl
@[simp] theorem modPwr_nextWin (f : Pwr → Pwr) : (modPwr s f).nextWin = s.nextWin := rfl
@[simp] theorem modPwr_streams (f : Pwr → Pwr) : (modPwr s f).streams = s.streams := rfl
@[simp] theorem modPwr_lp11 (f : Pwr → Pwr) : (modPwr s f).lp11 = s.lp11 := rfl
@[simp] theorem modPwr_ingest (f : Pwr → Pwr) : (modPwr s f).ingest = s.ingest := rfl
@[simp] theorem modPwr_rings (f : Pwr → Pwr) : (modPwr s f).rings = s.rings := rfl
@[simp] theorem modPwr_rr (f : Pwr → Pwr) : (modPwr s f).rr = s.rr := rfl
@[simp] theorem modPwr_reqs (f : Pwr → Pwr) : (modPwr s f).reqs = s.reqs := rfl
@[simp] theorem modPwr_nextReq (f : Pwr → Pwr) : (modPwr s f).nextReq = s.nextReq := rfl
@[simp] theorem modPwr_launches (f : Pwr → Pwr) : (modPwr s f).launches = s.launches := rfl
@[simp] theorem modPwr_taskRuns (f : Pwr → Pwr) : (modPwr s f).taskRuns = s.taskRuns := rfl
@[simp] theorem modPwr_sums (f : Pwr → Pwr) : (modPwr s f).sums = s.sums := rfl
@[simp] theorem modPwr_hostMem (f : Pwr → Pwr) : (modPwr s f).hostMem = s.hostMem := rfl
@[simp] theorem modPwr_slots (f : Pwr → Pwr) : (modPwr s f).slots = s.slots := rfl
@[simp] theorem modPwr_prov (f : Pwr → Pwr) : (modPwr s f).prov = s.prov := rfl
@[simp] theorem modPwr_epoch (f : Pwr → Pwr) : (modPwr s f).epoch = s.epoch := rfl
@[simp] theorem modPwr_suspended (f : Pwr → Pwr) : (modPwr s f).suspended = s.suspended := rfl
@[simp] theorem modPwr_applied (f : Pwr → Pwr) : (modPwr s f).applied = s.applied := rfl
@[simp] theorem modPwr_staging (f : Pwr → Pwr) : (modPwr s f).staging = s.staging := rfl
@[simp] theorem modPwr_engines (f : Pwr → Pwr) : (modPwr s f).engines = s.engines := rfl
@[simp] theorem modPwr_plates (f : Pwr → Pwr) : (modPwr s f).plates = s.plates := rfl
@[simp] theorem modPwr_weights (f : Pwr → Pwr) : (modPwr s f).weights = s.weights := rfl
@[simp] theorem modPwr_banks (f : Pwr → Pwr) : (modPwr s f).banks = s.banks := rfl
@[simp] theorem modPwr_slc (f : Pwr → Pwr) : (modPwr s f).slc = s.slc := rfl
@[simp] theorem modPwr_retain (f : Pwr → Pwr) : (modPwr s f).retain = s.retain := rfl
@[simp] theorem modPwr_dies (f : Pwr → Pwr) : (modPwr s f).dies = s.dies := rfl
@[simp] theorem modPwr_cores (f : Pwr → Pwr) : (modPwr s f).cores = s.cores := rfl
@[simp] theorem modPwr_coreMem (f : Pwr → Pwr) : (modPwr s f).coreMem = s.coreMem := rfl
@[simp] theorem modPwr_progs (f : Pwr → Pwr) : (modPwr s f).progs = s.progs := rfl
@[simp] theorem modPwr_qslots (f : Pwr → Pwr) : (modPwr s f).qslots = s.qslots := rfl
@[simp] theorem modPwr_ctrs (f : Pwr → Pwr) : (modPwr s f).ctrs = s.ctrs := rfl
@[simp] theorem modPwr_runs (f : Pwr → Pwr) : (modPwr s f).runs = s.runs := rfl
@[simp] theorem modPwr_nextRun (f : Pwr → Pwr) : (modPwr s f).nextRun = s.nextRun := rfl
@[simp] theorem modPwr_feeds (f : Pwr → Pwr) : (modPwr s f).feeds = s.feeds := rfl
@[simp] theorem modPwr_slow (f : Pwr → Pwr) : (modPwr s f).slow = s.slow := rfl
@[simp] theorem modPwr_links (f : Pwr → Pwr) : (modPwr s f).links = s.links := rfl
@[simp] theorem modPwr_xfers (f : Pwr → Pwr) : (modPwr s f).xfers = s.xfers := rfl
@[simp] theorem modPwr_nextXfer (f : Pwr → Pwr) : (modPwr s f).nextXfer = s.nextXfer := rfl
@[simp] theorem modPwr_flows (f : Pwr → Pwr) : (modPwr s f).flows = s.flows := rfl
@[simp] theorem modPwr_landing (f : Pwr → Pwr) : (modPwr s f).landing = s.landing := rfl
@[simp] theorem modPwr_flitAt (f : Pwr → Pwr) : (modPwr s f).flitAt = s.flitAt := rfl
@[simp] theorem modPwr_pkgMem (f : Pwr → Pwr) : (modPwr s f).pkgMem = s.pkgMem := rfl
@[simp] theorem modPwr_poison (f : Pwr → Pwr) : (modPwr s f).poison = s.poison := rfl
@[simp] theorem modPwr_scrubAt (f : Pwr → Pwr) : (modPwr s f).scrubAt = s.scrubAt := rfl
@[simp] theorem modPwr_units (f : Pwr → Pwr) : (modPwr s f).units = s.units := rfl
@[simp] theorem modPwr_tpls (f : Pwr → Pwr) : (modPwr s f).tpls = s.tpls := rfl
@[simp] theorem modPwr_isu (f : Pwr → Pwr) : (modPwr s f).isu = s.isu := rfl
@[simp] theorem modPwr_pwr (f : Pwr → Pwr) : (modPwr s f).pwr = f s.pwr := rfl
@[simp] theorem modPwr_otp (f : Pwr → Pwr) : (modPwr s f).otp = s.otp := rfl
@[simp] theorem modPwr_nv (f : Pwr → Pwr) : (modPwr s f).nv = s.nv := rfl
@[simp] theorem modPwr_sec (f : Pwr → Pwr) : (modPwr s f).sec = s.sec := rfl
@[simp] theorem modPwr_boot (f : Pwr → Pwr) : (modPwr s f).boot = s.boot := rfl
@[simp] theorem modPwr_tap (f : Pwr → Pwr) : (modPwr s f).tap = s.tap := rfl
@[simp] theorem modPwr_free (f : Pwr → Pwr) : (modPwr s f).free = s.free := rfl
@[simp] theorem modPwr_pending (f : Pwr → Pwr) : (modPwr s f).pending = s.pending := rfl

/-! ### modBoot -/

@[simp] theorem modBoot_part (f : Boot → Boot) : (modBoot s f).part = s.part := rfl
@[simp] theorem modBoot_regs (f : Boot → Boot) : (modBoot s f).regs = s.regs := rfl
@[simp] theorem modBoot_hiShadow (f : Boot → Boot) : (modBoot s f).hiShadow = s.hiShadow := rfl
@[simp] theorem modBoot_loStage (f : Boot → Boot) : (modBoot s f).loStage = s.loStage := rfl
@[simp] theorem modBoot_evq (f : Boot → Boot) : (modBoot s f).evq = s.evq := rfl
@[simp] theorem modBoot_bus (f : Boot → Boot) : (modBoot s f).bus = s.bus := rfl
@[simp] theorem modBoot_belv (f : Boot → Boot) : (modBoot s f).belv = s.belv := rfl
@[simp] theorem modBoot_entries (f : Boot → Boot) : (modBoot s f).entries = s.entries := rfl
@[simp] theorem modBoot_groups (f : Boot → Boot) : (modBoot s f).groups = s.groups := rfl
@[simp] theorem modBoot_wins (f : Boot → Boot) : (modBoot s f).wins = s.wins := rfl
@[simp] theorem modBoot_nextWin (f : Boot → Boot) : (modBoot s f).nextWin = s.nextWin := rfl
@[simp] theorem modBoot_streams (f : Boot → Boot) : (modBoot s f).streams = s.streams := rfl
@[simp] theorem modBoot_lp11 (f : Boot → Boot) : (modBoot s f).lp11 = s.lp11 := rfl
@[simp] theorem modBoot_ingest (f : Boot → Boot) : (modBoot s f).ingest = s.ingest := rfl
@[simp] theorem modBoot_rings (f : Boot → Boot) : (modBoot s f).rings = s.rings := rfl
@[simp] theorem modBoot_rr (f : Boot → Boot) : (modBoot s f).rr = s.rr := rfl
@[simp] theorem modBoot_reqs (f : Boot → Boot) : (modBoot s f).reqs = s.reqs := rfl
@[simp] theorem modBoot_nextReq (f : Boot → Boot) : (modBoot s f).nextReq = s.nextReq := rfl
@[simp] theorem modBoot_launches (f : Boot → Boot) : (modBoot s f).launches = s.launches := rfl
@[simp] theorem modBoot_taskRuns (f : Boot → Boot) : (modBoot s f).taskRuns = s.taskRuns := rfl
@[simp] theorem modBoot_sums (f : Boot → Boot) : (modBoot s f).sums = s.sums := rfl
@[simp] theorem modBoot_hostMem (f : Boot → Boot) : (modBoot s f).hostMem = s.hostMem := rfl
@[simp] theorem modBoot_slots (f : Boot → Boot) : (modBoot s f).slots = s.slots := rfl
@[simp] theorem modBoot_prov (f : Boot → Boot) : (modBoot s f).prov = s.prov := rfl
@[simp] theorem modBoot_epoch (f : Boot → Boot) : (modBoot s f).epoch = s.epoch := rfl
@[simp] theorem modBoot_suspended (f : Boot → Boot) : (modBoot s f).suspended = s.suspended := rfl
@[simp] theorem modBoot_applied (f : Boot → Boot) : (modBoot s f).applied = s.applied := rfl
@[simp] theorem modBoot_staging (f : Boot → Boot) : (modBoot s f).staging = s.staging := rfl
@[simp] theorem modBoot_engines (f : Boot → Boot) : (modBoot s f).engines = s.engines := rfl
@[simp] theorem modBoot_plates (f : Boot → Boot) : (modBoot s f).plates = s.plates := rfl
@[simp] theorem modBoot_weights (f : Boot → Boot) : (modBoot s f).weights = s.weights := rfl
@[simp] theorem modBoot_banks (f : Boot → Boot) : (modBoot s f).banks = s.banks := rfl
@[simp] theorem modBoot_slc (f : Boot → Boot) : (modBoot s f).slc = s.slc := rfl
@[simp] theorem modBoot_retain (f : Boot → Boot) : (modBoot s f).retain = s.retain := rfl
@[simp] theorem modBoot_dies (f : Boot → Boot) : (modBoot s f).dies = s.dies := rfl
@[simp] theorem modBoot_cores (f : Boot → Boot) : (modBoot s f).cores = s.cores := rfl
@[simp] theorem modBoot_coreMem (f : Boot → Boot) : (modBoot s f).coreMem = s.coreMem := rfl
@[simp] theorem modBoot_progs (f : Boot → Boot) : (modBoot s f).progs = s.progs := rfl
@[simp] theorem modBoot_qslots (f : Boot → Boot) : (modBoot s f).qslots = s.qslots := rfl
@[simp] theorem modBoot_ctrs (f : Boot → Boot) : (modBoot s f).ctrs = s.ctrs := rfl
@[simp] theorem modBoot_runs (f : Boot → Boot) : (modBoot s f).runs = s.runs := rfl
@[simp] theorem modBoot_nextRun (f : Boot → Boot) : (modBoot s f).nextRun = s.nextRun := rfl
@[simp] theorem modBoot_feeds (f : Boot → Boot) : (modBoot s f).feeds = s.feeds := rfl
@[simp] theorem modBoot_slow (f : Boot → Boot) : (modBoot s f).slow = s.slow := rfl
@[simp] theorem modBoot_links (f : Boot → Boot) : (modBoot s f).links = s.links := rfl
@[simp] theorem modBoot_xfers (f : Boot → Boot) : (modBoot s f).xfers = s.xfers := rfl
@[simp] theorem modBoot_nextXfer (f : Boot → Boot) : (modBoot s f).nextXfer = s.nextXfer := rfl
@[simp] theorem modBoot_flows (f : Boot → Boot) : (modBoot s f).flows = s.flows := rfl
@[simp] theorem modBoot_landing (f : Boot → Boot) : (modBoot s f).landing = s.landing := rfl
@[simp] theorem modBoot_flitAt (f : Boot → Boot) : (modBoot s f).flitAt = s.flitAt := rfl
@[simp] theorem modBoot_pkgMem (f : Boot → Boot) : (modBoot s f).pkgMem = s.pkgMem := rfl
@[simp] theorem modBoot_poison (f : Boot → Boot) : (modBoot s f).poison = s.poison := rfl
@[simp] theorem modBoot_scrubAt (f : Boot → Boot) : (modBoot s f).scrubAt = s.scrubAt := rfl
@[simp] theorem modBoot_units (f : Boot → Boot) : (modBoot s f).units = s.units := rfl
@[simp] theorem modBoot_tpls (f : Boot → Boot) : (modBoot s f).tpls = s.tpls := rfl
@[simp] theorem modBoot_isu (f : Boot → Boot) : (modBoot s f).isu = s.isu := rfl
@[simp] theorem modBoot_pwr (f : Boot → Boot) : (modBoot s f).pwr = s.pwr := rfl
@[simp] theorem modBoot_otp (f : Boot → Boot) : (modBoot s f).otp = s.otp := rfl
@[simp] theorem modBoot_nv (f : Boot → Boot) : (modBoot s f).nv = s.nv := rfl
@[simp] theorem modBoot_sec (f : Boot → Boot) : (modBoot s f).sec = s.sec := rfl
@[simp] theorem modBoot_boot (f : Boot → Boot) : (modBoot s f).boot = f s.boot := rfl
@[simp] theorem modBoot_tap (f : Boot → Boot) : (modBoot s f).tap = s.tap := rfl
@[simp] theorem modBoot_free (f : Boot → Boot) : (modBoot s f).free = s.free := rfl
@[simp] theorem modBoot_pending (f : Boot → Boot) : (modBoot s f).pending = s.pending := rfl

/-! ### modNv -/

@[simp] theorem modNv_part (f : Nv → Nv) : (modNv s f).part = s.part := rfl
@[simp] theorem modNv_regs (f : Nv → Nv) : (modNv s f).regs = s.regs := rfl
@[simp] theorem modNv_hiShadow (f : Nv → Nv) : (modNv s f).hiShadow = s.hiShadow := rfl
@[simp] theorem modNv_loStage (f : Nv → Nv) : (modNv s f).loStage = s.loStage := rfl
@[simp] theorem modNv_evq (f : Nv → Nv) : (modNv s f).evq = s.evq := rfl
@[simp] theorem modNv_bus (f : Nv → Nv) : (modNv s f).bus = s.bus := rfl
@[simp] theorem modNv_belv (f : Nv → Nv) : (modNv s f).belv = s.belv := rfl
@[simp] theorem modNv_entries (f : Nv → Nv) : (modNv s f).entries = s.entries := rfl
@[simp] theorem modNv_groups (f : Nv → Nv) : (modNv s f).groups = s.groups := rfl
@[simp] theorem modNv_wins (f : Nv → Nv) : (modNv s f).wins = s.wins := rfl
@[simp] theorem modNv_nextWin (f : Nv → Nv) : (modNv s f).nextWin = s.nextWin := rfl
@[simp] theorem modNv_streams (f : Nv → Nv) : (modNv s f).streams = s.streams := rfl
@[simp] theorem modNv_lp11 (f : Nv → Nv) : (modNv s f).lp11 = s.lp11 := rfl
@[simp] theorem modNv_ingest (f : Nv → Nv) : (modNv s f).ingest = s.ingest := rfl
@[simp] theorem modNv_rings (f : Nv → Nv) : (modNv s f).rings = s.rings := rfl
@[simp] theorem modNv_rr (f : Nv → Nv) : (modNv s f).rr = s.rr := rfl
@[simp] theorem modNv_reqs (f : Nv → Nv) : (modNv s f).reqs = s.reqs := rfl
@[simp] theorem modNv_nextReq (f : Nv → Nv) : (modNv s f).nextReq = s.nextReq := rfl
@[simp] theorem modNv_launches (f : Nv → Nv) : (modNv s f).launches = s.launches := rfl
@[simp] theorem modNv_taskRuns (f : Nv → Nv) : (modNv s f).taskRuns = s.taskRuns := rfl
@[simp] theorem modNv_sums (f : Nv → Nv) : (modNv s f).sums = s.sums := rfl
@[simp] theorem modNv_hostMem (f : Nv → Nv) : (modNv s f).hostMem = s.hostMem := rfl
@[simp] theorem modNv_slots (f : Nv → Nv) : (modNv s f).slots = s.slots := rfl
@[simp] theorem modNv_prov (f : Nv → Nv) : (modNv s f).prov = s.prov := rfl
@[simp] theorem modNv_epoch (f : Nv → Nv) : (modNv s f).epoch = s.epoch := rfl
@[simp] theorem modNv_suspended (f : Nv → Nv) : (modNv s f).suspended = s.suspended := rfl
@[simp] theorem modNv_applied (f : Nv → Nv) : (modNv s f).applied = s.applied := rfl
@[simp] theorem modNv_staging (f : Nv → Nv) : (modNv s f).staging = s.staging := rfl
@[simp] theorem modNv_engines (f : Nv → Nv) : (modNv s f).engines = s.engines := rfl
@[simp] theorem modNv_plates (f : Nv → Nv) : (modNv s f).plates = s.plates := rfl
@[simp] theorem modNv_weights (f : Nv → Nv) : (modNv s f).weights = s.weights := rfl
@[simp] theorem modNv_banks (f : Nv → Nv) : (modNv s f).banks = s.banks := rfl
@[simp] theorem modNv_slc (f : Nv → Nv) : (modNv s f).slc = s.slc := rfl
@[simp] theorem modNv_retain (f : Nv → Nv) : (modNv s f).retain = s.retain := rfl
@[simp] theorem modNv_dies (f : Nv → Nv) : (modNv s f).dies = s.dies := rfl
@[simp] theorem modNv_cores (f : Nv → Nv) : (modNv s f).cores = s.cores := rfl
@[simp] theorem modNv_coreMem (f : Nv → Nv) : (modNv s f).coreMem = s.coreMem := rfl
@[simp] theorem modNv_progs (f : Nv → Nv) : (modNv s f).progs = s.progs := rfl
@[simp] theorem modNv_qslots (f : Nv → Nv) : (modNv s f).qslots = s.qslots := rfl
@[simp] theorem modNv_ctrs (f : Nv → Nv) : (modNv s f).ctrs = s.ctrs := rfl
@[simp] theorem modNv_runs (f : Nv → Nv) : (modNv s f).runs = s.runs := rfl
@[simp] theorem modNv_nextRun (f : Nv → Nv) : (modNv s f).nextRun = s.nextRun := rfl
@[simp] theorem modNv_feeds (f : Nv → Nv) : (modNv s f).feeds = s.feeds := rfl
@[simp] theorem modNv_slow (f : Nv → Nv) : (modNv s f).slow = s.slow := rfl
@[simp] theorem modNv_links (f : Nv → Nv) : (modNv s f).links = s.links := rfl
@[simp] theorem modNv_xfers (f : Nv → Nv) : (modNv s f).xfers = s.xfers := rfl
@[simp] theorem modNv_nextXfer (f : Nv → Nv) : (modNv s f).nextXfer = s.nextXfer := rfl
@[simp] theorem modNv_flows (f : Nv → Nv) : (modNv s f).flows = s.flows := rfl
@[simp] theorem modNv_landing (f : Nv → Nv) : (modNv s f).landing = s.landing := rfl
@[simp] theorem modNv_flitAt (f : Nv → Nv) : (modNv s f).flitAt = s.flitAt := rfl
@[simp] theorem modNv_pkgMem (f : Nv → Nv) : (modNv s f).pkgMem = s.pkgMem := rfl
@[simp] theorem modNv_poison (f : Nv → Nv) : (modNv s f).poison = s.poison := rfl
@[simp] theorem modNv_scrubAt (f : Nv → Nv) : (modNv s f).scrubAt = s.scrubAt := rfl
@[simp] theorem modNv_units (f : Nv → Nv) : (modNv s f).units = s.units := rfl
@[simp] theorem modNv_tpls (f : Nv → Nv) : (modNv s f).tpls = s.tpls := rfl
@[simp] theorem modNv_isu (f : Nv → Nv) : (modNv s f).isu = s.isu := rfl
@[simp] theorem modNv_pwr (f : Nv → Nv) : (modNv s f).pwr = s.pwr := rfl
@[simp] theorem modNv_otp (f : Nv → Nv) : (modNv s f).otp = s.otp := rfl
@[simp] theorem modNv_nv (f : Nv → Nv) : (modNv s f).nv = f s.nv := rfl
@[simp] theorem modNv_sec (f : Nv → Nv) : (modNv s f).sec = s.sec := rfl
@[simp] theorem modNv_boot (f : Nv → Nv) : (modNv s f).boot = s.boot := rfl
@[simp] theorem modNv_tap (f : Nv → Nv) : (modNv s f).tap = s.tap := rfl
@[simp] theorem modNv_free (f : Nv → Nv) : (modNv s f).free = s.free := rfl
@[simp] theorem modNv_pending (f : Nv → Nv) : (modNv s f).pending = s.pending := rfl

end Sys2Proof.Laws
end

