-- ==== Sys2Proof/Laws/Table.lean ====
section
/-! SUPPORT. Sparse tables: what is read after a write, and the canonical form that every table operation keeps. -/

namespace Sys2Proof.Laws

open Sys2Proof Sys2Proof.Machine

variable {α : Type}

/-! ### Reading after a write -/

theorem tget_tdel_self (d : α) (t : Tab α) (k : Nat) : tget d (tdel t k) k = d := by
  induction t with
  | nil => rfl
  | cons e t ih =>
    obtain ⟨j, v⟩ := e
    by_cases h : j = k
    · simpa [tdel, h] using ih
    · have : tdel ((j, v) :: t) k = (j, v) :: tdel t k := by simp [tdel, h]
      rw [this, tget, if_neg h, ih]

theorem tget_tdel_other (d : α) (t : Tab α) {k k' : Nat} (h : k ≠ k') : tget d (tdel t k) k' = tget d t k' := by
  induction t with
  | nil => rfl
  | cons e t ih =>
    obtain ⟨j, v⟩ := e
    by_cases hj : j = k
    · have : tdel ((j, v) :: t) k = tdel t k := by simp [tdel, hj]
      rw [this, ih, tget, if_neg (by omega)]
    · have : tdel ((j, v) :: t) k = (j, v) :: tdel t k := by simp [tdel, hj]
      rw [this, tget, tget, ih]

theorem tget_tins_self (d : α) (t : Tab α) (k : Nat) (v : α) (h : ∀ e ∈ t, e.1 ≠ k) : tget d (tins t k v) k = v := by
  induction t with
  | nil => simp [tins, tget]
  | cons e t ih =>
    obtain ⟨j, w⟩ := e
    have hj : j ≠ k := h (j, w) (by simp)
    unfold tins
    split
    · simp [tget]
    · rw [tget, if_neg hj]
      exact ih fun e he => h e (by simp [he])

theorem tget_tins_other (d : α) (t : Tab α) {k k' : Nat} (v : α) (h : k ≠ k') : tget d (tins t k v) k' = tget d t k' := by
  induction t with
  | nil => simp [tins, tget, h]
  | cons e t ih =>
    obtain ⟨j, w⟩ := e
    unfold tins
    split
    · rw [tget, if_neg h]
    · rw [tget, tget, ih]

theorem mem_tdel {t : Tab α} {k : Nat} {e : Nat × α} : e ∈ tdel t k ↔ e ∈ t ∧ e.1 ≠ k := by
  simp [tdel]

/-- A key reads as what was written last. -/
theorem tget_tset_self [DecidableEq α] (d : α) (t : Tab α) (k : Nat) (v : α) : tget d (tset d t k v) k = v := by
  unfold tset
  split
  · next h => rw [tget_tdel_self, h]
  · exact tget_tins_self d _ k v fun e he => (mem_tdel.mp he).2

/-- Every other key reads as before. -/
theorem tget_tset_other [DecidableEq α] (d d' : α) (t : Tab α) {k k' : Nat} (v : α) (h : k ≠ k') :
    tget d' (tset d t k v) k' = tget d' t k' := by
  unfold tset
  split
  · exact tget_tdel_other d' t h
  · rw [tget_tins_other d' _ v h, tget_tdel_other d' t h]

/-! ### The canonical form -/

theorem mem_tins {t : Tab α} {k : Nat} {v : α} {e : Nat × α} : e ∈ tins t k v ↔ e = (k, v) ∨ e ∈ t := by
  induction t with
  | nil => simp [tins]
  | cons f t ih =>
    obtain ⟨j, w⟩ := f
    unfold tins
    split
    · simp
    · simp only [List.mem_cons, ih]
      tauto

theorem tabOk_cons [DecidableEq α] {d : Nat → α} {k : Nat} {v : α} {t : Tab α} :
    tabOk d ((k, v) :: t) = true ↔ v ≠ d k ∧ (∀ e ∈ t, k < e.1) ∧ tabOk d t = true := by
  simp [tabOk, Bool.and_eq_true, List.all_eq_true, and_assoc]

/-- Dropping entries keeps the form. -/
theorem tabOk_filter [DecidableEq α] {d : Nat → α} (p : Nat × α → Bool) {t : Tab α} (h : tabOk d t = true) :
    tabOk d (t.filter p) = true := by
  induction t with
  | nil => rfl
  | cons e t ih =>
    obtain ⟨k, v⟩ := e
    rw [tabOk_cons] at h
    rw [List.filter_cons]
    split
    · rw [tabOk_cons]
      exact ⟨h.1, fun e he => h.2.1 e (List.mem_of_mem_filter he), ih h.2.2⟩
    · exact ih h.2.2

theorem tabOk_tdel [DecidableEq α] {d : Nat → α} {t : Tab α} (k : Nat) (h : tabOk d t = true) : tabOk d (tdel t k) = true :=
  tabOk_filter _ h

theorem tabOk_tins [DecidableEq α] {d : Nat → α} {t : Tab α} {k : Nat} {v : α} (hv : v ≠ d k) (hk : ∀ e ∈ t, e.1 ≠ k)
    (h : tabOk d t = true) : tabOk d (tins t k v) = true := by
  induction t with
  | nil => simp [tins, tabOk, hv]
  | cons e t ih =>
    obtain ⟨j, w⟩ := e
    have hj : j ≠ k := hk (j, w) (by simp)
    have h' := tabOk_cons.mp h
    unfold tins
    split
    · next hlt =>
      rw [tabOk_cons]
      refine ⟨hv, fun e he => ?_, h⟩
      rcases List.mem_cons.mp he with rfl | he
      · exact hlt
      · have := h'.2.1 e he
        omega
    · next hlt =>
      rw [tabOk_cons]
      refine ⟨h'.1, fun e he => ?_, ih (fun e he => hk e (by simp [he])) h'.2.2⟩
      rcases mem_tins.mp he with rfl | he
      · show j < k
        omega
      · exact h'.2.1 e he

/-- A write keeps the form. -/
theorem tabOk_tset [DecidableEq α] {d : Nat → α} {t : Tab α} {k : Nat} {v d' : α} (hd : d' = d k) (h : tabOk d t = true) :
    tabOk d (tset d' t k v) = true := by
  unfold tset
  split
  · exact tabOk_tdel k h
  · next hv => exact tabOk_tins (hd ▸ hv) (fun e he => (mem_tdel.mp he).2) (tabOk_tdel k h)

/-! ### Byte stores -/

/-- The form of a byte store: an unlisted byte reads 0 (logs 7 and 8). -/
abbrev bytesOk (t : Tab Byte) : Prop := tabOk (fun _ => (0 : Byte)) t = true

/-- A write of bytes keeps the form. -/
theorem bytesOk_putBytes {t : Tab Byte} (a : Nat) (l : List Byte) (h : bytesOk t) : bytesOk (putBytes t a l) := by
  unfold putBytes
  generalize l.zipIdx = m
  induction m generalizing t with
  | nil => exact h
  | cons e m ih => exact ih (tabOk_tset rfl h)

theorem tget_putBytes_fold (m : List (Byte × Nat)) (t : Tab Byte) (a k : Nat) (h : ∀ e ∈ m, a + e.2 ≠ k) :
    tget 0 (m.foldl (fun t e => tset 0 t (a + e.2) e.1) t) k = tget 0 t k := by
  induction m generalizing t with
  | nil => rfl
  | cons e m ih =>
    rw [List.foldl_cons, ih _ fun e he => h e (by simp [he]), tget_tset_other 0 0 t e.1 (h e (by simp))]

/-- A byte outside the bytes written reads as before. -/
theorem tget_putBytes_other (t : Tab Byte) (a : Nat) (l : List Byte) (k : Nat) (h : k < a ∨ a + l.length ≤ k) :
    tget 0 (putBytes t a l) k = tget 0 t k := by
  refine tget_putBytes_fold _ t a k fun e he => ?_
  have := (List.mem_zipIdx he).2.1
  omega

end Sys2Proof.Laws
end

