-- ==== Sys2Proof/Laws/Regs.lean ====
section
/-! SUPPORT. Registers and sticky events: what a register reads after a write, and everything that taking the events of a
command into the pages can do. -/

namespace Sys2Proof.Laws

open Sys2Proof Sys2Proof.Machine

/-! ### Registers -/

/-- Two registers of the map have one home only if they are the same register. -/
theorem dwAddr_inj {p q a b : Nat} (ha : a < 4096) (hb : b < 4096) : dwAddr p a = dwAddr q b ↔ p = q ∧ a / 4 = b / 4 := by
  unfold dwAddr
  omega

theorem rget_of_regs {s t : State} (h : t.regs = s.regs) (p o : Nat) : rget t p o = rget s p o := by
  simp [rget, h]

@[simp] theorem rget_rset_self (s : State) (p o : Nat) (v : W32) : rget (rset s p o v) p o = v :=
  tget_tset_self _ _ _ _

theorem rget_rset_other (s : State) {p q o r : Nat} (v : W32) (h : dwAddr p o ≠ dwAddr q r) :
    rget (rset s p o v) q r = rget s q r :=
  tget_tset_other _ _ _ v h

theorem rget_rset64_lo (s : State) (p o v : Nat) : rget (rset64 s p o v) p o = lo32 v := by
  have h : dwAddr p (o + 4) ≠ dwAddr p o := by unfold dwAddr; omega
  rw [rset64, rget_rset_other _ _ h, rget_rset_self]

theorem rget_rset64_hi (s : State) (p o v : Nat) : rget (rset64 s p o v) p (o + 4) = hi32 v := rget_rset_self _ _ _ _

theorem rget_rset64_other (s : State) {p q o r : Nat} (v : Nat) (hl : dwAddr p o ≠ dwAddr q r)
    (hh : dwAddr p (o + 4) ≠ dwAddr q r) : rget (rset64 s p o v) q r = rget s q r := by
  rw [rset64, rget_rset_other _ _ hh, rget_rset_other _ _ hl]

/-- A pair reads as the number written, modulo 2^64. -/
theorem rget64_rset64 (s : State) (p o v : Nat) : rget64 (rset64 s p o v) p o = v % 2 ^ 64 := by
  rw [rget64, rget_rset64_lo, rget_rset64_hi, lo32, hi32, BitVec.toNat_ofNat, BitVec.toNat_ofNat]
  omega

/-- A counter adds, and stops at its top. -/
theorem rget_count_self (s : State) (p o n : Nat) :
    (rget (count s p o n) p o).toNat = min ((rget s p o).toNat + n) 0xFFFFFFFF := by
  rw [count, rget_rset_self, BitVec.toNat_ofNat]
  omega

theorem rget_count_other (s : State) {p q o r : Nat} (n : Nat) (h : dwAddr p o ≠ dwAddr q r) :
    rget (count s p o n) q r = rget s q r := rget_rset_other _ _ h

/-! ### Taking events -/

/-- What settling may change: the words of a header that events reach, and nothing else. -/
structure SameButHeads (s t : State) : Prop where
  rest : { t with regs := s.regs } = s
  regs : ∀ p o, o < 4096 → o / 4 ≠ 6 → o / 4 ≠ 7 → o / 4 ≠ 9 → o / 4 ≠ 10 → o / 4 ≠ 11 → rget t p o = rget s p o

theorem SameButHeads.refl (s : State) : SameButHeads s s := ⟨rfl, fun _ _ _ _ _ _ _ _ => rfl⟩

theorem SameButHeads.trans {s t u : State} (h : SameButHeads s t) (k : SameButHeads t u) : SameButHeads s u := by
  refine ⟨?_, fun p o a b c d e f => (k.regs p o a b c d e f).trans (h.regs p o a b c d e f)⟩
  have hk := k.rest
  have hh := h.rest
  rw [← hh, ← hk]

theorem sameButHeads_rset (s : State) {p o : Nat} (v : W32) (h4 : o < 4096)
    (h : o / 4 = 6 ∨ o / 4 = 7 ∨ o / 4 = 9 ∨ o / 4 = 10 ∨ o / 4 = 11) : SameButHeads s (rset s p o v) := by
  refine ⟨rfl, fun q r _ _ _ _ _ _ => rget_rset_other _ _ fun e => ?_⟩
  have := (dwAddr_inj h4 ‹_›).mp e
  omega

theorem settlePage_sameButHeads (s : State) (p : Nat) (es : List Ev) : SameButHeads s (settlePage s p es) := by
  unfold settlePage rset64
  dsimp only
  have h1 (u : State) (v : W32) : SameButHeads u (rset u p 0x1C v) := sameButHeads_rset u v (by omega) (by omega)
  have h2 (u : State) (v : W32) : SameButHeads u (rset u p 0x18 v) := sameButHeads_rset u v (by omega) (by omega)
  have h3 (u : State) (v : W32) : SameButHeads u (rset u p 0x24 v) := sameButHeads_rset u v (by omega) (by omega)
  have h4 (u : State) (v : W32) : SameButHeads u (rset u p 0x28 v) := sameButHeads_rset u v (by omega) (by omega)
  have h5 (u : State) (v : W32) : SameButHeads u (rset u p (0x28 + 4) v) := sameButHeads_rset u v (by omega) (by omega)
  split
  · exact (h1 _ _).trans (h2 _ _)
  · exact ((((h1 _ _).trans (h2 _ _)).trans (h3 _ _)).trans (h4 _ _)).trans (h5 _ _)

/-- Everything that `settle` can do: it empties the events and changes header words alone. -/
theorem settle_sameButHeads (s : State) : SameButHeads { s with evq := [] } (settle s) := by
  unfold settle
  dsimp only
  generalize evPages s.evq = l
  generalize hu : ({ s with evq := [] } : State) = u
  clear hu
  induction l generalizing u with
  | nil => exact SameButHeads.refl u
  | cons p l ih =>
    rw [List.foldl_cons]
    refine SameButHeads.trans ?_ (ih _)
    split
    · exact settlePage_sameButHeads u p _
    · exact SameButHeads.refl u

/-- Every field but the registers and the events is as before. -/
theorem settle_rest (s : State) : { settle s with regs := s.regs, evq := s.evq } = s := by
  have h := congrArg (fun t : State => { t with evq := s.evq }) (settle_sameButHeads s).rest
  exact h

@[simp] theorem settle_evq (s : State) : (settle s).evq = [] := by
  have h := congrArg State.evq (settle_sameButHeads s).rest
  exact h

/-- A register outside the header words that events reach reads as before. -/
theorem rget_settle (s : State) {p o : Nat} (h : o < 4096) (h6 : o / 4 ≠ 6) (h7 : o / 4 ≠ 7) (h9 : o / 4 ≠ 9)
    (h10 : o / 4 ≠ 10) (h11 : o / 4 ≠ 11) : rget (settle s) p o = rget s p o :=
  (settle_sameButHeads s).regs p o h h6 h7 h9 h10 h11

/-- With no event waiting, settling changes nothing. -/
theorem settle_of_nil {s : State} (h : s.evq = []) : settle s = s := by
  unfold settle
  rw [h]
  exact congrArg (fun l => { s with evq := l }) h.symm

/-- One event of a page that answers is taken into that page's header. -/
theorem settle_of_single {s : State} {p b c : Nat} (h : s.evq = [⟨p, b, c⟩]) (hr : pageReach s p = .ok) :
    settle s = settlePage { s with evq := [] } p [⟨p, b, c⟩] := by
  have hp : evPages s.evq = [p] := by rw [h]; rfl
  have hf : s.evq.filter (fun e => e.page == p) = [⟨p, b, c⟩] := by rw [h]; simp
  unfold settle
  dsimp only
  rw [hp, List.foldl_cons, List.foldl_nil, hf, if_pos]
  exact hr

@[simp] theorem settle_part (s : State) : (settle s).part = s.part := by have h := congrArg State.part (settle_rest s); exact h
@[simp] theorem settle_hiShadow (s : State) : (settle s).hiShadow = s.hiShadow := by have h := congrArg State.hiShadow (settle_rest s); exact h
@[simp] theorem settle_loStage (s : State) : (settle s).loStage = s.loStage := by have h := congrArg State.loStage (settle_rest s); exact h
@[simp] theorem settle_bus (s : State) : (settle s).bus = s.bus := by have h := congrArg State.bus (settle_rest s); exact h
@[simp] theorem settle_belv (s : State) : (settle s).belv = s.belv := by have h := congrArg State.belv (settle_rest s); exact h
@[simp] theorem settle_entries (s : State) : (settle s).entries = s.entries := by have h := congrArg State.entries (settle_rest s); exact h
@[simp] theorem settle_groups (s : State) : (settle s).groups = s.groups := by have h := congrArg State.groups (settle_rest s); exact h
@[simp] theorem settle_wins (s : State) : (settle s).wins = s.wins := by have h := congrArg State.wins (settle_rest s); exact h
@[simp] theorem settle_nextWin (s : State) : (settle s).nextWin = s.nextWin := by have h := congrArg State.nextWin (settle_rest s); exact h
@[simp] theorem settle_streams (s : State) : (settle s).streams = s.streams := by have h := congrArg State.streams (settle_rest s); exact h
@[simp] theorem settle_lp11 (s : State) : (settle s).lp11 = s.lp11 := by have h := congrArg State.lp11 (settle_rest s); exact h
@[simp] theorem settle_ingest (s : State) : (settle s).ingest = s.ingest := by have h := congrArg State.ingest (settle_rest s); exact h
@[simp] theorem settle_rings (s : State) : (settle s).rings = s.rings := by have h := congrArg State.rings (settle_rest s); exact h
@[simp] theorem settle_rr (s : State) : (settle s).rr = s.rr := by have h := congrArg State.rr (settle_rest s); exact h
@[simp] theorem settle_reqs (s : State) : (settle s).reqs = s.reqs := by have h := congrArg State.reqs (settle_rest s); exact h
@[simp] theorem settle_nextReq (s : State) : (settle s).nextReq = s.nextReq := by have h := congrArg State.nextReq (settle_rest s); exact h
@[simp] theorem settle_launches (s : State) : (settle s).launches = s.launches := by have h := congrArg State.launches (settle_rest s); exact h
@[simp] theorem settle_taskRuns (s : State) : (settle s).taskRuns = s.taskRuns := by have h := congrArg State.taskRuns (settle_rest s); exact h
@[simp] theorem settle_sums (s : State) : (settle s).sums = s.sums := by have h := congrArg State.sums (settle_rest s); exact h
@[simp] theorem settle_hostMem (s : State) : (settle s).hostMem = s.hostMem := by have h := congrArg State.hostMem (settle_rest s); exact h
@[simp] theorem settle_slots (s : State) : (settle s).slots = s.slots := by have h := congrArg State.slots (settle_rest s); exact h
@[simp] theorem settle_prov (s : State) : (settle s).prov = s.prov := by have h := congrArg State.prov (settle_rest s); exact h
@[simp] theorem settle_epoch (s : State) : (settle s).epoch = s.epoch := by have h := congrArg State.epoch (settle_rest s); exact h
@[simp] theorem settle_applied (s : State) : (settle s).applied = s.applied := by have h := congrArg State.applied (settle_rest s); exact h
@[simp] theorem settle_suspended (s : State) : (settle s).suspended = s.suspended := by have h := congrArg State.suspended (settle_rest s); exact h
@[simp] theorem settle_staging (s : State) : (settle s).staging = s.staging := by have h := congrArg State.staging (settle_rest s); exact h
@[simp] theorem settle_engines (s : State) : (settle s).engines = s.engines := by have h := congrArg State.engines (settle_rest s); exact h
@[simp] theorem settle_plates (s : State) : (settle s).plates = s.plates := by have h := congrArg State.plates (settle_rest s); exact h
@[simp] theorem settle_weights (s : State) : (settle s).weights = s.weights := by have h := congrArg State.weights (settle_rest s); exact h
@[simp] theorem settle_banks (s : State) : (settle s).banks = s.banks := by have h := congrArg State.banks (settle_rest s); exact h
@[simp] theorem settle_slc (s : State) : (settle s).slc = s.slc := by have h := congrArg State.slc (settle_rest s); exact h
@[simp] theorem settle_retain (s : State) : (settle s).retain = s.retain := by have h := congrArg State.retain (settle_rest s); exact h
@[simp] theorem settle_dies (s : State) : (settle s).dies = s.dies := by have h := congrArg State.dies (settle_rest s); exact h
@[simp] theorem settle_cores (s : State) : (settle s).cores = s.cores := by have h := congrArg State.cores (settle_rest s); exact h
@[simp] theorem settle_coreMem (s : State) : (settle s).coreMem = s.coreMem := by have h := congrArg State.coreMem (settle_rest s); exact h
@[simp] theorem settle_progs (s : State) : (settle s).progs = s.progs := by have h := congrArg State.progs (settle_rest s); exact h
@[simp] theorem settle_qslots (s : State) : (settle s).qslots = s.qslots := by have h := congrArg State.qslots (settle_rest s); exact h
@[simp] theorem settle_ctrs (s : State) : (settle s).ctrs = s.ctrs := by have h := congrArg State.ctrs (settle_rest s); exact h
@[simp] theorem settle_runs (s : State) : (settle s).runs = s.runs := by have h := congrArg State.runs (settle_rest s); exact h
@[simp] theorem settle_nextRun (s : State) : (settle s).nextRun = s.nextRun := by have h := congrArg State.nextRun (settle_rest s); exact h
@[simp] theorem settle_feeds (s : State) : (settle s).feeds = s.feeds := by have h := congrArg State.feeds (settle_rest s); exact h
@[simp] theorem settle_slow (s : State) : (settle s).slow = s.slow := by have h := congrArg State.slow (settle_rest s); exact h
@[simp] theorem settle_links (s : State) : (settle s).links = s.links := by have h := congrArg State.links (settle_rest s); exact h
@[simp] theorem settle_xfers (s : State) : (settle s).xfers = s.xfers := by have h := congrArg State.xfers (settle_rest s); exact h
@[simp] theorem settle_nextXfer (s : State) : (settle s).nextXfer = s.nextXfer := by have h := congrArg State.nextXfer (settle_rest s); exact h
@[simp] theorem settle_flows (s : State) : (settle s).flows = s.flows := by have h := congrArg State.flows (settle_rest s); exact h
@[simp] theorem settle_flitAt (s : State) : (settle s).flitAt = s.flitAt := by have h := congrArg State.flitAt (settle_rest s); exact h
@[simp] theorem settle_pkgMem (s : State) : (settle s).pkgMem = s.pkgMem := by have h := congrArg State.pkgMem (settle_rest s); exact h
@[simp] theorem settle_poison (s : State) : (settle s).poison = s.poison := by have h := congrArg State.poison (settle_rest s); exact h
@[simp] theorem settle_scrubAt (s : State) : (settle s).scrubAt = s.scrubAt := by have h := congrArg State.scrubAt (settle_rest s); exact h
@[simp] theorem settle_units (s : State) : (settle s).units = s.units := by have h := congrArg State.units (settle_rest s); exact h
@[simp] theorem settle_tpls (s : State) : (settle s).tpls = s.tpls := by have h := congrArg State.tpls (settle_rest s); exact h
@[simp] theorem settle_isu (s : State) : (settle s).isu = s.isu := by have h := congrArg State.isu (settle_rest s); exact h
@[simp] theorem settle_pwr (s : State) : (settle s).pwr = s.pwr := by have h := congrArg State.pwr (settle_rest s); exact h
@[simp] theorem settle_otp (s : State) : (settle s).otp = s.otp := by have h := congrArg State.otp (settle_rest s); exact h
@[simp] theorem settle_nv (s : State) : (settle s).nv = s.nv := by have h := congrArg State.nv (settle_rest s); exact h
@[simp] theorem settle_sec (s : State) : (settle s).sec = s.sec := by have h := congrArg State.sec (settle_rest s); exact h
@[simp] theorem settle_boot (s : State) : (settle s).boot = s.boot := by have h := congrArg State.boot (settle_rest s); exact h
@[simp] theorem settle_tap (s : State) : (settle s).tap = s.tap := by have h := congrArg State.tap (settle_rest s); exact h
@[simp] theorem settle_free (s : State) : (settle s).free = s.free := by have h := congrArg State.free (settle_rest s); exact h
@[simp] theorem settle_pending (s : State) : (settle s).pending = s.pending := by have h := congrArg State.pending (settle_rest s); exact h

/-- The outcome of a command is a next state, with its events taken. -/
theorem done_eq (s : State) : done s = .next (settle s) := rfl

end Sys2Proof.Laws
end

