-- ==== Sys2Proof/Laws/Access.lean ====
section
/-! SUPPORT. Accesses of the host to a page that answers: a one-DW write and a one-DW read each come down to the page's own
operation. -/

namespace Sys2Proof.Laws

open Sys2Proof Sys2Proof.Machine

theorem answers_open {s : State} {p : Nat} (h : answers s p = true) : linkOpen s = true ∧ p < 4096 ∧ pageReach s p = .ok := by
  simp only [answers, Bool.and_eq_true, decide_eq_true_eq] at h
  exact ⟨h.1.1.1, h.1.1.2, h.1.2⟩

theorem answers_awake {s : State} {p o : Nat} (h : answers s p = true) (ho : o < 4096) :
    sleepWaits s 0 (p * 4096 + o) = false := by
  simp only [answers, Bool.and_eq_true, Bool.or_eq_true, decide_eq_true_eq, beq_iff_eq] at h
  have e : (p * 4096 + o) / 4096 = p := by omega
  rw [sleepWaits, e]
  rcases h.2 with (h2 | h2) | h2
  · simp [h2]
  · simp [h2]
  · simp [h2]

theorem inBar_page {p o : Nat} (hp : p < 4096) (ho : o < 4096) : inBar 0 (p * 4096 + o) = true := by
  simp [inBar]
  omega

/-- A one-DW write to a page that answers. -/
theorem regWrite_answers {s : State} {p o : Nat} (dw : Dw) (h : answers s p = true) (ho : o < 4096) (h4 : o % 4 = 0) :
    regWrite s p o dw = answer (settle (writeDw s p o dw)) .posted [] := by
  obtain ⟨hl, hp, hr⟩ := answers_open h
  have e1 : (p * 4096 + o) / 4096 = p := by omega
  have e2 : (p * 4096 + o) % 4096 / 4 * 4 = o := by omega
  rw [regWrite, hostWrite, hl, inBar_page hp ho, answers_awake h ho]
  have hb : bar0Write s (p * 4096 + o) [dw] = settle (writeDw s p o dw) := by
    unfold bar0Write
    dsimp only
    rw [e1, e2, hr]
    dsimp only [List.length]
    rw [if_neg (by decide), if_neg (by omega)]
    rfl
  simp [accessNow, hb]

/-- A one-DW read of a page that answers. -/
theorem regRead_answers {s : State} {p o : Nat} (be : BitVec 4) (h : answers s p = true) (ho : o < 4096) :
    regRead s p o be = bar0Read s (p * 4096 + o) be := by
  obtain ⟨hl, hp, _⟩ := answers_open h
  rw [regRead, hostRead, hl, inBar_page hp ho, answers_awake h ho]
  have e : ¬ 4096 < o % 4096 / 4 * 4 + 4 := by omega
  simp [accessNow, readRequest, bar0Reads, e]

/-- Settling comes before the answer or after it: the answer touches neither registers nor events. -/
theorem settle_answer_settle (s : State) (c : Cpl) (l : List W32) :
    settle (answer (settle s) c l) = answer (settle s) c l :=
  settle_of_nil (by simp)

/-- The outcome of a one-DW write to a page that answers. -/
theorem done_regWrite {s : State} {p o : Nat} (dw : Dw) (h : answers s p = true) (ho : o < 4096) (h4 : o % 4 = 0) :
    done (regWrite s p o dw) = .next (answer (settle (writeDw s p o dw)) .posted []) := by
  rw [regWrite_answers dw h ho h4, done, settle_answer_settle]

/-- The same where the write's own effect raises no event. -/
theorem done_regWrite_quiet {s t : State} {p o : Nat} (dw : Dw) (h : answers s p = true) (ho : o < 4096) (h4 : o % 4 = 0)
    (ht : writeDw s p o dw = t) (hq : t.evq = []) : done (regWrite s p o dw) = .next (answer t .posted []) := by
  rw [done_regWrite dw h ho h4, ht, settle_of_nil hq]

end Sys2Proof.Laws
end

