-- ==== Sys2Proof/WellFormed.lean ====
section
/-! DEFINITION. Which commands are well formed: each operand lies in the range that the manual gives what it names. A command that
is not names a page, die, core or other unit that no module has. -/

namespace Sys2Proof

/-- A page of BAR0 and a register's byte address in it (R17). -/
def pageOk (p : Nat) : Bool := decide (p < 4096)
def bar0Ok (a : Nat) : Bool := decide (a < 0x1000000 ∧ a % 4 = 0)

/-- A ring (R261), a die (R2), a core counted die × 16 + core of the die, and an engine counted die × 8,192 + core × 512 + engine
of the core. -/
def ringOk (n : Nat) : Bool := decide (n < 8192)
def dieOk (d : Nat) : Bool := decide (d < 16)
def coreOk (c : Nat) : Bool := decide (c < 256)
def engOk (e : Nat) : Bool := decide (e < 131072)

/-- A camera stream (R242) and a launch entry (R222). -/
def streamOk (n : Nat) : Bool := decide (n < 32)
def entryOk (n : Nat) : Bool := decide (n < 32768)

/-- A supply monitor names a die of the family (R374). -/
def supplyOk (m : Supply) : Bool :=
  match m with
  | .vaux | .vio | .vcoreP | .vddq | .visu => true
  | .vcoreO d | .varr d => dieOk d

/-- Whether a command is well formed. -/
def Instr.wf (i : Instr) : Bool :=
  match i with
  | .registerWrite addr dws => bar0Ok addr && !dws.isEmpty
  | .pageLockWrite page _ => pageOk page
  | .pageClrWrite page _ => pageOk page
  | .pageCommitWrite page _ => pageOk page
  | .pageStickyRead page _ => pageOk page
  | .pageFirstRead page _ => pageOk page
  | .loReadLatch bar addr bes =>
    (if bar = 0 then bar0Ok addr else decide (bar = 2 ∧ addr < 0x10000 ∧ addr % 4 = 0)) && !bes.isEmpty
  | .hiWriteCommit addr _ => bar0Ok addr
  | .doorbellWrite addr dws => decide (addr < 0x10000) && !dws.isEmpty
  | .hskSelectWrite _ => true
  | .hskFeatSelectWrite _ => true
  | .tbSetWrite _ => true
  | .ltEnWrite _ => true
  | .ltIndexWrite _ => true
  | .ltCmdWrite _ => true
  | .ltCmdClearPend _ => true
  | .blvPosRead stream _ => streamOk stream
  | .calEngIndexWrite die _ => dieOk die
  | .sweepCtrlStart die _ => dieOk die
  | .wearIndexWrite die _ => dieOk die
  | .driftIndexWrite die _ => dieOk die
  | .plmIndexWrite die _ => dieOk die
  | .histClr die core _ => dieOk die && decide (core < 16)
  | .vecSlotIndexWrite die core _ => dieOk die && decide (core < 16)
  | .camStreamEnable stream _ => streamOk stream
  | .ringEnable ring _ => ringOk ring
  | .ringDisable ring _ => ringOk ring
  | .ringDrained ring => ringOk ring
  | .hdmaSumBaseWrite _ => true
  | .hdmaSumClr _ => true
  | .flcSlotIndexWrite _ => true
  | .trlLinkIndexWrite _ => true
  | .memSlowSizeWrite _ => true
  | .chkSubmit _ => true
  | .chkTplIndexWrite _ => true
  | .chkTplWrite _ => true
  | .ilkRelease _ => true
  | .dacCfgWrite out _ => decide (out < 4)
  | .isuDacLoad _ => true
  | .adcDataRead conv _ => decide (conv < 2)
  | .calZero conv ch => decide (conv < 2) && decide (ch < 15)
  | .calFs conv ch => decide (conv < 2) && decide (ch < 15)
  | .calClr conv ch => decide (conv < 2) && decide (ch < 15)
  | .isuCalDone codes => decide (codes.length = 64)
  | .isuCalIndexWrite _ => true
  | .pwrReqWrite _ => true
  | .pwrDieRestart _ => true
  | .pwrLogIndexWrite _ => true
  | .fwStage _ => true
  | .rollbackCommit _ => true
  | .ownerEnrol _ => true
  | .ownerRevoke _ => true
  | .odfenRevoke _ => true
  | .dbgUnlock _ => true
  | .newChal _ => true
  | .relock _ => true
  | .secIdDataRead _ => true
  | .cdbgHalt die core _ => dieOk die && decide (core < 16)
  | .cdbgStep die core _ => dieOk die && decide (core < 16)
  | .cdbgDataRead die core _ => dieOk die && decide (core < 16)
  | .bootRetry _ => true
  | .bootDieReset _ => true
  | .configRequest _ reg _ => decide (reg < 4096 ∧ reg % 4 = 0)
  | .unsupportedRequest _ _ => true
  | .poisonedWrite bar addr => decide ((bar = 0 ∧ addr < 0x1000000) ∨ (bar = 2 ∧ addr < 0x10000))
  | .hostReadError _ => true
  | .ptmRequest => true
  | .ptmResponse _ => true
  | .ppsEdge => true
  | .holdover => true
  | .tbSyncMessage skews => decide (skews.length ≤ 16)
  | .tbOutRise => true
  | .tbOutFall => true
  | .descriptorRead ring => ringOk ring
  | .descriptorReady ring => ringOk ring
  | .dispatch => true
  | .runTask _ => true
  | .issueVerdict _ => true
  | .readTensor _ => true
  | .writeTensor _ => true
  | .flaconBegin _ => true
  | .shard _ => true
  | .shardSend _ => true
  | .shardDieReceive _ die _ => dieOk die
  | .flaconActivate _ => true
  | .activateTimeout slot => decide (slot < 16)
  | .activationPrepared slot => decide (slot < 16)
  | .activationJudged slot => decide (slot < 16)
  | .activationApply slot => decide (slot < 16)
  | .nvRecordWrite => true
  | .flaconRetire _ => true
  | .flaconAbort _ => true
  | .slotDrained slot => decide (slot < 16)
  | .inPlaceDrained slot => decide (slot < 16)
  | .calibrate _ => true
  | .verifySweep _ => true
  | .attest _ => true
  | .fence _ => true
  | .nopReq _ => true
  | .completionWrite _ => true
  | .headWordWrite ring => ringOk ring
  | .atTrigger entry => entryOk entry
  | .everyTrigger entry => entryOk entry
  | .actionIssue entry => entryOk entry
  | .lateJudgement entry => entryOk entry
  | .commitApply group => decide (group < 16)
  | .calWindowOpen _ => true
  | .calWindowClose _ => true
  | .engineCalEnd eng groups => engOk eng && decide (groups.length = 8) &&
      groups.all fun g => decide (g.offs.length = 144 ∧ g.gains.length = 144)
  | .deadlineMiss _ => true
  | .entryUe entry => entryOk entry
  | .frameStart stream _ => streamOk stream
  | .frameEnd stream _ => streamOk stream
  | .longPacket pkt => decide (pkt.stream < 32)
  | .hdrUe port _ => decide (port < 8)
  | .lineStartPacket pkt => streamOk pkt.stream
  | .lineEndPacket pkt => streamOk pkt.stream
  | .stripePush stream _ => streamOk stream
  | .streamLost stream => streamOk stream
  | .readIntegrate eng => engOk eng
  | .confidenceDecision eng errs => engOk eng && decide (errs.length = 8)
  | .saturationDecision eng errs => engOk eng && decide (errs.length = 72)
  | .fetchGroup _ => true
  | .counterClaim _ => true
  | .pavilionClaim _ => true
  | .rowBroadcast _ _ _ => true
  | .accAllocate _ => true
  | .tileQueue core tile => coreOk core && decide (tile < 32)
  | .drainRow core => coreOk core
  | .endProg _ core => coreOk core
  | .tileDelivery core => coreOk core
  | .sramEccError core addr _ _ => coreOk core && decide (addr < 0x480000)
  | .quantPostArrival core slot fromCore _ _ _ => coreOk core && decide (slot < 1024) && coreOk fromCore
  | .vecNop core _ => coreOk core
  | .vld core _ => coreOk core
  | .vst core _ => coreOk core
  | .vldb core _ => coreOk core
  | .vlut core _ => coreOk core
  | .vadd core _ => coreOk core
  | .vsub core _ => coreOk core
  | .vmul core _ => coreOk core
  | .vmac core _ => coreOk core
  | .vmin core _ => coreOk core
  | .vmax core _ => coreOk core
  | .vabs core _ => coreOk core
  | .vneg core _ => coreOk core
  | .vdot core _ => coreOk core
  | .vdiv core _ => coreOk core
  | .vand core _ => coreOk core
  | .vor core _ => coreOk core
  | .vxor core _ => coreOk core
  | .vshl core _ => coreOk core
  | .vshra core _ => coreOk core
  | .vshrr core _ => coreOk core
  | .vcmp core _ => coreOk core
  | .vsel core _ => coreOk core
  | .vexp core _ => coreOk core
  | .vlog core _ => coreOk core
  | .vrcp core _ => coreOk core
  | .vrsqrt core _ => coreOk core
  | .vtanh core _ => coreOk core
  | .verf core _ => coreOk core
  | .vsqrt core _ => coreOk core
  | .vrsum core _ => coreOk core
  | .vrmax core _ => coreOk core
  | .vramax core _ => coreOk core
  | .vslide core _ => coreOk core
  | .vbcast core _ => coreOk core
  | .vcvt core _ => coreOk core
  | .vqnt core _ => coreOk core
  | .vqend core _ => coreOk core
  | .vqscale core _ => coreOk core
  | .smov core _ => coreOk core
  | .sadd core _ => coreOk core
  | .vloop core _ => coreOk core
  | .vend core _ => coreOk core
  | .housekeepingRound die _ _ _ _ => dieOk die
  | .pavilionTempRead _ => true
  | .calCoefSave die => dieOk die
  | .governorTick die => dieOk die
  | .sweepInterval die => dieOk die
  | .sweepRead eng refErrs errs => engOk eng && decide (refErrs.length = 8 ∧ errs.length = 72)
  | .plateProgramBegin eng => engOk eng
  | .eraseSegment eng _ => engOk eng
  | .pulseVerifyPair eng _ => engOk eng
  | .touchUp eng _ _ => engOk eng
  | .flitCrcError link _ => decide (link < 80)
  | .linkRetrain link _ => decide (link < 80)
  | .transferAck _ _ => true
  | .memEccError addr _ _ => decide (addr < 0xF00000000)
  | .patrolScrub _ => true
  | .slowTierBlock _ => true
  | .sillageJobStart unit => decide (unit < 8)
  | .sillageJobEnd unit _ => decide (unit < 8)
  | .strobeEnd out => decide (out < 4)
  | .widthClip out => decide (out < 4)
  | .dutyEnd out => decide (out < 4)
  | .conversionStart conv => decide (conv < 2)
  | .conversionDone conv _ => decide (conv < 2)
  | .dacRampEnd out => decide (out < 4)
  | .dacSc out _ => decide (out < 4)
  | .dacOpen out _ => decide (out < 4)
  | .supplyWarning mon => supplyOk mon
  | .supplyWarningClear mon => supplyOk mon
  | .supplyReset mon => supplyOk mon
  | .dieRejoin die => dieOk die
  | .pstateEntry => true
  | .pstateExit _ => true
  | .pstateExitDone => true
  | .sysclkLoss => true
  | .sysclkReturn => true
  | .powerOnReset => true
  | .sysRst => true
  | .perstAssert => true
  | .perstDeassert => true
  | .hotReset => true
  | .flr => true
  | .bootStepEnd _ => true
  | .bootWatchdog => true
  | .tapReset => true
  | .tapExtest => true
  | .tapSamplePreload => true
  | .tapIdcode => true
  | .tapClamp => true
  | .tapHighz => true
  | .tapDbg => true
  | .tapBypass => true
  | .supHoldEnd die => dieOk die
  | .dataLanesLeaveLp11 port => decide (port < 8)
  | .flrComplete => true

end Sys2Proof
end

