-- ==== Sys2Proof/Tests/Slice0.lean ====
section
/-! SUPPORT. The model's own tests: an ill-formed command for each check, the spec's worked examples and tables by hand, and for
each statement with hypotheses concrete states and operands that meet them. -/

namespace Sys2Proof.Tests

open Sys2Proof Sys2Proof.Machine

set_option Elab.async false

/-! ### Well-formedness -/

def vf0 : VF := ⟨0, 0, 0, 0, 0, false, false, 0⟩

theorem test_wf_refuses :
    (Instr.registerWrite 0x1000000 [whole 0]).wf = false ∧ (Instr.registerWrite 2 [whole 0]).wf = false ∧
    (Instr.registerWrite 0 []).wf = false ∧ (Instr.pageLockWrite 4096 (whole 0)).wf = false ∧
    (Instr.doorbellWrite 0x10000 [whole 0]).wf = false ∧ (Instr.doorbellWrite 0 []).wf = false ∧
    (Instr.ringEnable 8192 (whole 0)).wf = false ∧ (Instr.sweepCtrlStart 16 (whole 0)).wf = false ∧
    (Instr.histClr 0 16 (whole 0)).wf = false ∧ (Instr.blvPosRead 32 15).wf = false ∧
    (Instr.dacCfgWrite 4 (whole 0)).wf = false ∧ (Instr.adcDataRead 2 15).wf = false ∧ (Instr.calZero 0 15).wf = false ∧
    (Instr.isuCalDone []).wf = false ∧ (Instr.configRequest false 4096 0).wf = false ∧
    (Instr.configRequest false 2 0).wf = false ∧ (Instr.poisonedWrite 1 0).wf = false ∧
    (Instr.poisonedWrite 2 0x10000).wf = false ∧ (Instr.tbSyncMessage (List.replicate 17 0)).wf = false := by decide

theorem test_wf_refuses_units :
    (Instr.atTrigger 32768).wf = false ∧ (Instr.commitApply 16).wf = false ∧ (Instr.engineCalEnd 131072 []).wf = false ∧
    (Instr.engineCalEnd 0 []).wf = false ∧ (Instr.longPacket ⟨32, 0, [], true, false⟩).wf = false ∧
    (Instr.hdrUe 8 none).wf = false ∧ (Instr.tileQueue 256 0).wf = false ∧ (Instr.tileQueue 0 32).wf = false ∧
    (Instr.sramEccError 0 0x480000 true none).wf = false ∧ (Instr.quantPostArrival 0 1024 0 [] 0 false).wf = false ∧
    (Instr.flitCrcError 80 true).wf = false ∧ (Instr.memEccError 0xF00000000 true none).wf = false ∧
    (Instr.sillageJobStart 8).wf = false ∧ (Instr.supplyWarning (.varr 16)).wf = false ∧
    (Instr.dataLanesLeaveLp11 8).wf = false ∧ (Instr.vadd 256 vf0).wf = false ∧ (Instr.sweepRead 131072 [] []).wf = false := by
  decide

theorem test_wf_admits :
    (Instr.registerWrite 0xFFFFFC [whole 0]).wf = true ∧ (Instr.doorbellWrite 0xFFF8 [whole 0, whole 0]).wf = true ∧
    (Instr.ringEnable 8191 (whole 0)).wf = true ∧ (Instr.vadd 255 vf0).wf = true ∧ (Instr.supplyWarning (.varr 15)).wf = true ∧
    (Instr.atTrigger 32767).wf = true ∧ (Instr.poisonedWrite 2 0xFFF8).wf = true ∧ Instr.flr.wf = true := by decide

/-! ### Sample states -/

/-- The module after step 0x0C, the link up, in READY, with two dies in service. -/
def up : State :=
  { State.reset with
    bus := { Bus.zero with linkUp := true, perst := false }
    boot := { Boot.zero with active := false, ready := true, begun := 12, ended := 12 }
    pwr := { Pwr.zero with st := .ready }
    belv := { Belv.zero with tb := 1000000 }
    dies := [(0, { Die.zero with up := true, online := true }), (1, { Die.zero with up := true, online := true })] }

/-- The state that a command answers. -/
def after (i : Instr) (s : State) : State :=
  match exec i s with
  | .next t => t
  | _ => State.reset

/-! ### Worked examples of the spec -/

/-- Finding a page (after R22): the VEC page of core 9 of die 5 and its PAGE_ID, and ring 1000's slot and doorbell. -/
theorem test_page_map :
    pgVec (5 * 16 + 9) = 0x64B ∧ 0x100 + 1000 / 64 = 0x10F ∧ slotOff 1000 = 0xA00 ∧ 8 * 1000 = 0x1F40 ∧
    (after (.registerWrite 0x58 []) { up with dies := [(5, { Die.zero with up := true, online := true })] }).bus.data = [] ∧
    (after (.loReadLatch 0 0x064B000 [15]) { up with dies := [(5, { Die.zero with up := true, online := true })] }).bus.data =
      [0x00335901] := by decide +kernel

/-- An event between read and clear (after R39): the clear at the old sequence does nothing, the one at the new clears. -/
def seqState : State := { up with regs := [(dwAddr 0x60 0x18, 8), (dwAddr 0x60 0x1C, 0x41), (dwAddr 0x60 0x24, 0x80030000)] }

theorem test_clear_by_sequence :
    let t := noted seqState 0x60 5 0
    rget t 0x60 0x1C = 0x42 ∧ rget t 0x60 0x18 = 0x28 ∧ rget t 0x60 0x24 = 0x80030000 ∧
    rget (after (.pageClrWrite 0x60 (whole 0x41)) t) 0x60 0x18 = 0x28 ∧
    rget (after (.pageClrWrite 0x60 (whole 0x42)) t) 0x60 0x18 = 0 ∧
    bit (rget (after (.pageClrWrite 0x60 (whole 0x42)) t) 0x60 0x24) 31 = false := by decide +kernel

/-- One step from inputs to INT32 (after R88): E is 8,224 pu, the code 1,027 passes under CONF_TOL 4, and the contributions of
outputs 18 and 21 at RG 3. -/
theorem test_step_example :
    expectedRef 2 [100, -45, 127, -8, 63, 20] = 8224 ∧
    (failGroups 4 3 8224 [(List.replicate 8 ⟨1027, false⟩, List.replicate 8 0, List.replicate 8 0x4000)]).any id = false ∧
    (failGroups 4 3 8224 [(List.replicate 8 ⟨1023, false⟩, List.replicate 8 0, List.replicate 8 0x4000)]).any id = true ∧
    contribution 3 [⟨List.replicate 18 ⟨0, false⟩ ++ [⟨1206, false⟩], [], List.replicate 8 0, List.replicate 8 0x4000⟩] 18 = 9648 ∧
    contribution 3 [⟨List.replicate 21 ⟨0, false⟩ ++ [⟨-1772, false⟩], [], List.replicate 8 0, List.replicate 8 0x4000⟩] 21 =
      -14176 := by decide +kernel

/-- One group's coefficients (after R105): S0 = 275 and SG = 15,124 give OFF 31 and GAIN_CAL 0x4579, accepted. -/
theorem test_calibration_example :
    let code := fun (n : Int) => (⟨n, false⟩ : Meas)
    let offs := List.replicate 131 (code 2) ++ List.replicate 13 (code 1)
    let gains := (List.range 144).map fun i => code (if i % 9 ≠ 0 then 0 else if i = 135 then 949 else 945)
    coefOf offs gains = (31, 0x4579, true) ∧ (coefOf (offs.set 0 ⟨2, true⟩) gains).2.2 = false := by decide +kernel

/-- Tracking over 2 K (R106, and after R172): +59 of 0x4000, and +64 of 17,785. -/
theorem test_tracking_example : trackedGain 1887 32 0x4000 = 0x4000 + 59 ∧ trackedGain 1887 32 17785 = 17849 := by decide +kernel

/-- A repeated part (after R172): codes 603 and 598 of output 44 at RG 4, under one gain and with the second read's tracked. -/
theorem test_repeat_example :
    let c := fun (n : Int) => List.replicate 44 (⟨0, false⟩ : Meas) ++ [⟨n, false⟩]
    let o := List.replicate 8 (31 : Int)
    contribution 4 [⟨c 603, [], o, List.replicate 8 17785⟩, ⟨c 598, [], o, List.replicate 8 17785⟩] 44 = 10396 ∧
    contribution 4 [⟨c 603, [], o, List.replicate 8 17785⟩, ⟨c 598, [], o, List.replicate 8 17849⟩] 44 = 10415 := by decide +kernel

/-- Delayed scaling (after R180): the scale of 12.69999981 for INT8, and the codes of 3.14159, −0.25, 12.69999981 and 14.0. -/
theorem test_quantise_example :
    scaleOf 2 0x414B3333 = 0x3DCCCCCD ∧
    [0x40490FD0, 0xBE800000, 0x414B3333, 0x41600000].map (fun w : W32 => quantise 2 (f32v w) (f32v 0x3DCCCCCD)) =
      [(31, false), (-2, false), (127, false), (127, true)] := by decide +kernel

/-- Check values of "123456789": CRC-32C (R277), CRC-32 and CRC-16 (R341). -/
theorem test_crc :
    crcOf 0 [0x31, 0x32, 0x33, 0x34, 0x35, 0x36, 0x37, 0x38, 0x39] = 0xE3069283 ∧
    crcOf 1 [0x31, 0x32, 0x33, 0x34, 0x35, 0x36, 0x37, 0x38, 0x39] = 0xCBF43926 ∧
    crcOf 2 [0x31, 0x32, 0x33, 0x34, 0x35, 0x36, 0x37, 0x38, 0x39] = 0x29B1 := by decide +kernel

/-- A driver-camera frame (after R236): the four entries are permitted, and hold what the table says. -/
theorem test_launch_entries :
    entryPermitted 0xC20249F0 0x0008031F 0 0x303D0900 = true ∧ entryPermitted 0x8507A120 0x64 0 0x10000022 = true ∧
    entryPermitted 0x82000000 0x00080000 0 0x00010028 = true ∧ entryPermitted 0x83001388 0x00080000 0 0x50000308 = true ∧
    fld 0xC20249F0 23 0 = 150000 ∧ fld 0x8507A120 23 0 = 500000 := by decide +kernel

/-- The instant of a firing is at least 32 ns after its trigger (R229). -/
theorem test_least_delay :
    (entryAt (after (.atTrigger 5) { rset up 0x10 0x40 1 with
      entries := [(5, { Entry.zero with d0 := 0x80000000, armed := true, next := 20000 })] }) 5).pend =
      some ⟨20032, false⟩ := by decide +kernel

/-- Ring 40 of the stalled completion area (after R281). -/
def ring40 : State :=
  let s := rset (rset (rset up 1 0x44 3) 0x100 (0xA00) 0x81060800) 0x100 (0xA00 + 4) 0x5A3C
  let s := rset64 (rset64 (rset64 s 0x100 0xA08 0x10000) 0x100 0xA10 0x20000) 0x100 0xA18 0x30000
  putRing s 40 { Ring.zero with st := .running, tail := 5, sqHead := 5, cqTail := 62, cqHead := 0, alive := 62, records := 62 }

theorem test_stalled_area_doorbells :
    sqSize ring40 40 = 256 ∧ cqSize ring40 40 = 64 ∧ areaRoom ring40 40 = true ∧
    doorbellKind ring40 40 0x5A3C000000280007 = 0 ∧
    areaRoom (putRing ring40 40 { ringAt ring40 40 with inflight := 1 }) 40 = false ∧
    doorbellKind (putRing ring40 40 { ringAt ring40 40 with tail := 7, inflight := 1 }) 40 0x5A3C002800280007 = 0 ∧
    doorbellKind ring40 40 0x5A3C003F00280007 = 5 := by decide +kernel

theorem test_head_word :
    let s := putRing ring40 40 { ringAt ring40 40 with sqHead := 7, cqTail := 63, records := 63, headDue := true }
    bytesAt (after (.headWordWrite 40) s).hostMem 0x30000 8 = [0x07, 0x00, 0x3F, 0x00, 0x3F, 0x00, 0x00, 0x00] := by decide +kernel

/-- A coolant pump stops (after R382): the budget at 80 W and under RISE_WARN, and the record's words. -/
def pump : State :=
  { rset up 0x40 0x44 1 with
    dies := [(9, { Die.zero with up := true, online := true })]
    nv := { up.nv with logs := [⟨19572000000, 9, 2, 2000, 38⟩] } }

theorem test_pump_example :
    budget pump 9 = 30720 ∧ budget (putDie pump 9 { dieAt pump 9 with rise := true }) 9 = 23040 ∧
    rget (after (.pwrLogIndexWrite (whole 0)) pump) 0x40 0x78 = 0x200907D0 ∧
    rget (after (.pwrLogIndexWrite (whole 0)) pump) 0x40 0x7C = 0x26 ∧
    rget64 (after (.pwrLogIndexWrite (whole 0)) pump) 0x40 0x70 = 19572000000 := by decide +kernel

/-- A frame check behind a table scan (after R343): an ALIVE counter of 4 bits reads 14, 15, 15 and 2. -/
def alive (last : W32) (now : Byte) : State :=
  let c : Tpl := { cfg := 0x40000000, startLo := 0, startHi := 0, len := 0, ref := last }
  { up with pkgMem := [(0, now)], units := [(3, { SilUnit.zero with run := some (8, 0, c) })] }

def aliveOutcome (last : W32) (now : Byte) : Nat × W32 :=
  let t := after (.sillageJobEnd 3 false) (alive last now)
  ((tget LogEnt.zero (unitAt t 3).log 0).outcome, (tplAt t 8).ref)

theorem test_alive_example :
    aliveOutcome 0 14 = (7, 0x8000000E) ∧ aliveOutcome 0x8000000E 15 = (4, 0x8000000F) ∧
    aliveOutcome 0x8000000F 15 = (5, 0x8000000F) ∧ aliveOutcome 0x8000000F 2 = (6, 0x80000002) := by decide +kernel

/-! ### Witnesses: states and operands that meet the hypotheses of each statement, clause by clause -/

theorem witness_StepRunsFront :
    { up with pending := [Instr.nopReq 3, .flr] }.pending = Instr.nopReq 3 :: [.flr] := rfl

/-- The module held in reset. -/
def heldState : State := { up with pwr := { up.pwr with noClk := true } }

theorem witness_StepIdleTicks :
    (heldState.pending = [] ∧ heldState.pwr.held = true) ∧
    (up.pending = [] ∧ up.pwr.held = false ∧ (∀ e ∈ up.engines, e.2.calEnd = none) ∧ up.flows = [] ∧ up.landing = []) ∧
    (let s := { up with flows := [⟨.ctrl, 0, [16], 1, none, []⟩] }
     s.pending = [] ∧ s.pwr.held = false ∧ s.flows ≠ []) := by decide

/-- Stores with something in them, and commands that change them. -/
def stored : State :=
  { up with hostMem := [(3, 7)], pkgMem := [(0, 1), (9, 2)], coreMem := [(5, 5)], weights := [(77, 3)], ingest := [(4, 1)], pending := [.flr] }

theorem witness_StepKeepsInvariant : Invariant stored ∧ step stored = .next (after .flr { stored with pending := [] }) := by
  refine ⟨⟨rfl, by decide⟩, rfl⟩

theorem witness_FusesOnlyAdvance :
    FuseForm up.otp ∧ step { up with pending := [.flr] } = .next (after .flr up) := by
  refine ⟨⟨fun k => ?_, by decide⟩, rfl⟩
  match k with
  | 0 => decide
  | 1 => decide
  | k + 2 => simp [up, State.reset, Otp.zero, tget, KeySlot.zero]

theorem witness_RegisterWriteFrame :
    (4084 < 4088 ∧ 4092 < 4096 ∧ 4084 % 4 = 0 ∧ 4092 % 4 = 0 ∧ (4084 ≠ 4092 ∧ 4084 + 4 = 4088)) ∧
    ((7 : Nat) ≠ 8 ∧ 0 < 4088 ∧ 0 % 4 = 0) := by decide

theorem witness_CountersStop :
    (rget (count up 0x10 0x74 5) 0x10 0x74).toNat = 5 ∧
    (rget (count (rset up 0x10 0x74 0xFFFFFFFE) 0x10 0x74 5) 0x10 0x74).toNat = 0xFFFFFFFF ∧
    (0xFFC < 4096 ∧ 0xFFC % 4 = 0 ∧ (0xFFC ≠ 0x74)) := by decide +kernel

def twoEvents : State := { up with evq := [⟨0x10, 3, 1⟩, ⟨0x10, 3, 1⟩, ⟨0x60, 5, 0⟩] }

theorem witness_PageSeqAdvancesOncePerCycle :
    ((∃ e ∈ twoEvents.evq, e.page = 0x10) ∧ pageReach twoEvents 0x10 = .ok) ∧ rget (settle twoEvents) 0x10 0x1C = 1 ∧
    ¬ (∃ e ∈ twoEvents.evq, e.page = 0x20) ∧ rget (settle twoEvents) 0x20 0x1C = 0 := by decide +kernel

theorem witness_FirstErrorCapture :
    (∀ e ∈ [(⟨0x10, 31, 65535⟩ : Ev), ⟨0x10, 0, 0⟩], e.bit < 32 ∧ e.code < 65536) ∧ bit (rget up 0x10 0x24) 31 = false ∧
    bit (rget (noted up 0x10 3 1) 0x10 0x24) 31 = true := by decide +kernel

/-! ### The header and the ways of access -/

/-- A page that answers, is settled and has a header. -/
abbrev Headed (s : State) (p : Nat) (k : Kind) (i : Nat) : Prop :=
  Settled s ∧ answers s p = true ∧ kindOf p = some (k, i) ∧ k ≠ .rng

theorem witness_HeaderWrites :
    Headed up 0x10 .blv0 0 ∧ (⟨1, 7⟩ : Dw).be ≠ 0xF ∧
    (clrOnRead .blv0 = false ∧ rget (noted up 0x10 3 1) 0x10 0x1C = 1 ∧ rget (noted up 0x10 3 1) 0x10 0x18 ≠ 0) ∧
    (Headed up 0x31 .isu1 0 ∧ clrOnRead .isu1 = true) ∧
    (Headed up 0x40 .pwr0 0 ∧ pageHeld up 0x40 = false ∧ bit (0x80000003 : W32) 31 = true ∧ bit (rget up 0x40 0x30) 31 = false ∧
      (groupAt up (fld 0x80000003 3 0)).held = none) ∧
    (let t := after (.pageCommitWrite 0x40 (whole 0x80000003)) up
     Headed t 0x40 .pwr0 0 ∧ pageHeld t 0x40 = false ∧ bit (rget t 0x40 0x30) 31 = true) := by decide +kernel

theorem witness_StickyReadClears :
    Headed up 0x31 .isu1 0 ∧ (clrOnRead .isu1 = true ∧ (8 : BitVec 4) ≠ 0 ∧ (8 : BitVec 4).getLsbD 3 = true) ∧
    Headed (noted up 0x10 3 1) 0x10 .blv0 0 ∧ clrOnRead .blv0 = false := by decide +kernel

def loHeld (n : Nat) (lo : W32) : State :=
  { up with loStage := [0x08, 0x10, 0x18].map fun o => (dwAddr (0x100 + n / 64) (n % 64 * 64 + o), some lo) }

theorem witness_LoHiPairs :
    (Settled up ∧ answers up 1 = true ∧ (1 : BitVec 4) ≠ 0) ∧
    (∀ n ∈ [0, 1000, 8191], ∀ o ∈ [0x08, 0x10, 0x18], Settled up ∧ answers up (0x100 + n / 64) = true ∧ (ringAt up n).st = .disabled ∧
      Settled (loHeld n 0x12340040) ∧ answers (loHeld n 0x12340040) (0x100 + n / 64) = true ∧
      (ringAt (loHeld n 0x12340040) n).st = .disabled ∧
      tget none (loHeld n 0x12340040).loStage (dwAddr (0x100 + n / 64) (n % 64 * 64 + o)) = some 0x12340040) := by decide +kernel

theorem witness_ScratchWrite : Settled up ∧ answers up 0 = true ∧ 1 < 2 := by decide

theorem witness_TwoDwWriteIsTwoAccesses :
    Settled up ∧ answers up 0 = true ∧ answers (after (.registerWrite 0x58 [whole 1]) up) 0 = true ∧
    (answers up 0x17F = true ∧ 4092 + 8 > 4096 ∧ (kindOf 0x17F).isSome = true) ∧
    (answers up 0x204 = true ∧ (kindOf 0x204).isSome = true ∧ 2 < [whole 0, whole 0, whole 0].length) := by decide +kernel

/-- Die 1 off for a reset of its own. -/
def dieOff : State := putDie up 1 { dieAt up 1 with up := false, online := false }

theorem witness_UnreachablePages :
    (Settled up ∧ linkOpen up = true ∧ up.pwr.st ≠ .sleep ∧ pageReach up 0xFFF = .unmapped ∧ pageReach up 0x6 = .unmapped) ∧
    (Settled dieOff ∧ linkOpen dieOff = true ∧ dieOff.pwr.st ≠ .sleep ∧ pageReach dieOff (pgHk 1) = .off) := by decide +kernel

theorem witness_LockedWriteRefused :
    (Settled up ∧ answers up (pgPrg0 1) = true ∧ bit (rget up (pgPrg0 1) 0x0C) 0 = false) ∧
    (let s := rset up (pgPrg0 1) 0x0C 1
     Settled s ∧ answers s (pgPrg0 1) = true ∧ bit (rget s (pgPrg0 1) 0x0C) 0 = true) := by decide +kernel

/-! ### Rings -/

/-- A doorbell word pair for ring 40. -/
def bell (key head tail : Nat) : Dw × Dw := (whole (BitVec.ofNat 32 (40 * 65536 + tail)), whole (BitVec.ofNat 32 (key * 65536 + head)))
def bellWord (d : Dw × Dw) : W64 := d.2.data ++ d.1.data
abbrev Bus2 (s : State) : Prop := Settled s ∧ linkOpen s = true ∧ s.pwr.st ≠ .sleep
def noVersion : State := rset ring40 1 0x44 0

theorem witness_DoorbellChecks :
    (Bus2 up ∧ 0xFFFC < 0x10000 ∧ 0xFFFC % 8 ≠ 0 ∧ 32767 / 8 < 4096) ∧
    (Bus2 ring40 ∧ doorbellKind ring40 40 (bellWord (bell 0x5A3C 0 7)) = 0) ∧
    (0x5A3D ≠ fld (rgGet ring40 40 4) 15 0) ∧
    (Bus2 noVersion ∧ 0x5A3C = fld (rgGet noVersion 40 4) 15 0 ∧ version noVersion = 0) ∧
    (0x5A3C = fld (rgGet ring40 40 4) 15 0 ∧ (ringAt ring40 40).st ≠ .disabled ∧ (ringAt ring40 40).st ≠ .draining ∧
      version ring40 ≠ 0 ∧ sqSize ring40 40 ≤ 256 ∧ doorbellKind ring40 40 (bellWord (bell 0x5A3C 0 256)) = 3 ∧
      doorbellKind ring40 40 (bellWord (bell 0x5A3C 64 7)) = 3) ∧
    doorbellKind ring40 40 (bellWord (bell 0x5A3C 63 7)) = 5 ∧ doorbellKind ring40 40 (bellWord (bell 0x5A3C 0 4)) = 0 ∧
    doorbellKind (putRing ring40 40 { ringAt ring40 40 with sqHead := 4 }) 40 (bellWord (bell 0x5A3C 0 4)) = 4 := by decide +kernel

def stalled40 : State := putRing ring40 40 { ringAt ring40 40 with st := .stalled }

theorem witness_DoorbellPosts :
    (Bus2 ring40 ∧ doorbellKind ring40 40 (bellWord (bell 0x5A3C 0 7)) = 0 ∧ (ringAt ring40 40).st ≠ .stalled) ∧
    (Bus2 stalled40 ∧ doorbellKind stalled40 40 (bellWord (bell 0x5A3C 0 7)) = 0 ∧ (ringAt stalled40 40).st = .stalled ∧
      areaRoom (after (.doorbellWrite 320 [(bell 0x5A3C 0 7).1, (bell 0x5A3C 0 7).2]) stalled40) 40 = true) := by decide +kernel

theorem witness_HandshakeWrites :
    (Settled up ∧ answers up 1 = true ∧ ringsActive up = false ∧ (3 : W32).toNat % 16 ≤ 3) ∧ 3 < (4 : W32).toNat % 16 ∧
    (Settled ring40 ∧ answers ring40 1 = true ∧ ringsActive ring40 = true) := by decide +kernel

/-- Ring 40 configured and not yet enabled, and one on its way out. -/
def ringOff : State := putRing ring40 40 Ring.zero
def ringOut : State := putRing ring40 40 { Ring.zero with st := .draining }

theorem witness_RingEnableAndDrain :
    (let s := ringOff
     let w : W32 := 0x81060800
     let c := (rgGet s 40 0 &&& ~~~0xC71F1F00) ||| (w &&& 0xC71F1F00)
     Settled s ∧ answers s (0x100 + 40 / 64) = true ∧ bit w 31 = true ∧ s.boot.ready = true ∧ (ringAt s 40).st = .disabled ∧
       c = c ∧ (version s ≠ 0 ∧ 6 ≤ fld w 12 8 ∧ fld w 12 8 ≤ 16 ∧ 6 ≤ fld w 20 16 ∧ fld w 20 16 ≤ 16 ∧ rg64 s 40 0x08 ≠ 0 ∧
         rg64 s 40 0x10 ≠ 0 ∧ rg64 s 40 0x18 ≠ 0) ∧ ¬ 6 ≤ fld (0x81060500 : W32) 12 8 ∧ ¬ fld (0x81110800 : W32) 20 16 ≤ 16) ∧
    (Settled ringOut ∧ answers ringOut 0x100 = true ∧ (ringAt ringOut 40).st = .draining ∧ (ringAt ringOut 40).inflight = 0) ∧
    (Settled ring40 ∧ answers ring40 0x100 = true ∧ bit (0x03000000 : W32) 31 = false ∧ (ringAt ring40 40).st = .running) ∧
    (Settled stalled40 ∧ (ringAt stalled40 40).st = .stalled) := by decide +kernel

def nopDesc : List Byte := [0x3F, 0, 0, 0] ++ leBytes 4 77 ++ leBytes 4 0 ++ leBytes 2 0xFFFF ++ leBytes 50 0
/-- Ring 40, not time-bound, with two descriptors posted; then the first read; then ready; then dispatched and finished. -/
def posted40 : State :=
  let s := rset { ring40 with hostMem := putBytes [] 0x10000 nopDesc } 0x100 0xA00 0x80060800
  putRing s 40 { Ring.zero with st := .running, tail := 2, posted := [Posted.new 0, Posted.new 1] }
def read40 : State := after (.descriptorRead 40) posted40
def ready40 : State := after (.descriptorReady 40) read40
def sent40 : State := after .dispatch ready40
def done40 : State := after (.nopReq 0) sent40

theorem witness_DescriptorReadReadyDispatch :
    (Settled posted40 ∧ (ringAt posted40 40).st = .running ∧ (ringAt posted40 40).posted = [] ++ Posted.new 0 :: [Posted.new 1] ∧
      (Posted.new 0).isRead = false ∧ (Posted.new 1).isRead = false) ∧
    (match (ringAt read40 40).posted with
     | p :: _ => decide (p.ready = none) && p.isRead && !timebound read40 40 && !p.gated read40 && areaRoom read40 40
     | [] => false) = true ∧
    (arbitrate ready40 = some 40 ∧ (match (ringAt ready40 40).posted with
     | p :: _ => p.detail == 0 && safeOpc p.desc.opc.toNat
     | [] => false) = true ∧ ready40.pwr.st = .ready) := by decide +kernel

/-- A request of ring 40 with an opcode, in a phase. -/
def r0 : Req :=
  { ring := 40, desc := Desc.zero, readyAt := 0, at_ := 0, late := false, missed := false, frozen := false, phase := .dispatched,
    status := none, detail := 0, ran := false, epoch := 0, slot := 0, fin := 0, launch := 0, len := 0, clamped := false,
    qual := 0, satCnt := 0, repCnt := 0, doneTb := none, out := [], refusals := [], waitFor := [] }
def req (opc : BitVec 8) : Req := { r0 with desc := { Desc.zero with opc := opc } }
def withReq (s : State) (id : Nat) (q : Req) : State := { s with reqs := [(id, some q)], nextReq := id + 1 }
def twoReqs : State := { ring40 with reqs := [(4, some (req 1)), (9, some (req 0x3E))], nextReq := 10 }

theorem witness_SimpleRequests :
    (∀ o ∈ ([0x3F, 0x3E, 2, 3] : List (BitVec 8)), let s := withReq ring40 9 (req o)
      Settled s ∧ reqAt s 9 = some (req o) ∧ (req o).phase = .dispatched ∧ (req o).desc.opc = o ∧ s.poison = [] ∧ s.boot.noDdr = false) ∧
    ({ ring40 with boot := { ring40.boot with noDdr := true } }.boot.noDdr = true) ∧
    (let s := withReq ring40 9 (req 0x3E)
     (s.reqs.all fun e => decide (9 ≤ e.1)) = true) ∧
    (Settled twoReqs ∧ reqAt twoReqs 9 = some (req 0x3E) ∧ (4, some (req 1)) ∈ twoReqs.reqs ∧ 4 < 9 ∧ (req 1).ring = (req 0x3E).ring) := by
  decide +kernel

theorem witness_RecordAndHeadWord :
    (Settled done40 ∧ (done40.reqs.map fun e => e.1) = [0] ∧ (done40.reqs.all fun e => match e.2 with
        | some q => q.phase == .finished
        | none => false) = true ∧ done40.feeds = [] ∧ done40.slots = [] ∧ version done40 = 3) ∧
    (Settled read40 ∧ (ringAt read40 40).headDue = true ∧ feature read40 2 = false) ∧
    (Settled ring40 ∧ (ringAt ring40 40).headDue = false) := by decide +kernel

/-- DEADLINE in force, and a request past its deadline or before it. -/
def overdue (dl : W32) : State :=
  withReq (rset up 1 0x50 0x20) 9 { r0 with readyAt := 900000, desc := { Desc.zero with opc := 1, deadline := dl } }

/-- A descriptor ready in its ring, past its deadline. -/
def postedDue (missed : Bool) : Posted :=
  { Posted.new 1 with isRead := true, ready := some 900000, missed := missed, desc := { Desc.zero with deadline := 100000 } }

theorem witness_DeadlineMissReported :
    (let s := overdue 100000
     let q : Req := { r0 with readyAt := 900000, desc := { Desc.zero with opc := 1, deadline := 100000 } }
     Settled s ∧ reqAt s 9 = some q ∧ feature s 5 = true ∧ q.desc.deadline ≠ 0 ∧ q.phase ≠ .finished ∧ q.missed = false ∧
       q.readyAt + q.desc.deadline.toNat ≤ s.belv.tb) ∧
    (let s := overdue 100001
     Settled s ∧ s.belv.tb < 900000 + 100001) ∧
    (∀ m ∈ [false, true], let p := postedDue m
     let s := putRing (rset up 1 0x50 0x20) 40 { Ring.zero with st := .running, posted := [Posted.new 0, p] }
     Settled s ∧ (ringAt s 40).posted[1]? = some p ∧ p.ready = some 900000 ∧ feature s 5 = true ∧ p.desc.deadline ≠ 0 ∧
       p.missed = m ∧ 900000 + p.desc.deadline.toNat ≤ s.belv.tb) := by decide +kernel

def sums3 : State :=
  { rset (rset (rset64 up 0x90 0x40 0x5000) 1 0x50 4) 0x90 0x48 3 with
    sums := [(3, 0xFF00FF00FF00FF00)], loStage := [(dwAddr 0x90 0x4C, some 0xF000)] }

theorem witness_SummaryWords :
    (Settled up ∧ answers up 0x90 = true ∧ ringsActive up = false) ∧
    (Settled ring40 ∧ answers ring40 0x90 = true ∧ ringsActive ring40 = true) ∧
    (Settled sums3 ∧ answers sums3 0x90 = true ∧ tget none sums3.loStage (dwAddr 0x90 0x4C) = some 0xF000 ∧
      feature sums3 2 = true) := by decide +kernel

/-! ### Belvedere -/

def tbStaged (s : State) (lo : W32) : State := { s with loStage := [(dwAddr 0x10 0x50, some lo)] }
abbrev TbLoad (s : State) (lo : W32) : Prop :=
  Settled s ∧ answers s 0x10 = true ∧ tget none s.loStage (dwAddr 0x10 0x50) = some lo

theorem witness_TimebaseLoad :
    (TbLoad (tbStaged up 5) 5 ∧ tbSrc (tbStaged up 5) = 0 ∧ ltEn (tbStaged up 5) = false ∧ ringsActive (tbStaged up 5) = false ∧
      (tbStaged up 5).belv.tb ≤ 5 + 1 * 2 ^ 32) ∧
    (TbLoad (tbStaged up 1000000) 1000000 ∧ (tbStaged up 1000000).belv.tb ≤ 1000000 + 0 * 2 ^ 32) ∧
    (let s := tbStaged (rset up 0x10 0x44 1) 5
     TbLoad s 5 ∧ tbSrc s ≠ 0) ∧
    (let s := tbStaged (rset up 0x10 0x40 1) 5
     TbLoad s 5 ∧ ltEn s = true) ∧
    (let s := tbStaged ring40 999999
     TbLoad s 999999 ∧ 999999 + 0 * 2 ^ 32 < s.belv.tb ∧ ringsActive s = true) := by decide +kernel

def ptm : State :=
  { (rset (rset up 0x10 0x44 0x10000001) 0x10 0x40 1) with
    belv := { up.belv with ptmOpen := true, good := 3, holdover := true, tb := 50000000 } }
def pps (lock : Bool) : State :=
  { (rset (rset up 0x10 0x44 0x10000002) 0x10 0x40 1) with belv := { up.belv with lock := lock, tb := 1000200000 } }

theorem witness_TimebaseCorrections :
    (Settled ptm ∧ disciplined ptm = true ∧ tbSrc ptm = 1 ∧ ptm.belv.ptmOpen = true ∧ ltEn ptm = true ∧ 3 ≤ ptm.belv.good ∧
      ((50000099 : Int) - ptm.belv.tb).natAbs < 100 ∧ 1000 ≤ ((49999000 : Int) - ptm.belv.tb).natAbs ∧
      1000000 ≤ ((51000000 : Int) - ptm.belv.tb).natAbs ∧
      ptm.belv.ptmAt + rfld ptm 0x10 0x44 31 24 * 1000000 ≤ ptm.belv.tb) ∧
    (Settled (pps true) ∧ disciplined (pps true) = true ∧ tbSrc (pps true) = 2 ∧ (pps true).belv.lock = true ∧ (pps true).belv.jump = false ∧
      100000 ≤ ((nearestSecond (pps true).belv.tb : Int) - (pps true).belv.tb).natAbs) ∧
    (Settled (pps false) ∧ disciplined (pps false) = true ∧ tbSrc (pps false) = 2 ∧ (pps false).belv.lock = false ∧
      ltEn (pps false) = true) := by decide +kernel

def noPtm : State := { ptm with belv := { ptm.belv with missed := 4, holdover := false } }
def noPps : State := { pps true with belv := { (pps true).belv with ppsAt := some 0, tb := 1500000000 } }
def tbOutAt (tb : Nat) (high : Bool) : State :=
  { rset up 0x10 0x40 2 with belv := { up.belv with tb := tb, tbOut := high, fallAt := 1000000000 } }

theorem witness_HoldoverAndTbOut :
    (Settled noPtm ∧ disciplined noPtm = true ∧ noPtm.belv.holdover = false ∧ tbSrc noPtm = 1 ∧ 4 ≤ noPtm.belv.missed) ∧
    (Settled noPps ∧ disciplined noPps = true ∧ noPps.belv.holdover = false ∧ tbSrc noPps = 2 ∧ noPps.belv.ppsAt = some 0 ∧
      0 + 1500000000 ≤ noPps.belv.tb) ∧
    (∀ tb ∈ [999999995, 1000000000, 1000000005], rbit (tbOutAt tb false) 0x10 0x40 1 = true ∧
      (tbOutAt tb false).belv.tbOut = false ∧ (tbOutAt tb false).belv.tb ≤ 1 * 1000000000 + 5 ∧
      1 * 1000000000 ≤ (tbOutAt tb false).belv.tb + 5 ∧ (tbOutAt tb false).belv.outAt ≠ some (1 * 1000000000)) ∧
    (let s := tbOutAt 1000000004 false
     let s := { s with belv := { s.belv with outAt := some 1000000000 } }
     rbit s 0x10 0x40 1 = true ∧ s.belv.tbOut = false ∧ s.belv.outAt = some (1 * 1000000000)) ∧
    ((tbOutAt 1000000000 true).belv.tbOut = true ∧ (tbOutAt 1000000000 true).belv.fallAt ≤ (tbOutAt 1000000000 true).belv.tb) ∧
    (Settled up ∧ up.belv.syncAt / 1000 < up.belv.tb / 1000 ∧ (dieAt up 0).up = true ∧ 8 ≤ (-8 : Int).natAbs) := by decide +kernel

def eAt : Entry := { Entry.zero with d0 := put 31 31 1 ||| put 23 0 10, d1 := 2000000 }
def eEv : Entry := { Entry.zero with d0 := put 31 31 1 ||| put 27 24 1 ||| put 23 0 100, d1 := 5000, d2 := 300 }
def tabled (e : Entry) : State := { up with entries := [(7, e)] }

theorem witness_LaunchEnable :
    (Settled (tabled eAt) ∧ answers (tabled eAt) 0x10 = true ∧ bit (2 : W32) 0 = false ∧ bit (3 : W32) 0 = true ∧ bit (1 : W32) 1 = false ∧
      ltEn (tabled eAt) = false ∧ tabOk (fun _ => Entry.zero) (tabled eAt).entries = true ∧ (entryAt (tabled eAt) 7).en = true ∧
      (entryAt (tabled eAt) 7).trig = 0) ∧
    (tabOk (fun _ => Entry.zero) (tabled eEv).entries = true ∧ (entryAt (tabled eEv) 7).en = true ∧
      (entryAt (tabled eEv) 7).trig = 1 ∧ (entryAt (tabled eEv) 7).lead = false ∧ 0 < (entryAt (tabled eEv) 7).d1.toNat) ∧
    (let e : Entry := { eAt with d0 := put 31 31 1 ||| put 29 28 2 }
     (entryAt (tabled e) 7).en = true ∧ 2 ≤ (entryAt (tabled e) 7).trig ∨ (entryAt (tabled { eEv with d0 := put 31 31 1 ||| put 27 24 2 }) 7).trig = 2) ∧
    (entryAt (tabled eEv) 8).en = false := by decide +kernel

def windowAt (s : State) (n : Nat) (d0 d1 d2 d3 : W32) : State :=
  rset (rset (rset (rset (rset s 0x12 0x40 (BitVec.ofNat 32 n)) 0x12 0x44 d0) 0x12 0x48 d1) 0x12 0x4C d2) 0x12 0x50 d3
def pended : State := tabled { eAt with pend := some ⟨5, false⟩ }

theorem witness_LaunchWindow :
    (Settled pended ∧ answers pended 0x12 = true ∧ (entryAt pended 7).pend = some ⟨5, false⟩) ∧
    (let s := windowAt pended 7 eEv.d0 eEv.d1 eEv.d2 0
     Settled s ∧ answers s 0x12 = true ∧ rfld s 0x12 0x40 14 0 = 7 ∧ bit (rget s 0x12 0x44) 31 = true ∧
       Machine.entryPermitted (rget s 0x12 0x44) (rget s 0x12 0x48) (rget s 0x12 0x4C) (rget s 0x12 0x50) = true ∧
       (entryAt s 7).pend = some ⟨5, false⟩) ∧
    (let s := windowAt pended 32767 eEv.d0 999 0 0
     rfld s 0x12 0x40 14 0 = 32767 ∧ bit (rget s 0x12 0x44) 31 = true ∧ (entryAt s 32767).pend = none ∧
       Machine.entryPermitted (rget s 0x12 0x44) (rget s 0x12 0x48) (rget s 0x12 0x4C) (rget s 0x12 0x50) = false) ∧
    (let s := windowAt pended 7 0 999 0 0
     rfld s 0x12 0x40 14 0 = 7 ∧ bit (rget s 0x12 0x44) 31 = false) := by decide +kernel

def launching (e : Entry) : State := { rset up 0x10 0x40 1 with entries := [(7, e)] }
def armedAt : Entry := { eAt with armed := true, next := 1000000 }
def armedEv : Entry := { eEv with armed := true, next := 1000000 }

theorem witness_TriggersFire :
    (Settled (launching armedAt) ∧ entryAt (launching armedAt) 7 = armedAt ∧ launchOn (launching armedAt) = true ∧ armedAt.en = true ∧
      armedAt.trig = 0 ∧ armedAt.armed = true ∧ armedAt.trigPoint armedAt.next ≤ (launching armedAt).belv.tb ∧ armedAt.pend = none) ∧
    (let e : Entry := { armedAt with pend := some ⟨5, false⟩ }
     entryAt (launching e) 7 = e ∧ e.trig = 0 ∧ e.trigPoint e.next ≤ (launching e).belv.tb ∧ e.pend.isSome = true) ∧
    (entryAt (launching armedEv) 7 = armedEv ∧ launchOn (launching armedEv) = true ∧ armedEv.en = true ∧ armedEv.trig = 1 ∧
      armedEv.armed = true ∧ armedEv.trigPoint armedEv.next ≤ (launching armedEv).belv.tb ∧ armedEv.pend = none) ∧
    (let e : Entry := { armedEv with pend := some ⟨998999, false⟩ }
     entryAt (launching e) 7 = e ∧ e.trig = 1 ∧ e.trigPoint e.next ≤ (launching e).belv.tb ∧ e.pend.isSome = true ∧
       (⟨998999, true⟩ : Firing).late = true ∧ (⟨998999, false⟩ : Firing).late = false ∧ e.due ⟨998999, false⟩ + rfld (launching e) 0x10 0x60 15 0 < (launching e).belv.tb ∧ e.lateSkip = false) ∧
    (let e : Entry := { armedEv with d0 := eEv.d0 ||| put 30 30 1, pend := some ⟨998, false⟩ }
     e.due ⟨998, false⟩ + rfld (launching e) 0x10 0x60 15 0 < (launching e).belv.tb ∧ e.lateSkip = true) := by decide +kernel

/-- An entry that releases ring 5, with a pending firing, and ring 5 time-bound and running or disabled. -/
def releasing : Entry := { eEv with d3 := 5, pend := some ⟨999000, false⟩ }
def releaseOn : State :=
  putRing (rset (launching releasing) 0x100 (slotOff 5) 0x40000000) 5
    { Ring.zero with st := .running, posted := [Posted.new 0, Posted.new 1] }
abbrev Issues (s : State) : Prop :=
  Settled s ∧ tabOk (fun _ => Entry.zero) s.entries = true ∧ tabOk (fun _ => Ring.zero) s.rings = true ∧ entryAt s 7 = releasing ∧
    (⟨999000, false⟩ : Firing).late = false ∧ lateNow s releasing ⟨999000, false⟩ = false ∧ mayIssue s 7 ⟨999000, false⟩ = true

theorem witness_ActionIssues :
    releasing.pend = some ⟨999000, false⟩ ∧ releasing.action = 0 ∧ releasing.trig ≠ 5 ∧ Issues releaseOn ∧
    (5 = fld releasing.d3 12 0 ∧ releasable releaseOn 5 = true ∧ fld releasing.d3 27 16 = 0) ∧
    Issues (launching releasing) ∧ releasable (launching releasing) 5 = false := by decide +kernel

def committing (v : Verdict) (at_ : Nat) : State :=
  putGroup (rset (rset up 0x40 0x30 0x80000003) 0x40 0x844 1) 3
    { Group.zero with members := [0x40], joining := [9], held := some (at_, v) }

theorem witness_CommitAppliesOrRefuses :
    (∀ v ∈ [Verdict.applied, .refused], let s := committing v 1000000
      Settled s ∧ (groupAt s 3).members = [0x40] ∧ (groupAt s 3).after = [] ∧ (groupAt s 3).held = some (1000000, v) ∧
        1000000 ≤ s.belv.tb ∧ armedFor s 3 0x40 = true) ∧
    (committing .empty 1000001).belv.tb < 1000001 := by decide +kernel

def win0 (o : Bool) (a b : Nat) : State :=
  putWin up 0 (some { openAt := a, closeAt := b, dies := 1, cores := 1, isOpen := o, defer := [] })

theorem witness_CalibrationWindows :
    (Settled (win0 false 1000000 1005000) ∧ (winAt (win0 false 1000000 1005000) 0).isSome = true ∧
      1000000 ≤ (win0 false 1000000 1005000).belv.tb) ∧
    (Settled (win0 true 900000 1000000) ∧ (winAt (win0 true 900000 1000000) 0).isSome = true ∧
      1000000 ≤ (win0 true 900000 1000000).belv.tb) ∧
    ((win0 false 1000001 1005000).belv.tb < 1000001 ∧ (win0 true 900000 1000001).belv.tb < 1000001) := by decide +kernel

/-! ### Block commands and snapshots -/

def shown : State :=
  { up with
    slots := [(3, { Slot.zero with st := .retiring, epoch := 9, man := { Manifest.zero with id := 0x1234, version := 7 } })]
    links := [(5, { Link.zero with st := 1, crc := 4, replay := 5 })]
    tpls := [(200, { Tpl.zero with cfg := 0x20000000, len := 9 })]
    nv := { up.nv with isuCoef := [(17, ⟨true, 0x12345, 77, 0, 5⟩)], logs := [⟨12345678901, 3, 2, -5, 7⟩] } }
def shownDie : State :=
  { up with
    boot := { up.boot with mapUp := true }
    engines := [(8192 + 77, { Engine.zero with due := true, never := true, calTb := 99 })]
    banks := [(65536 + 9, { Bank.zero with wear := 500000 })]
    plates := [(4194304 + 33, { Plate.zero with st := .valid, owner := 3, inShard := 8, shard := 77, tb := 2 ^ 40 })]
    dies := [(1, { Die.zero with up := true, online := true, drift := [(3, 9)] })] }

def unloaded : State := { shownDie with boot := { shownDie.boot with mapUp := false, active := true, begun := 9, ended := 8 } }

theorem witness_SnapshotWrites :
    (Settled shown ∧ answers shown 0x61 = true ∧ 0 < 15 ∧ 15 < 16) ∧ (answers shown 0x70 = true ∧ 127 < 128) ∧
    (answers shown 0x50 = true ∧ 255 < 256) ∧ (answers shown 0x32 = true ∧ 31 < 32) ∧
    (answers shown 0x40 = true ∧ shown.nv.logs[0]? = some ⟨12345678901, 3, 2, -5, 7⟩) ∧
    (Settled shownDie ∧ answers shownDie (pgCal1 1) = true ∧ (engAt shownDie (8192 * 1 + 8191)).coef.length = 8 ∧
      (engAt shownDie (8192 * 1 + 77)).coef.length = 8) ∧
    (answers shownDie (pgPrg2 1) = true ∧ answers shownDie (pgPrg3 1) = true ∧ (dieAt shownDie 1).drift[0]? = some (3, 9)) ∧
    (answers shownDie (pgPlm 1) = true ∧ mapLoaded shownDie = true ∧ answers unloaded (pgPlm 1) = true ∧
      mapLoaded unloaded = false) ∧ answers shownDie (pgVec (1 * 16 + 15)) = true := by
  decide +kernel

theorem witness_BlockCommandWrites :
    (Settled up ∧ answers up 0x80 = true ∧ (up.slots.all fun x => x.2.st == .empty) = true ∧ ringsActive up = false) ∧
    (Settled shown ∧ answers shown 0x80 = true ∧ (shown.slots.all fun x => x.2.st == .empty) = false) ∧
    (answers shownDie (pgVec (1 * 16 + 15)) = true ∧ tabOk (fun _ => (none : Option QSlot)) shownDie.qslots = true) ∧
    (Settled shownDie ∧ answers shownDie (pgPrg1 1) = true ∧ (dieAt shownDie 1).sweep.active = false ∧ sweepPlates shownDie 1 ≠ []) ∧
    (let s := after (.sweepCtrlStart 1 (whole 1)) shownDie
     Settled s ∧ answers s (pgPrg1 1) = true ∧ (dieAt s 1).sweep.active = true) := by decide +kernel

def stagedTpl (cfg len : W32) : State := rset (rset (rset up 0x50 0x44 9) 0x50 0x48 cfg) 0x50 0x54 len
def stagedCfg (s : State) : Tpl :=
  let cfg := rget s 0x50 0x48
  { cfg := if fld cfg 23 22 = 3 then ins cfg 23 22 2 else cfg, startLo := rget s 0x50 0x4C, startHi := rget s 0x50 0x50,
    len := rget s 0x50 0x54, ref := rget s 0x50 0x58 }
def fullUnit : State := putUnit up 0 { SilUnit.zero with queue := List.replicate 16 (0, []) }
def busyTpl : State := putUnit (stagedTpl 0x20000000 5) 3 { SilUnit.zero with run := some (9, 0, Tpl.zero) }

theorem witness_SillageQueueAndTemplates :
    (Settled up ∧ answers up 0x50 = true ∧ (unitAt up 7).queue.length < 16) ∧
    (Settled fullUnit ∧ answers fullUnit 0x50 = true ∧ 16 ≤ (unitAt fullUnit 0).queue.length) ∧
    (Settled (stagedTpl 0x20000000 5) ∧ answers (stagedTpl 0x20000000 5) 0x50 = true ∧
      (∀ u ∈ List.range 8, (unitAt (stagedTpl 0x20000000 5) u).run = none) ∧ tplBad (stagedCfg (stagedTpl 0x20000000 5)) = false) ∧
    (Settled (stagedTpl 0x20000000 0) ∧ tplBad (stagedCfg (stagedTpl 0x20000000 0)) = true) ∧
    (Settled busyTpl ∧ (unitAt busyTpl 3).run = some (9, 0, Tpl.zero) ∧ 9 = rfld busyTpl 0x50 0x44 7 0) := by decide +kernel

def compareTpl : Tpl := { Tpl.zero with cfg := 0x20000000, len := 9, startLo := 0x1000, ref := 0x12345678 }
def queued2 : State :=
  putUnit { up with tpls := [(8, compareTpl)], pkgMem := putBytes [] 0x1000 [0x31, 0x32, 0x33, 0x34, 0x35, 0x36, 0x37, 0x38, 0x39] } 2
    { SilUnit.zero with queue := [(8, []), (1, [])] }
def running2 : State := after (.sillageJobStart 2) queued2

theorem witness_SillageJobs :
    (Settled queued2 ∧ (unitAt queued2 2).run = none ∧ (unitAt queued2 2).queue = [(8, []), (1, [])] ∧
      (∀ v ∈ List.range 8, (unitAt queued2 v).run = none) ∧ tplAt queued2 8 ≠ Tpl.zero ∧ (tplAt queued2 8).mode ≠ 3) ∧
    (Settled running2 ∧ (unitAt running2 2).run = some (8, 0, compareTpl) ∧ (unitAt running2 2).dirty = false ∧
      compareTpl.mode = 1 ∧ compareTpl.space = 0 ∧ running2.poison = [] ∧ compareTpl.alg ≠ 2 ∧
      crcOf compareTpl.alg (bytesAt running2.pkgMem compareTpl.start compareTpl.span) ≠ compareTpl.ref) ∧
    (Settled (alive 0 14) ∧ (unitAt (alive 0 14) 3).run = some (8, 0, ⟨0x40000000, 0, 0, 0, 0⟩) ∧
      (unitAt (alive 0 14) 3).dirty = false ∧ (⟨0x40000000, 0, 0, 0, 0⟩ : Tpl).mode = 2 ∧
      (⟨0x40000000, 0, 0, 0, 0⟩ : Tpl).space = 0 ∧ (alive 0 14).poison = []) := by decide +kernel

/-! ### The illuminator and sense unit -/

def isuOn : State := rset (rset up 0x30 0x40 0xF) 0x30 0x44 (put 10 0 100 ||| put 21 12 500)
def strobing (n u r : Nat) (s : State) : State := putStb s n { stbAt s n with high := true, until_ := u, rise := r }
def watched (v : BitVec 16) : State :=
  putWatch (rset (modIsu isuOn fun i => { i with tripped := true }) 0x30 0x58 (put 31 31 1 ||| put 15 0 100)) 1 ⟨3, v, true, true⟩
def dacs : State := rset (rset (rset isuOn 0x31 0x60 5) 0x31 0x64 900) 0x31 0x6C 800
def ramping : State := putDac dacs 1 { Dac.zero with ramp := some 5, driven := true }
def openLoop : State := putDac (rset isuOn 0x31 0x60 3) 1 { Dac.zero with driven := true }

theorem witness_IsuOutputs :
    (Settled (strobing 3 1000000 999000 isuOn) ∧ (stbAt (strobing 3 1000000 999000 isuOn) 3).high = true ∧
      (stbAt (strobing 3 1000000 999000 isuOn) 3).until_ ≤ (strobing 3 1000000 999000 isuOn).belv.tb) ∧
    (let s := strobing 3 2000000 900000 isuOn
     (stbAt s 3).high = true ∧ (stbAt s 3).rise + rfld s 0x30 0x44 10 0 * 1000 ≤ s.belv.tb) ∧
    (let s := strobing 2 2000000 0 (rset (rset isuOn 0x30 0x44 (put 21 12 1 ||| put 10 0 5)) 0x30 0x48 1)
     (stbAt s 2).high = true ∧ dutyFull s 2 = true) ∧
    (let s := watched 100
     Settled s ∧ answers s 0x30 = true ∧ unlocked s 0x30 = true ∧ ∀ w, w < 4 → bit (rget s 0x30 (0x50 + 8 * w)) 31 = true →
       (watchAt s w).seen = true ∧ (watchAt s w).inLim = true ∧ (watchAt s w).last.toNat ≤ fld (rget s 0x30 (0x50 + 8 * w)) 15 0) ∧
    (let s := watched 101
     answers s 0x30 = true ∧ unlocked s 0x30 = true ∧ ¬ ∀ w, w < 4 → bit (rget s 0x30 (0x50 + 8 * w)) 31 = true →
       (watchAt s w).seen = true ∧ (watchAt s w).inLim = true ∧ (watchAt s w).last.toNat ≤ fld (rget s 0x30 (0x50 + 8 * w)) 15 0) ∧
    (answers isuOn 0x31 = true ∧ bit (7 : W32) 0 = true ∧ bit (rget isuOn 0x31 (0x50 + 16 * 3)) 0 = false) ∧
    (Settled dacs ∧ answers dacs 0x31 = true ∧ bit (rget dacs 0x31 (0x50 + 16 * 1)) 0 = true ∧
      (bit (4 : W32) 0 = false ∨ fld (3 : W32) 2 1 ≠ fld (rget dacs 0x31 (0x50 + 16 * 1)) 2 1) ∧
      rbit dacs 0x31 (0x50 + 16 * 1) 0 = true ∧ (dacAt dacs 1).ramp = none ∧
      rfld dacs 0x31 (0x5C + 16 * 1) 15 0 < rfld dacs 0x31 (0x54 + 16 * 1) 15 0) ∧
    (Settled ramping ∧ (dacAt ramping 1).ramp.isSome = true ∧ (dacAt ramping 1).held = false) ∧
    ((dacAt ramping 1).driven = true ∧ rbit ramping 0x31 (0x50 + 16 * 1) 1 = false) ∧
    (Settled openLoop ∧ (dacAt openLoop 1).driven = true ∧ rbit openLoop 0x31 (0x50 + 16 * 1) 1 = true) := by decide +kernel

def seq5 : Seq := ⟨5, [3, 4], 100, false⟩
def convReady (k : Nat) : State := putConv isuOn k { Conv.zero with reg := some seq5 }
def converting (k : Nat) : State :=
  putConv isuOn k { Conv.zero with reg := some seq5, busy := some (.regular, 3, 999500), data := 0x80001234 }
def isuCal (stage : Nat) (z : Option Nat) : State :=
  rset { isuOn with isu := { isuOn.isu with cal := some ⟨stage, 1, 14, false⟩, zeroSum := tset none [] 30 z } } 0x32 0x58 0xF0001000

/-- An injected sequence in its DELAY. -/
def injected : State := putConv isuOn 1 { Conv.zero with inj := some { seq5 with at_ := 2000000 } }

theorem witness_IsuConversions :
    (∀ k ∈ [0, 1], let s := convReady k
      Settled s ∧ s.pwr.d3off = false ∧ (convAt s 0).plaus = [] ∧ (convAt s k).busy = none ∧ (convAt s k).inj = none ∧
        (convAt s k).injNext = none ∧ (convAt s k).regNext = none ∧ (convAt s k).reg = some seq5 ∧ seq5.at_ ≤ s.belv.tb ∧ calOn s k = false) ∧
    (∀ k ∈ [0, 1], let s := converting k
      Settled s ∧ (convAt s k).busy = some (.regular, 3, 999500) ∧ 999500 + 500 ≤ s.belv.tb ∧ (convAt s k).reg = some seq5 ∧
        seq5.seq < 16 ∧ answers s 0x32 = true) ∧
    (answers isuOn 0x32 = true ∧ isuOn.isu.cal = none ∧ calHeld isuOn 1 = false) ∧
    (answers injected 0x32 = true ∧ injected.isu.cal = none ∧ calHeld injected 1 = true) ∧
    (Settled (isuCal 1 none) ∧ answers (isuCal 1 none) 0x32 = true ∧ (isuCal 1 none).isu.cal.isSome = true) ∧
    ((List.replicate 64 (⟨60000, false⟩ : Meas)).length = 64 ∧
      (∀ m ∈ List.replicate 64 (⟨60000, false⟩ : Meas), m.sat = false ∧ 0 ≤ m.code) ∧
      injWork (isuCal 1 none) 1 = false ∧ (isuCal 1 none).isu.cal = some ⟨1, 1, 14, false⟩) ∧
    (let s := isuCal 2 (some 64000)
     Settled s ∧ injWork s 1 = false ∧ s.isu.cal = some ⟨2, 1, 14, false⟩ ∧ tget none s.isu.zeroSum (1 * 16 + 14) = some 64000 ∧
       rfld s 0x32 0x58 15 0 < rfld s 0x32 0x58 31 16 ∧ (4194304 : Int) ≤ 100 * (64 * 60000 - 64000)) := by decide +kernel

/-! ### Power, supplies, heat, start-up -/

def full : State :=
  { up with
    weights := [(5, 7)]
    plates := [(33, { Plate.zero with st := .valid, owner := 3 }), (4194304 + 9, { Plate.zero with st := .drifted, owner := 1 })]
    pkgMem := [(9, 9)], hostMem := [(4, 4)]
    engines := [(77, { Engine.zero with due := true }), (8192, { Engine.zero with never := true })]
    slots := [(3, { Slot.zero with st := .active })]
    rings := [(2, { Ring.zero with st := .running })] }
def quiet : State := { full with engines := [], rings := [], isu := { full.isu with tripped := true } }
def inPstate (s : State) (a : PState) (e : Option PState) : State := { s with pwr := { s.pwr with st := a, entry := e } }

theorem witness_PowerRequests :
    (Settled up ∧ answers up 0x40 = true ∧ up.pwr.exitTo = none ∧ up.pwr.st.code < (PState.ofCode (fld (4 : W32) 2 0)).code ∧
      entryRefused up (PState.ofCode (fld (4 : W32) 2 0)) = false) ∧
    (Settled full ∧ answers full 0x40 = true ∧ full.pwr.exitTo = none ∧
      full.pwr.st.code < (PState.ofCode (fld (5 : W32) 2 0)).code ∧ entryRefused full (PState.ofCode (fld (5 : W32) 2 0)) = true) ∧
    (PState.ofCode (fld (1 : W32) 2 0) = up.pwr.st ∧ (PState.ofCode (fld (0 : W32) 2 0)).code < up.pwr.st.code) ∧
    (∀ t ∈ [PState.ready, .doze, .nap, .sleep, .vigil], let s := inPstate quiet .run (some t)
      Settled s ∧ s.pwr.entry = some t ∧ s.pwr.exitTo = none ∧ mayEnter s t = true) ∧
    (let s := inPstate quiet .sleep none
     Settled s ∧ s.pwr.exitTo = none ∧ s.pwr.held = false ∧ triggers s .bar2Access = true) ∧
    (let s := { quiet with pwr := { quiet.pwr with st := .doze, exitTo := some .run } }
     Settled s ∧ s.pwr.exitTo = some .run ∧ exitReady s = true ∧ s.pwr.resetAfter = 0 ∧ s.bus.waiting = []) ∧
    (let s := putDie up 1 { dieAt up 1 with st := .thermalOff, up := false }
     answers s 0x40 = true ∧ 1 < s.part.member.dies ∧ (dieAt s 1).st = .thermalOff ∧ (dieAt s 0).st ≠ .thermalOff ∧
       (dieAt s 0).st ≠ .leftOut) := by decide +kernel

def warned (w : BitVec 2) : State := putDie full 1 { dieAt full 1 with warn := w }
def allLive : State := { full with pwr := { full.pwr with live := 0x1F } }
def lostClock : State := after .sysclkLoss full

theorem witness_Supplies :
    (Settled full ∧ supplyPlace .vaux = .inl 0 ∧ supplyPlace .visu = .inl 4 ∧ ∀ b ∈ List.range 5,
      full.pwr.live.getLsbD b = false ∧ unmonitored full b = false) ∧
    (supplyPlace (.varr 1) = .inr (1, 1) ∧ Settled full ∧ 1 < full.part.member.dies ∧ (dieAt full 1).st = .on ∧
      (dieAt full 1).up = true ∧ (dieAt full 1).warn.getLsbD 1 = false) ∧
    (Settled allLive ∧ supplyPlace .visu = .inl 4 ∧ allLive.pwr.live.getLsbD 4 = true) ∧
    (Settled (warned 2) ∧ supplyPlace (.varr 1) = .inr (1, 1) ∧ (dieAt (warned 2) 1).warn.getLsbD 1 = true) ∧
    (let s := putDie full 1 { dieAt full 1 with holdTill := some 1000000 }
     (dieAt s 1).holdTill = some 1000000 ∧ 1000000 ≤ s.belv.tb) ∧
    (full.pwr.d3off = false ∧ full.pwr.held = false ∧ tabOk (fun _ => Die.zero) full.dies = true) ∧
    (Settled lostClock ∧ lostClock.pwr.held = true ∧ lostClock.pwr.resetBy = none) ∧
    (let s := putDie full 1 { dieAt full 1 with st := .supplyReset, up := false, online := false }
     Settled s ∧ 1 < s.part.member.dies ∧ s.boot.safe = false ∧ s.boot.ready = true ∧ (dieAt s 1).up = false ∧
       (dieAt s 1).st = .supplyReset ∧ (dieAt s 1).warn = 0) := by decide +kernel

theorem witness_ThermalSupervision :
    (Settled full ∧ 1 < full.part.member.dies ∧ (dieAt full 1).st = .on ∧ (dieAt full 1).up = true ∧ (1999 : Int) < tCrit ∧
      (dieAt full 1).restart = false ∧ (dieAt full 1).trips = 0 ∧ tCrit ≤ 2000) ∧
    (full.pwr.held = false ∧ full.pwr.st ≠ .vigil) := by decide +kernel

def starting (n : Nat) : State :=
  { full with
    boot := { Boot.zero with active := true, begun := n }, rings := [], bus := { full.bus with linkUp := false }
    nv := { full.nv with begun := n } }

theorem witness_BootAndResets :
    (Settled full ∧ full.pwr.held = false ∧ full.pwr.st = .ready ∧ full.pwr.entry ≠ some .vigil) ∧
    (∀ n ∈ [1, 5, 6, 0x0C], let s := starting n
      Settled s ∧ s.boot.active = true ∧ s.boot.relink = none ∧ s.pwr.held = false ∧ stepReady s s.boot.begun = true ∧
        safeStart s = false ∧ s.boot.begun ≤ 0x0C ∧ s.boot.begun ≠ 3) ∧
    (let s := starting 5
     0 < 1 ∧ 1 < s.part.member.dies ∧ (dieAt s 0).st = .on ∧ (dieAt s 1).st = .on) ∧
    (let s := { starting 7 with belv := { full.belv with tb := 1000000000000 } }
     Settled s ∧ s.boot.active = true ∧ s.pwr.held = false ∧ s.boot.begun ≠ 4 ∧
       s.boot.stepAt + stepLimit s.boot.begun * 1000000 ≤ s.belv.tb) ∧
    (let s := { full with boot := { full.boot with safe := true, ready := false } }
     Settled s ∧ answers s 0x08 = true ∧ s.boot.safe = true) ∧
    (answers full 0x08 = true ∧ full.boot.ready = true ∧ dieUp full 1 = true ∧ tabOk (fun _ => Die.zero) full.dies = true) := by
  decide +kernel

def unread : Posted :=
  { slot := 0, isRead := false, desc := Desc.zero, eligible := false, since := 0, gate := false, late := false, detail := 0,
    ready := none, missed := false }

theorem witness_TestPortAndErrors :
    (Settled (starting 3) ∧ (starting 3).bus.perst = false ∧ (starting 3).pwr.held = false ∧ (starting 3).pwr.st ≠ .vigil ∧
      (starting 3).bus.linkUp = false) ∧
    (Settled full ∧ full.bus.perst = false ∧ full.bus.linkUp = true ∧ full.bus.flr = false ∧ linkOpen full = true) ∧
    (let s := putRing full 3 { Ring.zero with st := .running, posted := [unread] }
     Settled s ∧ (ringAt s 3).st = .running ∧ ((ringAt s 3).posted.any fun p => !p.isRead) = true) ∧
    (let s := putReq full 8 (some r0)
     Settled s ∧ reqAt s 8 = some r0 ∧ r0.phase ≠ .finished) := by decide +kernel

/-! ### Cameras, security and debug -/

def camera (n : Nat) (lsle en : Bool) : State :=
  let p := camPage n
  let o := camOff n
  rset (rset (rset (rset (rset up p 0x40 1) p (0x60 + o) ((if en then 0x80000000 else 0) ||| (if lsle then 0x800 else 0) ||| 0x2A))
    p (0x64 + o) (put 31 16 64 ||| put 15 0 32)) p (0x68 + o) (put 31 28 4 ||| 0x100)) p (0x6C + o) 1
def opened (n : Nat) (lsle : Bool) : State := after (.frameStart n false) (camera n lsle true)
def dueStripe : StripeDue := ⟨1, 5, 2, false, false, true, [(3, 0)], 0, 4, 32, 64⟩

/-- Every link of the fabric is UP. -/
def linked (s : State) : State := { s with links := (List.range 80).map fun k => (k, { Link.zero with st := 1 }) }

theorem witness_CameraFrames :
    (∀ n ∈ [0, 31], Settled (camera n true true) ∧ portOn (camera n true true) (n / 4) = true ∧ camEn (camera n true true) n = true ∧
      (streamAt (camera n true true) n).isOpen = false) ∧
    (∀ n ∈ [0, 31], ∀ ls ∈ [true, false], let s := opened n ls
      Settled s ∧ portOn s (n / 4) = true ∧ camEn s n = true ∧ (streamAt s n).isOpen = true ∧ (streamAt s n).pendLine = none ∧
        rateLimited s n = false ∧ (streamAt s n).lines < camH s n ∧ 64 = camB s n ∧ camDt s n ≠ 0x12 ∧ camLsle s n = ls) ∧
    (let s := modStream (opened 31 true) 31 fun x => { x with pendLine := some 9 }
     portOn s 7 = true ∧ camEn s 31 = true ∧ (streamAt s 31).pendLine = some 9) ∧
    (let s := modStream (opened 31 true) 31 fun x => { x with watchAt := 0 }
     portOn s 7 = true ∧ camEn s 31 = true ∧ camPeriod s 31 ≠ 0 ∧ (streamAt s 31).lost = false ∧
       (streamAt s 31).watchAt + camPeriod s 31 * 3 / 2 ≤ s.belv.tb) ∧
    (let s := linked (modStream (opened 3 true) 3 fun x => { x with due := [dueStripe] })
     let dies := (destsOf s 3 ++ dueStripe.bound.map fun e => (recAt (manOf s e.1) e.2).die).dedup
     (streamAt s 3).due = [dueStripe] ∧ dies ≠ [] ∧ mayTransfer s 16 dies = true ∧ lostDests s 16 dies = []) ∧
    (let s := camera 31 true false
     answers s (camPage 31) = true ∧ camEn s 31 = false ∧ (0x8000082A : W32) &&& 0x7FFFF700 = 0 ∧
       (0x8000002A : W32) &&& 0x7FFFF700 = 0 ∧ bit (0x8000002A : W32) 31 = true ∧ fld (0x8000002A : W32) 7 6 ≠ 3 ∧
       enRefused s 31 0x8000002A = false) ∧
    (answers up (camPage 31) = true ∧ camEn up 31 = false ∧ camW up 31 = 0) ∧ answers up 0x11 = true := by decide +kernel

def keyed : State :=
  { up with
    otp := { up.otp with keys := [(0, ⟨1, []⟩), (1, ⟨1, []⟩), (2, ⟨1, []⟩), (3, ⟨1, []⟩)] }
    sec := { up.sec with level := 1, chal := some [] } }
def haltedCore (on : W32) (lv : BitVec 2) : State :=
  let s := putCore keyed 31 { Core.zero with vrun := some ⟨0, none, 0, 0, 5⟩, v := [(7, 9)] }
  { rset s (pgCdbg 31) 0x40 on with sec := { keyed.sec with level := lv } }

theorem witness_SecurityAndDebug :
    (Settled keyed ∧ answers keyed 0x03 = true ∧ answers keyed 0x05 = true ∧ answers keyed 0x04 = true) ∧
    (keyed.boot.safe = false ∧ keyed.boot.ready = true ∧ (2 : BitVec 8).toNat ≤ 2 ∧ 2 < (3 : BitVec 8).toNat) ∧
    (Settled (haltedCore 0 1) ∧ answers (haltedCore 0 1) (pgCdbg (1 * 16 + 15)) = true ∧ gated (haltedCore 0 1) .cdbg 0x40 = false ∧
      bit (1 : W32) 1 = false) ∧
    (halted (haltedCore 1 1) (1 * 16 + 15) = true ∧ (coreAt (haltedCore 1 1) (1 * 16 + 15)).vrun.isSome = true) ∧
    (Settled (haltedCore 1 0) ∧ answers (haltedCore 1 0) (pgCdbg (1 * 16 + 15)) = true ∧
      gated (haltedCore 1 0) .cdbg 0x40 = true) := by decide +kernel

/-! ### Engines, calibration, programming, sweeps -/

def run0 : Run :=
  { req := 0, slot := 3, layer := 0, set := 0, rows := 4, pool := [], spent := true, left := [], landed := [], units := [], nUnit := 0,
    cursor := [], phaseBs := [], phases := [], feedWait := false, accWait := false, readyWait := false, claimWait := false,
    ended := [], slowIn := [] }
def layer0 : LayerRec := { LayerRec.zero with accClass := 3, k := 64, n := 64, rg := 2 }
/-- RUN, with one layer work over one layer, and engine 8,707 (die 1, core 1, engine 3). -/
def stepping : State :=
  { up with
    pwr := { up.pwr with st := .run }, weights := [(5, 7)], runs := [(5, some run0)]
    plates := [(8707 * 512, { Plate.zero with st := .valid, owner := 3, ref := true })]
    slots := [(3, { Slot.zero with
      st := .active, man := { Manifest.zero with layers := [layer0], shards := [⟨0, 0, 2, 1, 0, []⟩] } })] }
def eng : Nat := 8707
def stepOf (plate : Nat) (x : List Int) : Step := ⟨5, 0, 0, 0, plate, x⟩
def zeros64 : List Int := List.replicate 64 0
def ramp64 : List Int := (List.range 64).map fun i => (i : Int) - 30
def staged (x : List Int) (plate used : Nat) : State :=
  putEng (putDie stepping 1 { dieAt stepping 1 with used := used, govUs := 1000 }) eng
    { Engine.zero with staged := [stepOf plate x, stepOf 0 ramp64], nextId := 40 }
def reading : State := { after (.readIntegrate eng) (staged ramp64 0 0) with belv := { up.belv with tb := 1000300 } }
def readingBig : State :=
  { after (.readIntegrate eng) (staged (List.replicate 64 127) 0 0) with belv := { up.belv with tb := 1000300 } }
/-- Departures of the reference codes far beyond every tolerance, and of the data codes with one beyond the converter's limits. -/
def badErrs : List Int := List.replicate 8 100
def errs9 (sat : Bool) : List Int := (List.range 72).map fun i => if sat && i == 9 then 5000 else (i : Int) * 3 - 50
def decided : State := after (.confidenceDecision eng badErrs) reading
def nextRead_ (s : State) : State :=
  let s := after (.saturationDecision eng (errs9 false)) s
  let s := after (.readIntegrate eng) { s with belv := { s.belv with tb := s.belv.tb + 400 } }
  after (.confidenceDecision eng []) { s with belv := { s.belv with tb := s.belv.tb + 300 } }
/-- The last of four reads of a step that has two parts left. -/
def lastRead : State :=
  let s := nextRead_ (nextRead_ (nextRead_ decided))
  putEng s eng { engAt s eng with steps := (engAt s eng).steps.map fun x => (x.1, x.2.map fun r => { r with left := 2 }) }

/-- What the clauses about a read in flight ask of an engine's head read. -/
def headRead (s : State) (f : Flight → PartSt → StepRun → Bool) : Bool :=
  match (engAt s eng).flights with
  | r :: _ => match tget none (engAt s eng).parts r.part with
    | some p => match tget none (engAt s eng).steps p.step with
      | some x => f r p x
      | none => false
    | none => false
  | [] => false

theorem witness_EngineReads_start :
    (∀ x ∈ [staged zeros64 3 0, staged ramp64 3 0, staged ramp64 0 0, staged ramp64 0 64000],
      Settled x ∧ (engAt x eng).pend = [] ∧ wantsRead x eng (engAt x eng) = true ∧ (dieAt x (eng / 8192)).up = true) ∧
    allZero 0 zeros64 = true ∧ allZero 0 ramp64 = false ∧ (engAt (staged ramp64 3 0) eng).sel ≠ 3 ∧
    granted (staged ramp64 0 0) eng = true ∧ granted (staged ramp64 0 64000) eng = false := by decide +kernel

theorem witness_EngineReads_check :
    headRead reading (fun f p r => f.refs.isNone && decide (f.start + 145 ≤ reading.belv.tb) &&
      refInRange p.range (expectedRef (stepRec reading r.step).inFmt (partRows r.step.x p))) = true ∧
    headRead readingBig (fun f p r => f.refs.isNone && decide (f.start + 145 ≤ readingBig.belv.tb) &&
      !refInRange p.range (expectedRef (stepRec readingBig r.step).inFmt (partRows r.step.x p))) = true := by decide +kernel

theorem witness_EngineReads_saturation :
    headRead decided (fun f p r => decide (f.refs = some (refCodes p.range f.charge badErrs)) && decide (f.start + 256 ≤ decided.belv.tb) && f.first &&
      decide ((stepRec decided r.step).satPol = 0) && decide (p.depth < 2) && (dataCodes p.range f.remap f.charge (errs9 true)).any (fun c => c.sat) &&
      !(dataCodes p.range f.remap f.charge (errs9 false)).any (fun c => c.sat) && furtherReads (stepClass decided r.step) f.failed != 0) = true ∧
    headRead lastRead (fun f p r => f.refs.isSome && decide (f.start + 256 ≤ lastRead.belv.tb) && !f.first &&
      decide (p.reads.length + 1 = p.want) && decide (1 < r.left)) = true := by
  decide +kernel

def refPlates : State :=
  { stepping with plates := [(33, { Plate.zero with st := .valid, owner := 3, ref := true }),
                             (eng * 512 + 7, { Plate.zero with st := .valid, owner := 3, ref := true })] }
/-- A zero offset, and one beyond the limit of acceptance. -/
def goodGroup : CalMeas := ⟨[], []⟩
def badGroup : CalMeas := ⟨List.replicate 144 300, []⟩
def calibrating (dirty : Bool) : State :=
  putEng refPlates eng { Engine.zero with
    calEnd := some 1000000, calPlate := 7, calDirty := dirty, due := true, stale := true, cause := .confidence, confGrp := [2], rejects := 254 }
def calReq (opc : BitVec 8) (par : W32) : State :=
  putReq refPlates 9 (some { r0 with desc := { Desc.zero with opc := opc, param := par } })
def calEngines (s : State) (par : W32) : List Nat :=
  ((bitsOf (BitVec.ofNat 16 (fld par 15 0))).filter fun d => (dieAt s d).online).flatMap fun d =>
    (liveEngines s d).filter fun k => (fld par 31 16).testBit (k / 512 % 16) && (calPlateOf s k).isSome

theorem witness_EngineCalibration_results :
    (∀ r ∈ calResults (calibrating false) eng (List.replicate 8 goodGroup), r.2.2 = true) ∧
    (calResults (calibrating false) eng [badGroup]).any (fun r => !r.2.2) = true := by decide +kernel

theorem witness_EngineCalibration :
    (Settled (calibrating false) ∧ (engAt (calibrating false) eng).calEnd = some 1000000 ∧ 1000000 ≤ (calibrating false).belv.tb ∧
      (engAt (calibrating false) eng).coef.length = 8 ∧
      (engAt (calibrating false) eng).calDirty = false ∧ (dieAt (calibrating false) (eng / 8192)).warn = 0 ∧
      (calibrating false).reqs = []) ∧
    (engAt (calibrating true) eng).calDirty = true ∧
    (Settled (calReq 0x20 0xFFFF0002) ∧ asleep (calReq 0x20 0xFFFF0002) = false ∧
      takeReq (calReq 0x20 0xFFFF0002) 9 0x20 = some { r0 with desc := { Desc.zero with opc := 0x20, param := 0xFFFF0002 } } ∧
      calEngines (calReq 0x20 0xFFFF0002) 0xFFFF0002 = [eng] ∧ calEngines (calReq 0x20 0xFFFF0004) 0xFFFF0004 = []) ∧
    (let s := { refPlates with belv := { up.belv with tb := 600000000000 } }
     Settled s ∧ (dieAt s 1).up = true ∧ (dieAt s 1).savedAt + 600000000000 ≤ s.belv.tb ∧ liveEngines s 1 = [eng]) ∧
    (Settled refPlates ∧ (dieAt refPlates 1).up = true ∧ (dieAt refPlates 1).tickUs < refPlates.belv.tb / 1000) := by decide +kernel

def job (touch : Bool) : Job := ⟨5, 3, 0, 0, [], touch, false, false, 0⟩
def jobbed (touch : Bool) : State :=
  putEng { refPlates with plates := [(eng * 512 + 5, { Plate.zero with st := .drifted, owner := 3, ref := true })] } eng
    { Engine.zero with jobs := [job touch, job true] }

def spent (s : State) : State := putDie s 1 { dieAt s 1 with used := 64000, govUs := s.belv.tb / 1000 }

theorem witness_PlateProgramming_begin :
    Settled (jobbed false) ∧ (engAt (jobbed false) eng).jobs = job false :: [job true] ∧ mayWrite (jobbed false) eng = true ∧
    (job false).touch = false ∧ writeFits (jobbed false) eng = true ∧ retired (jobbed false) (eng * 8 + 5 / 64) = false ∧
    mayWrite (spent (jobbed false)) eng = true ∧ writeFits (spent (jobbed false)) eng = false := by decide +kernel

theorem target_zero (r c : Nat) : target [] 0 r c = if c % 20 = 18 then 32 else 0 := by
  have h : ∀ j, spareOf 0 j = none := fun j => by simp [spareOf]
  have h9 : ∀ j p, pairCode (fun _ => 0) 32 0 j p = if p = 9 then 32 else 0 := fun j p => by
    unfold pairCode; simp only [h]; repeat' split
    all_goals rfl
  unfold target
  simp only [List.getD_nil, h9]
  repeat' split
  all_goals omega

theorem level_at (e : Engine) (he : e.coef = List.replicate 8 Coef.zero) (f : Nat → Int) (n i : Nat) (hi : i < n) :
    (levels e ((List.range n).map f)).getD i 0 = levelNum Coef.zero (clampInt (-2048) 2047 (f i)) := by
  have h : ∀ n, (e.coef.getD n Coef.zero) = Coef.zero := fun n => by
    rw [he]; simp only [List.getD_eq_getElem?_getD, List.getElem?_replicate]; split <;> rfl
  simp only [List.getD_eq_getElem?_getD] at h
  simp [levels, List.getD_eq_getElem?_getD, hi, h]

/-- The raw code of each cell of a plate whose reference cells stand at level 32 and all others at 0. -/
def atTarget (i : Nat) : Int := if i % 160 % 20 = 18 then 1016 else 0

/-- A touch-up whose levels all stand at their targets, none low and none over, and one with a cell over. -/
theorem witness_PlateProgramming_touch :
    (Settled (jobbed true) ∧ (engAt (jobbed true) eng).jobs = job true :: [job true] ∧ mayWrite (jobbed true) eng = true ∧
      (job true).touch = true ∧ (plateAt (jobbed true) (eng * 512 + 5)).st = .drifted ∧
      givesWay (jobbed true) eng (engAt (jobbed true) eng) = false ∧
      slotsUsed (jobbed true) 1 + slotsAhead (jobbed true) 1 < budget (jobbed true) 1 ∧
      (let s := modEng (jobbed true) eng fun e => { e with staged := [stepOf 0 ramp64] }
       mayWrite s eng = true ∧ givesWay s eng (engAt s eng) = true)) ∧
    (let e := engAt (jobbed true) eng
     let b := (List.range 10240).map atTarget
     let x := plateAt (jobbed true) (eng * 512 + 5)
     let t' := fun i => target (job true).codes x.remap (i / 160) (i % 160)
     let high := fun (v : List Int) i => cellOver (job true).codes x.remap (i / 160) (i % 160) ((levels e v).getD i 0)
     ∀ i, i < 10240 → touches (job true) (i % 160) = true → high b i = false ∧ high b i = false ∧
       (0 < t' i → levelLow (t' i) ((levels e b).getD i 0) = true → levelPass (t' i) ((levels e b).getD i 0) = true)) ∧
    (let e := engAt (jobbed true) eng
     let x := plateAt (jobbed true) (eng * 512 + 5)
     18 < 10240 ∧ touches (job true) (18 % 160) = true ∧
       cellOver (job true).codes x.remap (18 / 160) (18 % 160) ((levels e (List.replicate 19 1100)).getD 18 0) = true ∧
       (bankAt (jobbed true) (eng * 8 + 5 / 64)).wear + 1 < 160000) := by
  refine ⟨by decide +kernel, ?_, by decide +kernel⟩
  intro e b x t' high i hi _
  have hl : (levels e b).getD i 0 = levelNum Coef.zero (clampInt (-2048) 2047 (atTarget i)) :=
    level_at e (by decide +kernel) atTarget 10240 i hi
  have ht : t' i = if i % 160 % 20 = 18 then 32 else 0 := target_zero _ _
  have ho : ∀ v, levelOver (t' i) v = false → cellOver (job true).codes x.remap (i / 160) (i % 160) v = false := fun v hv => by
    unfold cellOver; exact (congrArg _ hv).trans (Bool.and_false _)
  have hn : levelOver (t' i) ((levels e b).getD i 0) = false := by
    rw [hl, ht]; unfold atTarget; split <;> decide
  have hw : levelLow (t' i) ((levels e b).getD i 0) = false := by
    rw [hl, ht]; unfold atTarget; split <;> decide
  exact ⟨ho _ hn, ho _ hn, fun _ h => absurd h (by rw [hw]; decide)⟩

def progAt (seg att : Nat) (erased : Bool) (row pulse : Nat) (inh : List Nat) : Prog :=
  { job := job false, attempt := att, seg := seg, erased := erased, row := row, pulse := pulse, inhibit := inh, fails := [],
    remap := 0, spareGo := [], left := [], touched := [], aborted := false }
def programming (g : Prog) : State :=
  putEng { refPlates with plates := [(eng * 512 + 5, { Plate.zero with st := .programming, owner := 3, ref := true })] } eng
    { Engine.zero with prog := some g }
abbrev Programs (g : Prog) : Prop :=
  Settled (programming g) ∧ (engAt (programming g) eng).prog = some g ∧ g.job.touch = false ∧
  opRunning (programming g) eng (engAt (programming g) eng) = true ∧ writeFits (programming g) eng = true

theorem witness_PlateProgramming_pulses :
    Programs (progAt 6 1 false 0 0 []) ∧ Programs (progAt 7 2 false 0 0 []) ∧ Programs (progAt 7 3 false 0 0 []) ∧
    (∀ v ∈ levels (engAt (programming (progAt 7 1 false 0 0 [])) eng) [0, 0], levelOver 0 v = false) ∧
    (∃ v ∈ levels (engAt (programming (progAt 7 1 false 0 0 [])) eng) [0, 200], levelOver 0 v = true) ∧
    (Programs (progAt 0 1 true 2 30 [0, 1, 5]) ∧
      (let e := engAt (programming (progAt 0 1 true 2 30 [0, 1, 5])) eng
       let ts := rowTargets (progAt 0 1 true 2 30 [0, 1, 5])
       18 < 160 ∧ 18 ∉ [0, 1, 5] ∧ levelOver (ts.getD 18 0) ((levels e []).getD 18 0) = false ∧
         levelPass (ts.getD 18 0) ((levels e []).getD 18 0) = false)) ∧
    (Programs (progAt 0 1 true 62 3 (List.range 160)) ∧ Programs (progAt 0 1 true 63 3 (List.range 160)) ∧
      ∀ i, i < 160 → i ∈ List.range 160) := by decide +kernel

def sweeping : State :=
  { after (.verifySweep 9) (calReq 0x21 2) with
    wins := [(1, some { openAt := 0, closeAt := 2000000, dies := 0xFFFF, cores := 0xFFFF, isOpen := true, defer := [] })] }
def selected : State := putEng sweeping eng { engAt sweeping eng with sel := 7 }
def sweepReady (s : State) : Prop :=
  awake s = true ∧ covered s eng = true ∧ (engAt s eng).due = false ∧ (engAt s eng).calEnd = none ∧ (engAt s eng).prog = none ∧
    (engAt s eng).freeAt ≤ s.belv.tb ∧ s.belv.tb + 192 + 128 ≤ coverEnd s eng ∧ (dieAt s 1).up = true

theorem witness_VerifySweeps :
    (Settled (calReq 0x21 2) ∧ asleep (calReq 0x21 2) = false ∧ (takeReq (calReq 0x21 2) 9 0x21).isSome = true ∧
      sweepPlates (calReq 0x21 2) 1 ≠ [] ∧
      (1 : Nat) ∈ (bitsOf (BitVec.ofNat 16 (fld (2 : W32) 15 0))).filter fun d => (dieAt (calReq 0x21 2) d).online) ∧
    (let s := { refPlates with belv := { up.belv with tb := 86400000000000 * 400 } }
     Settled s ∧ (dieAt s 1).up = true ∧ rfld s (pgPrg1 1) 0x40 31 16 ≠ 0 ∧ (dieAt s 1).sweep.active = false ∧ sweepPlates s 1 ≠ [] ∧
       (dieAt s 1).sweep.since + rfld s (pgPrg1 1) 0x40 31 16 * 86400000000000 ≤ s.belv.tb) ∧
    (Settled sweeping ∧ (dieAt sweeping (eng / 8192)).sweep.todo.find? (fun y => y / 512 == eng) = some (eng * 512 + 7)) ∧
    (covered { sweeping with wins := [] } eng = false) := by decide +kernel

theorem witness_VerifySweeps_read :
    (sweepReady sweeping ∧ (engAt sweeping eng).sel ≠ (eng * 512 + 7) % 512) ∧
    (sweepReady (spent selected) ∧ (engAt (spent selected) eng).sel = 7 ∧ granted (spent selected) eng = false) ∧
    (sweepReady selected ∧ granted selected eng = true ∧ (dieAt selected 1).warn = 0 ∧ (engAt selected eng).swRow < 63) ∧
    (let s := putDie selected 1 { dieAt selected 1 with warn := 1 }
     sweepReady s ∧ granted s eng = true ∧ (dieAt s 1).warn ≠ 0) := by
  unfold sweepReady
  decide +kernel

/-! ### The trellis, package memory, flacons -/

def linkIn (st : BitVec 2) (fails re : Nat) : State :=
  { up with links := [(7, { Link.zero with st := st, ver := 2, fails := fails, retrain := re, crc := 0xFFFFFFFF, replay := 3 })] }
def sending : State := linked { up with xfers := [(4, some ⟨1, [2, 5], some 3⟩)] }
def reqIn (opc : BitVec 8) (ph : Phase) (d : Desc) : Req := { r0 with phase := ph, desc := { d with opc := opc } }
def inRun (tb : Nat) : State := { up with pwr := { up.pwr with st := .run }, belv := { up.belv with tb := tb } }
def slowRun : Run := { run0 with req := 9, pool := [0], left := [(0, 1)], rows := 64 }
def slowState : State :=
  { up with
    reqs := [(9, some { reqIn 1 .running { Desc.zero with inAddr := 0x1000, outAddr := 0x9000 } with slot := 3, len := 4 })]
    runs := [(5, some slowRun)]
    slow := { SlowUnit.zero with queue := [(5, 0)] }, hostMem := [(0x1000, 1)]
    slots := [(3, { Slot.zero with
      st := .active, shards := [(0, { ShardSt.zero with stored := true })], areas := [(0, 0x50203)]
      man := { Manifest.zero with
        slowBytes := 4096, shards := [⟨0x200, 1, 0, 0, 0, []⟩]
        layers := [{ LayerRec.zero with tier := 1, k := 5, n := 3, mMax := 4, consCount := 1 }], cons := [⟨1, 0xFF, 0, 0, 0⟩] } })] }

theorem witness_TrellisAndMemory :
    (Settled (linkIn 1 6 0) ∧ (linkAt (linkIn 1 6 0) 7).st = 1 ∧ (linkAt (linkIn 1 6 0) 7).fails + 1 < 8 ∧
      8 ≤ (linkAt (linkIn 1 7 0) 7).fails + 1) ∧
    (Settled (linkIn 2 3 1) ∧ (linkAt (linkIn 2 3 1) 7).st = 2 ∧ (linkAt (linkIn 2 3 1) 7).retrain + 1 < 3 ∧
      3 ≤ (linkAt (linkIn 2 3 2) 7).retrain + 1) ∧
    (Settled sending ∧ xferAt sending 4 = some ⟨1, [2, 5], some 3⟩ ∧ ([2, 5] : List Nat).contains 2 = true ∧
      ([2, 5] : List Nat).contains 7 = false ∧ onWay sending 4 2 = false ∧ wayOpen sending .ctrl 2 [1] = true) ∧ 0xEFFFFFFFF < 2 ^ 36 ∧
    (let s := withReq up 9 (reqIn 1 .running Desc.zero)
     Settled s ∧ reqAt s 9 = some (reqIn 1 .running Desc.zero) ∧ (reqIn 1 .running Desc.zero).phase ≠ .finished ∧
       (reqIn 1 .running Desc.zero).status = none) ∧
    (pageReach up (pgCore 31) = .ok ∧ 0x400000 ≤ 0x47FFFF ∧ ¬ 0x400000 ≤ 0x3FFFFF) ∧
    (Settled (inRun 86400000000000) ∧ (inRun 86400000000000).pwr.st = .run ∧
      (inRun 86400000000000).scrubAt + 86400000000000 ≤ (inRun 86400000000000).belv.tb) ∧
    (Settled slowState ∧ slowState.slow.out = [] ∧ slowNext slowState = some (5, 0) ∧ runAt slowState 5 = some slowRun ∧
      (reqAt slowState slowRun.req).isSome = true ∧ layerArea (slotAt slowState 3) 0 = some 0 ∧
      areaInvalid (slotAt slowState 3) 0
        (areaBytes (slowRun.rc slowState).k (slowRun.rc slowState).n (weightSize (fmtsAt (slotAt slowState 3) 0).2.1)) = false ∧
      slowState.poison = []) := by
  decide +kernel

def beginning (task : BitVec 16) : State :=
  withReq up 9 (reqIn 0x10 .dispatched { Desc.zero with task := task, auxAddr := 0x100, param := 64 })
/-- A manifest with one shard of KIND 0 or 1, and its slot. -/
def oneShard (kind : Nat) (digest : List Byte) : Manifest :=
  { Manifest.zero with
    slowBytes := 8192, shardCount := 1, shards := [⟨128, kind, 3, 1, 1, digest⟩], plates := [⟨2, 0, 7, 0, 0, 0⟩]
    layers := [{ LayerRec.zero with plateCount := 1 }, { LayerRec.zero with die := 1, plateCount := 1 }] }
def sharding (kind : Nat) (digest : List Byte) : State :=
  { withReq up 9 (reqIn 0x11 .dispatched { Desc.zero with task := 3, auxAddr := 0x100 }) with
    slots := [(3, { Slot.zero with st := .loading, man := oneShard kind digest, slowAt := 0x2000 })]
    hostMem := [(0x140, 5), (0x1BF, 0xC8)] }
def shardData : List Byte := bytesAt [(0x140, 5), (0x1BF, 0xC8)] 0x140 128
def staging0 (sent : Bool) (w : BitVec 16) : Staging :=
  { req := 9, slot := 3, shard := 0, repair := false, need := 3, sent := sent, wait := w, bad := 0, data := [1, 2] }
def inStaging (sent : Bool) (w : BitVec 16) (digest : List Byte) : State :=
  { sharding 0 digest with staging := [staging0 sent w], links := (List.range 80).map fun i => (i, { Link.zero with st := 1, ver := 2 }) }

theorem witness_FlaconSessions_begin :
    (Settled (beginning 0) ∧ (reqAt (beginning 0) 9).isSome = true ∧ flcFirst (beginning 0) 9 = true) ∧
    (Settled (beginning 3) ∧ (reqAt (beginning 3) 9).isSome = true ∧ flcFirst (beginning 3) 9 = true) ∧
    (reqIn 0x10 .dispatched { Desc.zero with task := 3, auxAddr := 0x100, param := 64 }).desc.flcSlot = 3 ∧
    (auxBytes (beginning 3) { Desc.zero with task := 3, auxAddr := 0x100, param := 64 } 0 64).isSome = true := by decide +kernel

theorem witness_FlaconSessions_shard (kind : Nat) (hk : kind = 0 ∨ kind = 1) :
    let s := sharding kind (Config.sha384 shardData)
    Settled s ∧ reqAt s 9 = some (reqIn 0x11 .dispatched { Desc.zero with task := 3, auxAddr := 0x100 }) ∧
    (slotAt s 3).st = .loading ∧ s.staging = [] ∧ 0 < (slotAt s 3).man.shardCount ∧
    shardRangeBad s (reqIn 0x11 .dispatched { Desc.zero with task := 3, auxAddr := 0x100 }).desc = false ∧
    auxBytes s (reqIn 0x11 .dispatched { Desc.zero with task := 3, auxAddr := 0x100 }).desc 64 128 = some shardData ∧
    (shardEnt (slotAt s 3).man 0).kind = kind ∧ (shardEnt (slotAt s 3).man 0).digest = Config.sha384 shardData ∧
    (shardEnt (slotAt s 3).man 0).dies &&& ~~~(tget ShardSt.zero (slotAt s 3).shards 0).kept ≠ 0 := by
  rcases hk with rfl | rfl <;> exact ⟨rfl, rfl, rfl, rfl, Nat.one_pos, rfl, rfl, rfl, rfl, by decide⟩

theorem cons_ne_self (l : List Byte) : l ≠ 0 :: l := fun h => absurd (congrArg List.length h) (by simp)

theorem witness_FlaconSessions_bad :
    let s := sharding 0 (0 :: Config.sha384 shardData)
    Settled s ∧ (slotAt s 3).st = .loading ∧ (shardEnt (slotAt s 3).man 0).kind ≠ 2 ∧
    Config.sha384 shardData ≠ (shardEnt (slotAt s 3).man 0).digest :=
  ⟨rfl, rfl, by decide, cons_ne_self _⟩

theorem witness_FlaconSessions_send :
    let s := inStaging false 0 []
    Settled s ∧ s.staging = [staging0 false 0] ∧ (staging0 false 0).req = 9 ∧ (staging0 false 0).sent = false ∧ shardNeeds s 3 0 ≠ 0 ∧ asleep s = false ∧
    (∀ d ∈ bitsOf (shardNeeds s 3 0), loadUse s d < 4 ∧ dieUp s d = true) ∧
    mayTransfer s 16 (bitsOf (shardNeeds s 3 0)) = true ∧ lostDests s 16 (bitsOf (shardNeeds s 3 0)) = [] ∧
    (let s := { s with slots := [(3, { slotAt s 3 with shards := [(0, { ShardSt.zero with kept := 3 })] })] }
     s.staging = [staging0 false 0] ∧ shardNeeds s 3 0 = 0 ∧ reqAt s 9 = some (reqIn 0x11 .dispatched { Desc.zero with task := 3, auxAddr := 0x100 })) := by
  decide +kernel

theorem witness_FlaconSessions_receive :
    (let s := inStaging true 3 (0 :: Config.sha384 [64])
     Settled s ∧ s.staging = [staging0 true 3] ∧ (staging0 true 3).wait.getLsbD 1 = true ∧ dieUp s 1 = true ∧
       Config.sha384 [64] ≠ (shardEnt (manOf s 3) 0).digest ∧ (staging0 true 3).wait ≠ 1#16 <<< 1) ∧
    (let s := inStaging true 3 []
     shardComing s 9 1 = false ∧
       shardComing { s with xfers := [(4, some ⟨16, [0, 1], some 9⟩)], flows := [⟨.data, 16, [1], 3, some 4, []⟩] } 9 1 = true) ∧
    ¬ (([64] : List Byte).all fun b => decide (-63 ≤ b.toInt ∧ b.toInt ≤ 63)) = true ∧
    (([63] : List Byte).all fun b => decide (-63 ≤ b.toInt ∧ b.toInt ≤ 63)) = true := by
  refine ⟨⟨rfl, rfl, by decide, by decide +kernel, cons_ne_self _, by decide⟩, by decide +kernel, by decide, by decide⟩

/-- The slot's replicas lie on an engine whose plates are all BAD but none, or are all free. -/
def noPlates (inPlace : Bool) (digest : List Byte) : State :=
  let s := inStaging true 3 digest
  { s with
    slots := [(3, { slotAt s 3 with man := { (slotAt s 3).man with flags := if inPlace then 2 else 0 } })]
    plates := (List.range 1024).map fun i => (((1 * 16 + 2) * 512 + 7) * 512 + i % 512, { Plate.zero with st := .bad }) }

theorem witness_FlaconSessions_placed :
    (let s := inStaging true 3 (Config.sha384 (List.replicate 4096 3))
     Settled s ∧ s.staging = [staging0 true 3] ∧ (shardEnt (manOf s 3) 0).digest = Config.sha384 (List.replicate 4096 3)) ∧
    (placeShard (inStaging true 3 []) 1 3 0 (List.replicate 4096 3)).2 = true ∧
    (∀ b ∈ [false, true], let s := noPlates b []
      (placeShard s 1 3 0 (List.replicate 4096 3)).2 = false ∧ (slotAt s 3).man.inPlace = b ∧ (slotAt s 3).drained = false) :=
  ⟨⟨rfl, rfl, rfl⟩, by decide +kernel, by decide +kernel⟩

def doneSlot : Slot :=
  { Slot.zero with
    man := { oneShard 0 [] with progs := [⟨0, 2, 1, [5, 6]⟩] }, shards := [(0, { ShardSt.zero with kept := 3 })] }
/-- A slot session with a request on slot 3. -/
def session (opc : BitVec 8) (x : Slot) : State :=
  { withReq up 9 (reqIn opc .dispatched { Desc.zero with task := 3, auxAddr := 0x9000 }) with
    slots := [(3, x)], prov := [(6, 3), (7, 2)]
    plates := [(700, { Plate.zero with st := .bad, owner := 3, shard := 1 }), (12345, { Plate.zero with st := .valid, owner := 3 })] }
def activating (x : Slot) : State :=
  { session 0x12 { x with st := .activating, actReq := some 9 } with
    reqs := [(9, some (reqIn 0x12 .running { Desc.zero with task := 3 }))], belv := { up.belv with tb := 70000000000 } }
/-- Every plate of both replicas is VALID. -/
def bothDone (s : State) : State :=
  { s with plates := s.plates ++ [(4194304 + 12345, { Plate.zero with st := .valid, owner := 3 })] }
def ready3 : State :=
  let s := activating { doneSlot with
    man := { doneSlot.man with tasks := [⟨6, 1, 4, 0⟩, ⟨8, 1, 4, 0⟩] }, base := 2, judged := true, actT := 70000000000 }
  { s with
    epoch := 41, prov := [(6, 2), (7, 2), (8, 5)]
    slots := [(2, { doneSlot with st := .active, tasks := [6, 7] })] ++ s.slots ++ [(5, { doneSlot with st := .active, tasks := [8] })] }

theorem witness_ActivationAndFreeing_requests :
    (∀ p ∈ ([(0x12, SlotSt.loading), (0x13, .active), (0x14, .activating)] : List (BitVec 8 × SlotSt)),
      let s := session p.1 { Slot.zero with st := p.2, man := oneShard 0 [] }
      Settled s ∧ (reqAt s 9).isSome = true ∧ flcFirst s 9 = true ∧ (slotAt s 3).st = p.2 ∧ (slotAt s 3).judged = false ∧
        (slotAt s 3).actReq = none ∧ s.staging = [] ∧ (∀ g ∈ s.staging, g.req ≠ 9)) ∧
    (∀ leaf ∈ [1048575, 1048576], let s := { session 0x30 Slot.zero with nv := { Nv.zero with lmsNext := leaf } }
      Settled s ∧ (keysOf s.reqs) = [9] ∧ activationDue s = false ∧ s.nv.lmsNext = leaf) ∧
    (let s := { session 0x30 { doneSlot with st := .activating, prepared := some 900000 } with belv := { up.belv with tb := 902000 } }
     Settled s ∧ (keysOf s.reqs) = [9] ∧ activationDue s = true) := by decide +kernel

theorem witness_ActivationAndFreeing_slots :
    (let s := activating Slot.zero
     let x := slotAt s 3
     Settled s ∧ x.st = .activating ∧ x.prepared = none ∧ max x.actAt x.arrival + rfld s 0x60 0x40 15 0 * 1000000 ≤ s.belv.tb) ∧
    (let s := bothDone (activating doneSlot)
     let x := slotAt s 3
     slotWriting s 3 = false ∧ x.man.shards.length - doneShards s 3 = 0 ∧ (loadPrograms s 3).isSome = true) ∧
    (let s := activating { doneSlot with shards := [], timedOut := true, progFail := true }
     let x := slotAt s 3
     slotWriting s 3 = false ∧ x.man.shards.length - doneShards s 3 ≠ 0 ∧ x.timedOut = true ∧ x.actReq = some 9 ∧
       reqAt s 9 = some (reqIn 0x12 .running { Desc.zero with task := 3 })) ∧
    (let s := activating { doneSlot with prepared := some 69999000000, target := 70000002000 }
     let x := slotAt s 3
     x.st = .activating ∧ x.prepared = some 69999000000 ∧ x.judged = false ∧
       max x.target (69999000000 + 2000) ≤ s.belv.tb + 2000) ∧
    (let x := slotAt ready3 3
     Settled ready3 ∧ x.st = .activating ∧ x.judged = true ∧ x.actT ≤ ready3.belv.tb ∧ (slotAt ready3 2).st = .active) ∧
    (let s := session 0x13 { doneSlot with st := .retiring, retReq := some 9 }
     Settled s ∧ (slotAt s 3).st = .retiring ∧ slotInflight s 3 = 0 ∧ (slotAt s 3).retReq = some 9) ∧
    (let s := { session 0x13 { doneSlot with st := .loading, suspends := true, base := 2, man := { doneSlot.man with flags := 2 } } with
       suspended := [6] }
     Settled s ∧ (slotAt s 3).st = .loading ∧ (slotAt s 3).man.inPlace = true ∧ (slotAt s 3).drained = false ∧
       (s.reqs.any fun e => match e.2 with
          | some q => q.slot == 2 && q.desc.opc == 1 && q.phase != .finished && s.suspended.contains q.desc.task.toNat
          | none => false) = false) := by decide +kernel

/-! ### Tasks and cores -/

/-- A layer of one core (core 2 of die 0) and one plate, and its manifest. -/
def layer1 : LayerRec :=
  { LayerRec.zero with
    task := 6, accClass := 3, k := 100, n := 40, mMax := 128, rg := 2, mg := 2, claimN := 1, sets := 1, gridM := 1, source := 2
    inRing := 0x1000, inSlots := 4, drainProg := 1, endProg := 4, coreCount := 1, plateCount := 2, consCount := 1, outEb := 1 }
def qent (core slot group : Nat) : QSlotEnt :=
  { die := 0, core := core, slot := slot, fmt := 2, gran := 0, depth := 4, qsTol := 3, policy := 0, group := group, cols := 64,
    codes := 0x2000, scale := 0x3000, hist := 0x4000, spill := 0x5000, spillBytes := 0x1000 }
def manifest1 : Manifest :=
  { Manifest.zero with
    tasks := [⟨6, 1, 128, 0⟩], layers := [layer1], cores := [⟨2, 0, 0x100000, 8192⟩], plates := [⟨2, 0, 7, 0, 0, 0⟩, ⟨2, 1, 9, 1, 0, 0⟩]
    cons := [⟨1, 0xFF, 0, 0, 0⟩], shards := [⟨4096, 0, 1, 1, 0, []⟩]
    progs := [⟨0, 2, 1, [0x5F00000000000000]⟩, ⟨0, 2, 4, [0x5F00000000000000]⟩]
    qslots := [qent 2 1 1, qent 2 2 2, qent 3 2 2] }
def taskReq (ph : Phase) : Req :=
  { reqIn 1 ph { Desc.zero with task := 6, inAddr := 0x8000, outAddr := 0x9000 } with slot := 3, len := 100 }
def onTask (m : Manifest) (q : Req) : State :=
  { up with
    pwr := { up.pwr with st := .run }, nextReq := 10, prov := [(6, 3)], reqs := [(9, some q)]
    slots := [(3, { Slot.zero with st := .active, man := m, tasks := [6], bases := [(0, 100), (1, 200)], ctrs := [(0, 7)] })] }
def crowded : Manifest := { manifest1 with layers := [{ layer1 with inSlots := 1, mg := 40 }] }
def checking (l : List (Nat × Nat × Nat × Nat × Nat)) (len : Nat) : Req :=
  { taskReq .checking with refusals := l, len := len, clamped := true }

theorem witness_TaskIssue :
    (Settled (onTask manifest1 (taskReq .dispatched)) ∧ reqAt (onTask manifest1 (taskReq .dispatched)) 9 = some (taskReq .dispatched) ∧
      taskCores manifest1 6 = [2] ∧ coreFailures (onTask manifest1 (taskReq .dispatched)) manifest1 (taskReq .dispatched) 2 = [] ∧
      coreFailures (onTask crowded (taskReq .dispatched)) crowded (taskReq .dispatched) 2 ≠ [] ∧ taskCores manifest1 7 = []) ∧
    (∀ q ∈ [checking [(2, 0, 0x30, 0, 0), (3, 0, 0x20, 1, 1)] 5, checking [] 0, checking [] 100],
      Settled (onTask manifest1 q) ∧ reqAt (onTask manifest1 q) 9 = some q ∧ q.phase = .checking ∧
        diesReady (onTask manifest1 q) q = true ∧ q.status = none) := by decide +kernel

def fetching (landed : List (Nat × Nat)) (fromHost : Bool) (pool : List Nat) : State :=
  let q : Req := taskReq .running
  { onTask manifest1 { q with desc := { q.desc with inAddr := if fromHost then 0x8000 else 0 } } with
    runs := [(5, some { run0 with req := 9, rows := 100, pool := pool, left := pool.map fun b => (b, 64), landed := landed })] }
def claiming (scope : Nat) (c : Ctr) : State :=
  { fetching [] true [] with
    slots := [(3, { Slot.zero with
      st := .active, man := { manifest1 with layers := [{ layer1 with ctrScope := scope }] }, tasks := [6], ctrs := [(0, 7)] })]
    runs := [(5, some { run0 with req := 9, rows := 100, spent := false })], ctrs := [(7, c)] }
def claimant : Run := { run0 with req := 9, rows := 100, spent := false }
def claimOf (scope : Nat) (c : Ctr) : Reply :=
  let s := claiming scope c
  let n := if scope = 1 then (diePart (claimant.rc s) (blocksOf claimant.rows)).length else blocksOf claimant.rows
  ((ctrAt s 7).claim 0 n (max (claimant.rc s).claimN 1)).2

theorem witness_TaskIssue_fetch :
    (let s := fetching [(0, 2), (1, 2)] false [0, 1]
     match runAt s 5, reqAt s 9 with
     | some w, some q => decide (Settled s ∧ (w.rc s).tier = 0 ∧ w.pool = [0, 1] ∧ (w.rc s).groupSize ≠ 0 ∧ w.spent = true ∧
         fromDesc w s q = false) && w.pool.all fun b => blockReady s w b
     | _, _ => false) = true ∧
    (let s := fetching [(0, 1)] false [0, 1]
     match runAt s 5 with
     | some w => !(w.pool.all fun b => blockReady s w b) && !w.readyWait
     | none => false) = true ∧
    (∀ scope ∈ [1, 2], let s := claiming scope Ctr.zero
      Settled s ∧ runAt s 5 = some claimant ∧ (reqAt s 9).isSome = true ∧
        ((slotAt s 3).ctrs.find? fun e => e.1 == 0) = some (0, 7) ∧ (claimant.rc s).ctrScope = scope ∧
        claimant.left.length < (claimant.rc s).groupSize * (1 + (claimant.rc s).doubling) ∧ claimOf scope Ctr.zero = .took 0 1) ∧
    (∀ x ∈ ([([], true), ([0], true), (List.range 8, false)] : List (List Nat × Bool)),
      let s := putCore (fetching [(0, 2), (1, 2)] false [0, 1]) 2 { Core.zero with fetchQ := if x.1 = [] then [] else [(4, x.1)] }
      (match runAt s 5 with
      | some w =>
        let n := min (w.rc s).groupSize w.pool.length
        let depth := ((coreAt s (w.home s)).fetchQ.map fun e => e.2.length).sum
        w.home s == 2 && ((w.pool.take n).all fun b => blockReady s w b) && decide ((n ≤ 8 ∧ depth + n ≤ 8) ∨ depth = 0) == x.2
      | none => false) = true) ∧
    (let open_ := linked (claiming 2 Ctr.zero)
     let shut := { open_ with links := (List.range 80).map fun k => (k, { Link.zero with st := 2 }) }
     let die := (claimant.rc open_).die
     (reaches open_ die 16 = true ∧ wayOpen open_ .ctrl die [16] = true ∧ lostDests open_ 16 (layerDies open_ claimant) = []) ∧
       (reaches shut die 16 = true ∧ wayOpen shut .ctrl die [16] = false) ∧ reaches (claiming 2 Ctr.zero) die 16 = false ∧
       (taskReq .running).phase ≠ .finished ∧ (taskReq .running).status = none) ∧
    claimOf 1 ⟨0, 2, 2, false⟩ = .exhausted ∧ claimOf 1 ⟨65535, 1, 2, false⟩ = .later := by decide +kernel

def working (w : Run) (k : Core) : State := { onTask manifest1 (taskReq .running) with runs := [(5, some w)], cores := [(2, k)] }
def stepRun : Run :=
  { run0 with req := 9, rows := 100, left := [(0, 128), (1, 72)], landed := [(0, 2), (1, 2)], units := [⟨[0, 1], [0], 200⟩], nUnit := 1 }
def allocRun (aw : Bool) : Run := { stepRun with units := [], accWait := aw }
def queuedCore (n : Nat) : Core :=
  { Core.zero with fetchQ := [(5, [0, 1])], tiles := (List.range n).map fun i => (i, some ⟨4, 0, 0, 0, 5, false, false, 0⟩) }
def goals (s : State) (w : Run) (row ks : Nat) : List (Nat × PlateEnt) :=
  (setEngines (w.rc s) (setPlates (w.man s) (w.rc s) w.set)).filterMap fun e =>
    match nextStep (w.rc s) w (setPlates (w.man s) (w.rc s) w.set) e with
    | some (p, n) => if n = row ∧ p.ks = ks then some (e, p) else none
    | none => none
def allocOk (s : State) (w : Run) (u : AUnit) (c : Nat) : Bool :=
  let l := w.rc s
  decide (unitsHeld s w (coreAt s (coreIdx l.die c)) < 1 + l.doubling) &&
    decide ((unitTiles (w.man s) l u c).length ≤ (freeTiles (coreAt s (coreIdx l.die c))).length) && !earlierWaits s 5 w c
def allocCores (s : State) (w : Run) (u : AUnit) : List Nat :=
  (setCores (w.man s) (w.rc s) w.set).filter fun c => !(unitTiles (w.man s) (w.rc s) u c).isEmpty

theorem witness_CoreWork_runs :
    (let s := working stepRun Core.zero
     Settled s ∧ runAt s 5 = some stepRun ∧ goals s stepRun 0 0 ≠ [] ∧ goals s stepRun 3 0 = [] ∧
       ((goals s stepRun 0 0).all fun g => decide ((engAt s g.1).staged.length + (engAt s g.1).steps.length < 16)) = true) ∧
    (let s := putEng (working stepRun Core.zero) (2 * 512 + 7) { Engine.zero with staged := List.replicate 16 ⟨5, 0, 0, 0, 0, []⟩ }
     ((goals s stepRun 0 0).all fun g => decide ((engAt s g.1).staged.length + (engAt s g.1).steps.length < 16)) = false) ∧
    (let s := working (allocRun false) (queuedCore 0)
     match wantUnit s 5 (allocRun false) with
     | some u => (allocCores s (allocRun false) u).all (allocOk s (allocRun false) u)
     | none => false) = true ∧
    (∀ aw ∈ [false, true], let s := working (allocRun aw) (queuedCore 31)
     (match wantUnit s 5 (allocRun aw) with
     | some u => !(allocCores s (allocRun aw) u).all (allocOk s (allocRun aw) u)
     | none => false) = true) ∧
    (let w : Run := { stepRun with units := [], left := [] }
     let s := working w Core.zero
     let sibs := (siblings s w).filter fun e => (setCores (e.2.man s) (e.2.rc s) e.2.set).contains (2 % 16)
     Settled s ∧ runAt s 5 = some w ∧ (coreAt s 2).vrun = none ∧ halted s 2 = false ∧ (w.rc s).tier = 0 ∧ 2 / 16 = (w.rc s).die ∧
       sibs ≠ [] ∧ (sibs.all fun e => !e.2.ended.contains 2 && drainedOn s e.1 e.2 2) = true ∧
       progBounds s w.slot (w.rc s).die (2 % 16) (w.rc s).endProg = some (200, 1) ∧ busySlots s w 2 (w.rc s).endProg = []) := by decide +kernel

def tileCore (x : Tile) (dq : List Nat) : Core := { Core.zero with tiles := [(6, some x)], drainQ := dq }
def tileIn (left : Nat) (q t : Bool) (row : Nat) : Tile := ⟨5, 0, 1, 0, left, q, t, row⟩
def delivering (run : Nat) (wait : Bool) (linked : Bool) : State :=
  { working { stepRun with units := [], left := [] } { Core.zero with deliver := [(run, 0, 0), (5, 1, 0)], waitDel := wait } with
    links := if linked then (List.range 80).map fun i => (i, { Link.zero with st := 1, ver := 2 }) else [] }
def self : Manifest := { manifest1 with cons := [⟨0, 0, 2, 6, 0⟩] }
def hasRoom (s : State) (w : Run) : Bool := (consEnts (w.man s) (w.rc s)).all fun e => consReady s w 0 e
def goesOut (s : State) (w : Run) : Bool :=
  let cons := consEnts (w.man s) (w.rc s)
  let far := ((cons.map fun e => if e.kind = 1 ∨ e.die = 0xFF then 16 else e.die).dedup).filter fun d => d != (w.rc s).die
  !halted s 2 && hasRoom s w && mayTransfer s (w.rc s).die far
/-- The layer consumes its own output, and its block 0 has not been taken yet. -/
def blocked (wait : Bool) : State :=
  let s := delivering 5 wait true
  putRun { s with slots := [(3, { slotAt s 3 with man := self })] } 5
    (some { stepRun with units := [], left := [(0, 128)], landed := [(4, 1)] })

theorem witness_CoreWork_cores :
    (let s := working stepRun (tileCore (tileIn 0 false false 0) (List.range 7))
     Settled s ∧ tget none (coreAt s 2).tiles 6 = some (tileIn 0 false false 0) ∧ (coreAt s 2).drainQ.length < 8) ∧
    (let s := working stepRun (tileCore (tileIn 0 false false 0) (List.range 8))
     8 ≤ (coreAt s 2).drainQ.length ∧ (tileIn 1 false false 0).left ≠ 0) ∧
    (∀ t ∈ [false, true], let s := working stepRun (tileCore (tileIn 0 true t 35) (if t then [3] else [6]))
     let k := coreAt s 2
     k.vrun = none ∧ halted s 2 = false ∧ runAt s 5 = some stepRun ∧
       ((k.tiles.find? fun e => match e.2 with | some y => y.taken | none => false).map fun e => e.1).or
         (k.drainQ.drop (k.drainQ.takeWhile fun y => !(tileBusy s 2 y).isEmpty).length).head? = some 6 ∧
       progBounds s stepRun.slot (stepRun.rc s).die (2 % 16) (stepRun.rc s).drainProg = some (100, 1)) ∧
    (Settled (delivering 4 false true) ∧ (coreAt (delivering 4 false true) 2).deliver = (4, 0, 0) :: [(5, 1, 0)] ∧
      runAt (delivering 4 false true) 4 = none) ∧
    (match runAt (delivering 5 false true) 5 with
     | some w => goesOut (delivering 5 false true) w
     | none => false) = true ∧
    (let s := { delivering 5 true true with links := (List.range 80).map fun k => (k, { Link.zero with st := 2 }) }
     match runAt s 5 with
     | some w => hasRoom s w && !goesOut s w
     | none => false) = true ∧
    (∀ wd ∈ [false, true], (match runAt (blocked wd) 5 with
     | some w => !hasRoom (blocked wd) w && decide ((coreAt (blocked wd) 2).waitDel = wd)
     | none => false) = true) := by decide +kernel

/-! ### Vector instructions -/

def vcore : Core :=
  { Core.zero with
    v := (List.range 192).map fun i => (i, BitVec.ofNat 32 (i * 77777777 + 5)), m := [(1, 0xFFFF0F0F)]
    sc := [(2, 0x100), (3, 0x400000)], pc := 100, vrun := some ⟨5, none, 0, 100, 8⟩ }
def endRun : Run := { run0 with req := 9, rows := 100, nUnit := 1 }
def vstate (k : Core) (op : Nat) (f : VF) : State :=
  { working endRun k with progs := [(2 * 32768 + k.pc, some (vWord op f))], coreMem := [(coreKey 2 0x100, 7)] }
abbrev Runs (s : State) (p : VRun) : Prop :=
  Settled s ∧ (coreAt s 2).vrun = some p ∧ (coreAt s 2).loops = [] ∧ p.first ≤ (coreAt s 2).pc + 1 ∧
    (coreAt s 2).pc + 1 < p.first + p.count ∧ halted s 2 = false
def vf (dt : BitVec 4) (vd va vb : BitVec 5) (imm : W32) : VF := ⟨dt, vd, va, vb, 0, false, false, imm⟩

theorem witness_VectorAlu :
    ∀ op ∈ [0x00, 0x10, 0x11, 0x12, 0x13, 0x14, 0x15, 0x16, 0x17, 0x18, 0x19, 0x20, 0x21, 0x22, 0x23, 0x24, 0x25, 0x28, 0x29, 0x30, 0x31,
        0x32, 0x33, 0x34, 0x35, 0x36, 0x38, 0x39, 0x3A, 0x3B, 0x3C, 0x40],
      let s := vstate vcore op (vf 0xC 3 0 1 0)
      Runs s ⟨5, none, 0, 100, 8⟩ ∧ progWord s 2 100 = some (vWord op (vf 0xC 3 0 1 0)) := by decide +kernel

/-- The last lane's element lies inside the 4,718,592 bytes, or the first outside. -/
def fitsAt (s : State) (f : VF) (r : Nat) : Bool :=
  (List.range 64).all fun i => !(coreAt s 2).enabled f i || accessOk (elemAddr f.dt.toNat ((coreAt s 2).base f r) i) (elemBytes f.dt.toNat)

theorem witness_VectorMemQuant_memory :
    (∀ op ∈ [0x01, 0x02, 0x03], let s := vstate vcore op (vf 2 3 2 2 0)
      Runs s ⟨5, none, 0, 100, 8⟩ ∧ progWord s 2 100 = some (vWord op (vf 2 3 2 2 0)) ∧ fitsAt s (vf 2 3 2 2 0) 2 = true) ∧
    (∀ op ∈ [0x01, 0x02, 0x03], let s := vstate vcore op (vf 2 3 3 3 0x7FFF0)
      fitsAt s (vf 2 3 3 3 0x7FFF0) 3 = false ∧ pageReach s (pgVec 2) = .ok) ∧
    (let s := vstate vcore 0x05 (vf 5 3 0 0 2)
     (∀ i ∈ List.range 64, accessOk (((coreAt s 2).scalar 2).toNat + 4 * (((coreAt s 2).lane 0 i).toNat % 256)) 4 = true) ∧
       accessOk ((0x47FFFD : Nat) + 4 * 0) 4 = false) := by decide +kernel

def loopImm (n t : Nat) : W32 := BitVec.ofNat 32 (n * 65536 + t)
def looped (d : Nat) : Core := { vcore with loops := List.replicate d ⟨100, 107, 3⟩ }

theorem witness_VectorMemQuant_control :
    (let s := vstate (looped 3) 0x52 (vf 0 0 0 0 (loopImm 3 2))
     Settled s ∧ (coreAt s 2).loops.length < 4 ∧ progWord s 2 100 = some (vWord 0x52 (vf 0 0 0 0 (loopImm 3 2))) ∧
       fld (loopImm 3 2) 15 0 ≠ 0 ∧ fld (loopImm 3 2) 31 16 ≠ 0) ∧
    (let s := vstate vcore 0x52 (vf 0 0 0 0 (loopImm 3 0))
     (coreAt s 2).loops = [] ∧ fld (loopImm 3 0) 15 0 = 0 ∧ 100 + 1 + fld (loopImm 3 0) 31 16 < 100 + 8) ∧
    (coreAt (vstate (looped 4) 0x52 (vf 0 0 0 0 (loopImm 3 2))) 2).loops.length = 4 ∧
    (∀ row ∈ [34, 35], let k : Core := { vcore with tiles := [(6, some (tileIn 0 true true row))], vrun := some ⟨5, some 6, row, 100, 1⟩ }
     let s := vstate k 0x5F vf0
     Settled s ∧ progWord s 2 100 = some (vWord 0x5F vf0) ∧ runAt s 5 = some endRun ∧
       tget none (coreAt s 2).tiles 6 = some (tileIn 0 true true row)) ∧
    (34 + 1 < blockRows endRun.rows 1 ∧ blockRows endRun.rows 1 ≤ 35 + 1) ∧
    (let s := vstate vcore 0x5F vf0
     (setCores (endRun.man s) (endRun.rc s) endRun.set).contains (2 % 16) = true) := by decide +kernel

def qslot (e : QSlotEnt) (h : List W32) : QSlot :=
  { cfg := e, hist := [(0, h)], passes := 3, isOpen := true, req := 9, amax := [], elems := [], satN := [], posted := false,
    sent := [], posts := [], waited := false, startWait := [], clear := false, lost := false }
def qstate (op n : Nat) (posts : List Post) : State :=
  let q2 : QSlot := { qslot (qent 2 2 2) [] with sent := [⟨3, 9, [5], false, [true]⟩], posts := posts }
  { vstate vcore op (vf 0xC 3 0 2 (BitVec.ofNat 32 n)) with
    qslots := [(qKey 3 2 1, some (qslot (qent 2 1 1) [0x42000000])), (qKey 3 2 2, some q2)] }

theorem witness_VectorMemQuant_quant :
    (let s := qstate 0x41 1 []
     Runs s ⟨5, none, 0, 100, 8⟩ ∧ runAt s 5 = some endRun ∧ qslotAt s (qKey 3 2 1) = some (qslot (qent 2 1 1) [0x42000000])) ∧
    (let s := qstate 0x42 1 []
     qslotAt (passStart s 3 2 1 9) (qKey 3 2 1) = some (qslot (qent 2 1 1) [0x42000000]) ∧ otherMembers s 3 2 (qent 2 1 1) = []) ∧
    (let s := qstate 0x42 2 [⟨3, 9, [7], false, [true]⟩]
     (qslotAt (passStart s 3 2 2 9) (qKey 3 2 2)).isSome = true ∧ (otherMembers s 3 2 (qent 2 2 2)).all (fun e => e.1 == 3) = true) ∧
    (otherMembers (qstate 0x42 2 []) 3 2 (qent 2 2 2) ≠ []) ∧
    (passScale (qslot (qent 2 1 1) [0x42000000]) 0 ≠ none ∧ passScale (qslot (qent 2 2 2) []) 0 = none) := by decide +kernel

def post2 : Post := ⟨3, 9, [5], false, [true]⟩
def posting : State :=
  { up with qslots := [(qKey 3 2 2, some { qslot (qent 2 2 2) [] with sent := [post2] }), (qKey 3 3 2, some (qslot (qent 3 2 2) []))] }
/-- The same from core 2 of die 1, with the links up and with none. -/
def farPosting (on : Bool) : State :=
  let s := { up with
    qslots := [(qKey 3 3 2, some (qslot (qent 3 2 2) [])), (qKey 3 18 2, some { qslot (qent 2 2 2) [] with sent := [post2] })] }
  if on then linked s else { linked s with links := (List.range 80).map fun k => (k, { Link.zero with st := 2 }) }
def postFrom (s : State) (src : Nat) : Option (Nat × Option QSlot) :=
  let isIt := fun (p : Post) => p.core == 3 && p.pass == 9 && p.amax == [5] && p.reset == false
  s.qslots.find? fun e => e.1 / 1024 % 256 == src && (match e.2 with
    | some q => q.sent.any isIt && (match qslotAt s (qKey (e.1 / 262144) 3 2) with
        | some r => r.cfg.group == q.cfg.group
        | none => false)
    | none => false)

theorem witness_VectorMemQuant_post :
    (Settled posting ∧ postFrom posting 2 = some (qKey 3 2 2, qslotAt posting (qKey 3 2 2)) ∧
      qKey (qKey 3 2 2 / 262144) 3 2 = qKey 3 3 2 ∧ (qslotAt posting (qKey 3 3 2)).isSome = true) ∧
    (∀ on ∈ [false, true], let s := farPosting on
      Settled s ∧ postFrom s 18 = some (qKey 3 18 2, qslotAt s (qKey 3 18 2)) ∧ (qslotAt s (qKey 3 3 2)).isSome = true ∧
        reaches s 1 (3 / 16) = true ∧ wayOpen s .ctrl 1 [3 / 16] = on) := by decide +kernel

/-! ### Actions, groups of several pages, and the further clauses of the statements above -/

/-- Entry 7 with an action and its argument, its firing due, before a unit's state. -/
def doing (action arg : Nat) (s : State) : State :=
  { rset s 0x10 0x40 1 with
    entries := [(7, { eEv with
      d3 := BitVec.ofNat 32 (action * 2 ^ 28 + arg), pend := some ⟨if action = 4 ∨ action = 6 then 1002000 else 1000000, false⟩ })] }
abbrev Due (s : State) : Prop :=
  Settled s ∧ tabOk (fun _ => Entry.zero) s.entries = true ∧ tabOk (fun _ => Ring.zero) s.rings = true ∧
    (match (entryAt s 7).pend with
     | some f => !f.late && !lateNow s (entryAt s 7) f && mayIssue s 7 f
     | none => false) = true ∧ s.pwr.d3off = false
def issued (s : State) : State := after (.actionIssue 7) s

/-- Sequence 5 of two slots, 3 and 4, with a DELAY of 100, and both converters enabled. -/
def seqOn : State := rset (rset (rset up 0x32 0x40 3) 0x32 0xC8 (put 31 16 100 ||| 2)) 0x32 0xCC 0x43
def convWith (f : Conv → Conv) : State := putConv seqOn 1 (f (convAt seqOn 1))

theorem witness_ActionIssues_sequences :
    (let s := doing 1 0x15 seqOn
     Due s ∧ (entryAt s 7).action = 1 ∧ seqChans s 5 = [3, 4] ∧ rbit s 0x32 0x40 1 = true ∧ (convAt s 1).reg.isNone = true ∧
       (convAt (issued s) 1).reg = some ⟨5, [3, 4], 1000100, false⟩) ∧
    (let s := doing 1 0x15 (convWith fun c => { c with reg := some seq5 })
     Due s ∧ (convAt s 1).reg.isSome = true ∧ (convAt s 1).regNext.isNone = true ∧
       (convAt (issued s) 1).regNext = some ⟨5, [3, 4], 1000100, false⟩) ∧
    (let s := doing 1 0x15 (convWith fun c => { c with reg := some seq5, regNext := some seq5 })
     Due s ∧ (convAt s 1).regNext.isSome = true ∧ convAt (issued s) 1 = convAt s 1 ∧ rget (issued s) 0x32 0x124 = 1) := by decide +kernel

theorem witness_ActionIssues_injected :
    (let s := doing 1 0x35 seqOn
     Due s ∧ bit (entryAt s 7).d3 5 = true ∧ (convAt s 1).inj.isNone = true ∧ (convAt (issued s) 1).inj.isSome = true) ∧
    (let s := doing 1 0x35 (convWith fun c => { c with inj := some seq5 })
     Due s ∧ (convAt s 1).inj.isSome = true ∧ (convAt s 1).injNext.isNone = true) ∧
    (let s := doing 1 0x35 (convWith fun c => { c with inj := some seq5, injNext := some seq5 })
     Due s ∧ (convAt s 1).injNext.isSome = true) := by decide +kernel

theorem witness_ActionIssues_outputs :
    (∀ s ∈ [doing 2 2 dacs, doing 2 2 ramping], Due s ∧ (entryAt s 7).action = 2 ∧ bit (entryAt s 7).d3 1 = true ∧
      rbit s 0x31 0x60 0 = true ∧ bit (entryAt s 7).d3 0 = false) ∧
    ((dacAt (doing 2 2 dacs) 1).ramp = none ∧ (dacAt (issued (doing 2 2 dacs)) 1).code = 800 ∧
      (dacAt (doing 2 2 ramping) 1).ramp.isSome = true ∧ (dacAt (issued (doing 2 2 ramping)) 1).held = true) ∧
    (let s := doing 3 (1 + 40 * 4) isuOn
     Due s ∧ (entryAt s 7).action = 3 ∧ s.isu.tripped = false ∧ rbit s 0x30 0x40 1 = true ∧ scanLow s = false ∧
       (stbAt s 1).high = false ∧ dutyFull s 1 = false ∧ (stbAt (issued s) 1).until_ = 1000040) ∧
    (let s := doing 3 (1 + 40 * 4) (strobing 1 1000010 999000 isuOn)
     Due s ∧ (stbAt s 1).high = true ∧ (stbAt (issued s) 1).until_ = 1000040) ∧
    (let s := doing 3 (1 + 40 * 4) (rset isuOn 0x30 0x40 0xD)
     Due s ∧ rbit s 0x30 0x40 1 = false ∧ rget (issued s) 0x30 0x78 = 1) ∧
    (let s := doing 3 (1 + 40 * 4) (modIsu isuOn fun i => { i with tripped := true })
     Due s ∧ s.isu.tripped = true) := by decide +kernel

def windowed : State := rset (rset up 0x13 0x58 0x00FF0003) 0x13 0x5C 9000

theorem witness_ActionIssues_units :
    (let s := doing 5 (0x300 + 9) up
     Due s ∧ (entryAt s 7).action = 5 ∧ (unitAt s 3).queue.length < 16 ∧ (unitAt (issued s) 3).queue = [(9, [])]) ∧
    (let s := doing 5 9 fullUnit
     Due s ∧ 16 ≤ (unitAt s 0).queue.length ∧ rget (issued s) 0x51 0x48 = 1) ∧
    (let s := doing 6 3 windowed
     Due s ∧ (entryAt s 7).action = 6 ∧ rfld s 0x13 0x5C 19 0 ≠ 0 ∧ rfld s 0x13 0x58 31 16 ≠ 0 ∧ bit (rget s 0x13 0x58) 1 = true ∧
       dieUp s 1 = true ∧ (winAt (issued s) 0).isSome = true) ∧
    (let s := doing 6 3 (rset windowed 0x13 0x58 0x00FF0000)
     Due s ∧ (∀ d, d < 16 → bit (rget s 0x13 0x58) d = true → dieUp s d = false) ∧ rget (issued s) 0x10 0x80 = 1) ∧
    ({ isuOn with pwr := { isuOn.pwr with d3off := true } }.pwr.d3off = true) := by decide +kernel

/-- Group 3 with PWR0 and CAL0 of die 0 as its members, CAL0 armed for the group, for another or for none. -/
def grouped (arm : W32) (x : Group) : State :=
  putGroup (rset (rset (rset up 0x40 0x30 0x80000003) (pgCal0 0) 0x30 arm) 0x40 0x844 1) 3 { x with members := [0x40, pgCal0 0] }

theorem witness_ActionIssues_commits :
    (let s := doing 4 3 (grouped 0x80000003 Group.zero)
     Due s ∧ (entryAt s 7).action = 4 ∧ (groupAt s 3).held.isNone = true ∧ (groupAt s 3).members ≠ [] ∧
       (∀ p ∈ (groupAt s 3).members, armedFor s 3 p = true) ∧ (groupAt (issued s) 3).held = some (1002000, .applied)) := by decide +kernel

theorem witness_ActionIssues_commits_refused :
    (let s := doing 4 3 (grouped 0 Group.zero)
     Due s ∧ (∃ p ∈ (groupAt s 3).members, armedFor s 3 p = false) ∧ (groupAt (issued s) 3).held = some (1002000, .refused)) ∧
    (let s := doing 4 3 up
     Due s ∧ (groupAt s 3).members = [] ∧ rfld s 0x13 0xCC 11 0 = 0 ∧ (groupAt (issued s) 3).held = some (1002000, .empty)) := by decide +kernel

theorem witness_ActionIssues_commits_other :
    (let s := doing 4 3 (rset up 0x13 0xCC 2)
     Due s ∧ (groupAt s 3).members = [] ∧ rfld s 0x13 0xCC 11 0 ≠ 0 ∧ (groupAt (issued s) 3).held = some (1002000, .refused)) ∧
    (let s := doing 4 3 (grouped 0x80000003 { Group.zero with held := some (5, .empty) })
     Due s ∧ (groupAt s 3).held = some (5, .empty) ∧ (groupAt (issued s) 3).after = [1002000]) := by decide +kernel

theorem witness_CommitAppliesOrRefuses_members :
    (∀ v ∈ [Verdict.applied, .refused, .empty],
      let s := grouped 0x80000003 { Group.zero with held := some (1000000, v), after := [1000007] }
      Settled s ∧ (groupAt s 3).held = some (1000000, v) ∧ 1000000 ≤ s.belv.tb ∧ (0x40 : Nat) ∈ (groupAt s 3).members) ∧
    (let s := grouped 0x80000003 Group.zero
     armedFor s 3 0x40 = true ∧ armedFor s 3 (pgCal0 0) = true ∧ pageReach s (pgCal0 0) = .ok) ∧
    armedFor (grouped 0x80000004 Group.zero) 3 (pgCal0 0) = false := by decide +kernel

def noClock (r : Option Supply) : State := { full with pwr := { full.pwr with noClk := true, resetBy := r } }

theorem witness_Supplies_hold :
    (Settled (noClock none) ∧ (noClock none).pwr.noClk = true ∧ (noClock none).pwr.resetBy = none) ∧
    (Settled (noClock (some .vio)) ∧ (noClock (some .vio)).pwr.noClk = true ∧ (noClock (some .vio)).pwr.resetBy.isSome = true) ∧
    full.pwr.noClk = false ∧ supplyPlace .vaux = .inl 0 ∧
    (∀ x ∈ [{ dieAt full 1 with st := DieSt.supplyReset, up := false, online := false },
            { dieAt full 1 with st := .on, up := false }],
      let s := putDie full 1 x
      Settled s ∧ 1 < s.part.member.dies ∧ s.boot.safe = false ∧ s.boot.ready = true ∧ diesOn s = true ∧ (dieAt s 1).up = false ∧
        ((dieAt s 1).st = .supplyReset ∧ (dieAt s 1).warn = 0 ∨ (dieAt s 1).st = .on ∧ ((dieAt s 1).fell = true → (dieAt s 1).warn = 0)) ∧
        (tryImage s (running s) true).1 = true) ∧
    (∀ n ∈ [3, 7], let s := starting n
      stepReady s s.boot.begun = true ∧ safeStart s = false ∧ (tryImage s (imageOf s s.nv.prefer) false).1 = true ∧
        (tryImage s (running s) true).1 = true) := by decide +kernel

theorem witness_TestPortAndErrors_port :
    (Settled keyed ∧ keyed.sec.level ≠ 0 ∧ up.sec.level = 0 ∧ inVigil full = false ∧ inVigil (starting 3) = false) ∧
    (let s := { full with bus := { full.bus with flr := true } }
     s.bus.perst = false ∧ s.pwr.held = false ∧ inVigil s = false ∧ s.bus.flr = true) := by decide +kernel

theorem witness_SecurityAndDebug_busy :
    (let s := { keyed with sec := { keyed.sec with busy := true } }
     Settled s ∧ answers s 0x03 = true ∧ s.sec.busy = true) ∧ keyed.sec.busy = false := by decide +kernel

theorem witness_CameraFrames_stripe :
    let s := linked (modStream (opened 3 true) 3 fun x => { x with due := [dueStripe] })
    (dueStripe.bound.any fun e => stripeHeld s 3 dueStripe e.1 e.2) = false := by decide +kernel

theorem witness_clocks :
    coreClocks (fetching [] true []) = true ∧ coreClocks (claiming 2 Ctr.zero) = true ∧ coreClocks (working stepRun Core.zero) = true ∧
      coreClocks (delivering 5 true true) = true ∧ coreClocks (vstate vcore 0 vf0) = true ∧ coreClocks (qstate 0x41 1 []) = true := by
  decide +kernel

end Sys2Proof.Tests
end

section
/-! The frame of the whole machine. `held` is what only a store of bytes or a reset can touch; a function of the model that does
neither leaves it as it is, and one that does keeps the part, the queue and the form of the byte stores (`Held.Keeps`). One rule
for each function, in the order of the model; what every command does (R48, logs 7 and 8) follows at the end. -/

namespace Sys2Proof.Laws

open Sys2Proof Sys2Proof.Machine

/-! ### What is held -/

/-- What no command but a store of bytes or a reset touches: the part, the queue and the five byte stores. -/
structure Held where
  part : Part
  pending : List Instr
  hostMem : Tab Byte
  pkgMem : Tab Byte
  coreMem : Tab Byte
  weights : Tab Byte
  ingest : Tab Byte

def held (s : State) : Held := ⟨s.part, s.pending, s.hostMem, s.pkgMem, s.coreMem, s.weights, s.ingest⟩

@[simp] theorem held_ite (c : Prop) [Decidable c] (s t : State) :
    held (if c then s else t) = if c then held s else held t := apply_ite held c s t

theorem held_of_ite {c : Prop} [Decidable c] {s t : State} {x : Held} (hs : held s = x) (ht : held t = x) :
    held (if c then s else t) = x := by
  rw [held_ite, hs, ht, ite_self]

@[simp] theorem held_foldl {α : Type} (l : List α) (f : State → α → State) (h : ∀ s a, held (f s a) = held s) (s : State) :
    held (l.foldl f s) = held s := by
  induction l generalizing s with
  | nil => rfl
  | cons a l ih => rw [List.foldl_cons, ih, h]

theorem held_foldl_fst {α β : Type} (l : List α) (f : State × β → α → State × β)
    (h : ∀ r a, held (f r a).1 = held r.1) (r : State × β) : held (l.foldl f r).1 = held r.1 := by
  induction l generalizing r with
  | nil => rfl
  | cons a l ih => rw [List.foldl_cons, ih, h]

/-- What every step of a fold of partial steps keeps holds of the outcome. -/
theorem foldl_some_inv {α σ : Type} (P : σ → Prop) (l : List α) (f : Option σ → α → Option σ)
    (hn : ∀ a, f none a = none) (h : ∀ u a v, P u → f (some u) a = some v → P v) {s t : σ} (hs : P s)
      (ht : l.foldl f (some s) = some t) : P t := by
  induction l generalizing s with
  | nil => exact Option.some.inj ht ▸ hs
  | cons a l ih =>
    rw [List.foldl_cons] at ht
    cases hf : f (some s) a with
    | none =>
      rw [hf, List.foldl_fixed' hn] at ht
      cases ht
    | some v => exact ih (h s a v hs hf) (hf ▸ ht)

/-- An update of any other fields leaves what is held: a pattern for every `{ s with … }` of the model. -/
@[simp] theorem held_update (s : State) (regs hiShadow loStage evq bus belv entries groups wins nextWin streams lp11 rings rr
    reqs nextReq launches taskRuns sums slots prov epoch suspended applied staging engines plates banks slc retain dies cores
    progs qslots ctrs runs nextRun feeds slow links xfers nextXfer flows landing flitAt poison scrubAt units tpls isu pwr otp nv
    sec boot tap free) :
        held ⟨s.part, regs, hiShadow, loStage, evq, bus, belv, entries, groups, wins, nextWin, streams, lp11, s.ingest, rings,
      rr, reqs, nextReq, launches, taskRuns, sums, s.hostMem, slots, prov, epoch, suspended, applied, staging, engines, plates,
      s.weights, banks, slc, retain, dies, cores, s.coreMem, progs, qslots, ctrs, runs, nextRun, feeds, slow, links, xfers,
      nextXfer, flows, landing, flitAt, s.pkgMem, poison, scrubAt, units, tpls, isu, pwr, otp, nv, sec, boot, tap, free,
      s.pending⟩ = held s := by
  simp only [held]

section

variable (s : State)

/-! ### Ops -/

@[simp] theorem held_rset (p off : Nat) (v : W32) : held (rset s p off v) = held s := by simp [rset]
@[simp] theorem held_rset64 (p off v : Nat) : held (rset64 s p off v) = held s := by simp [rset64]
@[simp] theorem held_count (p off n : Nat) : held (count s p off n) = held s := by simp [count]
@[simp] theorem held_count64 (p off n : Nat) : held (count64 s p off n) = held s := by simp [count64]
@[simp] theorem held_ev (p b code : Nat) : held (ev s p b code) = held s := by simp [ev]
@[simp] theorem held_settlePage (p : Nat) (es : List Ev) : held (settlePage s p es) = held s := by simp [settlePage]
@[simp] theorem held_putDie (d : Nat) (v : Die) : held (putDie s d v) = held s := by simp [putDie]
@[simp] theorem held_putEng (e : Nat) (v : Engine) : held (putEng s e v) = held s := by simp [putEng]
@[simp] theorem held_mapEngines (p : Nat → Bool) (f : Engine → Engine) : held (mapEngines s p f) = held s := by simp [mapEngines]
@[simp] theorem held_putUnit (u : Nat) (v : SilUnit) : held (putUnit s u v) = held s := by simp [putUnit]
@[simp] theorem held_imageWritten (space die : Nat) : held (imageWritten s space die) = held s := by simp [imageWritten]
@[simp] theorem held_putPlate (p : Nat) (v : Plate) : held (putPlate s p v) = held s := by simp [putPlate]
@[simp] theorem held_putBank (b : Nat) (v : Bank) : held (putBank s b v) = held s := by simp [putBank]
@[simp] theorem held_putCore (c : Nat) (v : Core) : held (putCore s c v) = held s := by simp [putCore]
@[simp] theorem held_putQSlot (k : Nat) (v : Option QSlot) : held (putQSlot s k v) = held s := by simp [putQSlot]
@[simp] theorem held_putCtr (k : Nat) (v : Ctr) : held (putCtr s k v) = held s := by simp [putCtr]
@[simp] theorem held_putRun (r : Nat) (v : Option Run) : held (putRun s r v) = held s := by simp [putRun]
@[simp] theorem held_putRing (n : Nat) (v : Ring) : held (putRing s n v) = held s := by simp [putRing]
@[simp] theorem held_putReq (r : Nat) (v : Option Req) : held (putReq s r v) = held s := by simp [putReq]
@[simp] theorem held_mapReqs (f : Req → Req) : held (mapReqs s f) = held s := by simp [mapReqs]
@[simp] theorem held_putSlot (k : Nat) (v : Slot) : held (putSlot s k v) = held s := by simp [putSlot]
@[simp] theorem held_putEntry (n : Nat) (v : Entry) : held (putEntry s n v) = held s := by simp [putEntry]
@[simp] theorem held_putGroup (g : Nat) (v : Group) : held (putGroup s g v) = held s := by simp [putGroup]
@[simp] theorem held_putWin (w : Nat) (v : Option Window) : held (putWin s w v) = held s := by simp [putWin]
@[simp] theorem held_putStream (n : Nat) (v : Stream) : held (putStream s n v) = held s := by simp [putStream]
@[simp] theorem held_putLink (l : Nat) (v : Link) : held (putLink s l v) = held s := by simp [putLink]
@[simp] theorem held_putTpl (n : Nat) (v : Tpl) : held (putTpl s n v) = held s := by simp [putTpl]
@[simp] theorem held_putXfer (x : Nat) (v : Option Xfer) : held (putXfer s x v) = held s := by simp [putXfer]
@[simp] theorem held_drawFree : held (drawFree s).2 = held s := by simp [drawFree]
@[simp] theorem held_answer (c : Cpl) (l : List W32) : held (answer s c l) = held s := by simp [answer]

@[simp] theorem held_settle : held (settle s) = held s := by simp [held]

/-! ### Clock -/

@[simp] theorem held_modBelv (f : Belv → Belv) : held (modBelv s f) = held s := by simp [modBelv]
@[simp] theorem held_tick : held (tick s) = held s := by simp [tick]
@[simp] theorem held_moveInstants (m : Nat → Nat) (b : Int → Int) : held (moveInstants s m b) = held s := by simp [moveInstants]
@[simp] theorem held_restartIntervals : held (restartIntervals s) = held s := by simp [restartIntervals]
@[simp] theorem held_loadTb (v : Nat) : held (loadTb s v) = held s := by simp [loadTb]
@[simp] theorem held_tbSet (v : Nat) : held (tbSet s v) = held s := by simp [tbSet]

@[simp] theorem held_correct (o : Int) : held (correct s o) = held s := by
  unfold correct
  split <;> simp

@[simp] theorem held_correctTo (target : Nat) : held (correctTo s target) = held s := by simp [correctTo]
@[simp] theorem held_ptmRequestOp : held (ptmRequestOp s) = held s := by simp [ptmRequestOp]
@[simp] theorem held_ptmResponseOp (master : Nat) : held (ptmResponseOp s master) = held s := by simp [ptmResponseOp]
@[simp] theorem held_ppsEdgeOp : held (ppsEdgeOp s) = held s := by simp [ppsEdgeOp]
@[simp] theorem held_holdoverOp : held (holdoverOp s) = held s := by simp [holdoverOp]
@[simp] theorem held_tbOutRiseOp : held (tbOutRiseOp s) = held s := by simp [tbOutRiseOp]
@[simp] theorem held_tbOutFallOp : held (tbOutFallOp s) = held s := by simp [tbOutFallOp]
@[simp] theorem held_srcChanged (src : Nat) : held (srcChanged s src) = held s := by simp [srcChanged]

/-! ### Launch -/

@[simp] theorem held_fireEntry (n t : Nat) : held (fireEntry s n t) = held s := by
  unfold fireEntry
  dsimp only
  (repeat' split) <;> simp

@[simp] theorem held_fireWhere (p : Entry → Bool) (t : Nat) : held (fireWhere s p t) = held s := by simp [fireWhere]
@[simp] theorem held_triggerLine (stream l f t : Nat) : held (triggerLine s stream l f t) = held s := by simp [triggerLine]

@[simp] theorem held_triggerFrameEnd (stream f t : Nat) : held (triggerFrameEnd s stream f t) = held s := by
  simp [triggerFrameEnd]

@[simp] theorem held_triggerStrobe (out : Nat) (falling : Bool) (t : Nat) :
    held (triggerStrobe s out falling t) = held s := by simp [triggerStrobe]

@[simp] theorem held_triggerChain (n t : Nat) : held (triggerChain s n t) = held s := by simp [triggerChain]
@[simp] theorem held_atTriggerOp (n : Nat) : held (atTriggerOp s n) = held s := by simp [atTriggerOp]
@[simp] theorem held_everyTriggerOp (n : Nat) : held (everyTriggerOp s n) = held s := by simp [everyTriggerOp]

@[simp] theorem held_judgeLate (n : Nat) : held (judgeLate s n) = held s := by
  unfold judgeLate
  dsimp only
  (repeat' split) <;> simp

@[simp] theorem held_lateJudgementOp (n : Nat) : held (lateJudgementOp s n) = held s := by simp [lateJudgementOp]
@[simp] theorem held_takeIssue (n : Nat) (f : Firing) : held (takeIssue s n f) = held s := by simp [takeIssue]
@[simp] theorem held_noEffect (n : Nat) : held (noEffect s n) = held s := by simp [noEffect]
@[simp] theorem held_discardAll : held (discardAll s) = held s := by simp [discardAll]
@[simp] theorem held_ltEnChanged (old new : Bool) : held (ltEnChanged s old new) = held s := by simp [ltEnChanged]
@[simp] theorem held_ltSnapshot : held (ltSnapshot s) = held s := by simp [ltSnapshot]
@[simp] theorem held_discardPend (n : Nat) : held (discardPend s n) = held s := by simp [discardPend]
@[simp] theorem held_ltWrite : held (ltWrite s) = held s := by simp [ltWrite]
@[simp] theorem held_ltCmd (w : W32) : held (ltCmd s w) = held s := by simp [ltCmd]
@[simp] theorem held_entryUeOp (n : Nat) : held (entryUeOp s n) = held s := by simp [entryUeOp]
@[simp] theorem held_resumeLaunch : held (resumeLaunch s) = held s := by simp [resumeLaunch]
@[simp] theorem held_stopLaunch : held (stopLaunch s) = held s := by simp [stopLaunch]

/-! ### Rings -/

@[simp] theorem held_hskSelect (v : Nat) : held (hskSelect s v) = held s := by simp [hskSelect]
@[simp] theorem held_hskFeat (sel : Nat) : held (hskFeat s sel) = held s := by simp [hskFeat]
@[simp] theorem held_rgSet (n o : Nat) (v : W32) : held (rgSet s n o v) = held s := by simp [rgSet]
@[simp] theorem held_ringCfgWrite (n o : Nat) (w : W32) : held (ringCfgWrite s n o w) = held s := by simp [ringCfgWrite]
@[simp] theorem held_ringCfgWrite64 (n o v : Nat) : held (ringCfgWrite64 s n o v) = held s := by simp [ringCfgWrite64]
@[simp] theorem held_ringDrainedOp (n : Nat) : held (ringDrainedOp s n) = held s := by simp [ringDrainedOp]

@[simp] theorem held_stallCheck (n : Nat) : held (stallCheck s n) = held s := by
  unfold stallCheck
  dsimp only
  (repeat' split) <;> simp

@[simp] theorem held_doorbell (n : Nat) (v : W64) : held (doorbell s n v) = held s := by simp [doorbell]

@[simp] theorem held_descriptorReadOp (n : Nat) : held (descriptorReadOp s n) = held s := by
  unfold descriptorReadOp
  dsimp only
  (repeat' split) <;> simp

@[simp] theorem held_ringRelease (n cnt : Nat) (late : Bool) : held (ringRelease s n cnt late) = held s := by simp [ringRelease]
@[simp] theorem held_meetGates (n : Nat) (late : Bool) : held (meetGates s n late) = held s := by simp [meetGates]

@[simp] theorem held_descriptorReadyOp (n : Nat) : held (descriptorReadyOp s n) = held s := by
  unfold descriptorReadyOp
  dsimp only
  (repeat' split) <;> simp

@[simp] theorem held_modReq (id : Nat) (f : Req → Req) : held (modReq s id f) = held s := by
  unfold modReq
  split <;> simp

@[simp] theorem held_finishReq (id : Nat) : held (finishReq s id) = held s := by simp [finishReq]
@[simp] theorem held_setStatus (id code : Nat) : held (setStatus s id code) = held s := by simp [setStatus]
@[simp] theorem held_refuseReq (id code detail : Nat) : held (refuseReq s id code detail) = held s := by simp [refuseReq]
@[simp] theorem held_refuseRange (id ring : Nat) : held (refuseRange s id ring) = held s := by simp [refuseRange]
@[simp] theorem held_noteOut (id a : Nat) (l : List Byte) : held (noteOut s id a l) = held s := by simp [noteOut]

@[simp] theorem held_dispatchOp : held (dispatchOp s) = held s := by
  unfold dispatchOp
  dsimp only
  (repeat' split) <;> simp

@[simp] theorem held_nopOp (id : Nat) : held (nopOp s id) = held s := by
  unfold nopOp
  split <;> simp

@[simp] theorem held_fenceOp (id : Nat) : held (fenceOp s id) = held s := by
  unfold fenceOp
  split <;> simp

@[simp] theorem held_deadlineMissOp (r : ReqRef) : held (deadlineMissOp s r) = held s := by
  unfold deadlineMissOp
  dsimp only
  (repeat' split) <;> simp

@[simp] theorem held_sumBase (v : Nat) : held (sumBase s v) = held s := by simp [sumBase]

/-! ### Flags -/

@[simp] theorem held_setQual (id b : Nat) : held (setQual s id b) = held s := by simp [setQual]
@[simp] theorem held_dieFlags (id d : Nat) : held (dieFlags s id d) = held s := by simp [dieFlags]
@[simp] theorem held_addSat (id n : Nat) : held (addSat s id n) = held s := by simp [addSat]
@[simp] theorem held_addRepeat (id n : Nat) : held (addRepeat s id n) = held s := by simp [addRepeat]

/-! ### Trellis -/

@[simp] theorem held_setLink (d port : Nat) (f : Link → Link) : held (setLink s d port f) = held s := by simp [setLink]
@[simp] theorem held_trainLinks (there : Nat → Bool) (d : Nat) : held (trainLinks s there d) = held s := by simp [trainLinks]
@[simp] theorem held_dropLinks (d : Nat) : held (dropLinks s d) = held s := by simp [dropLinks]
@[simp] theorem held_fabricCycle : held (fabricCycle s) = held s := by simp [fabricCycle]

@[simp] theorem held_addFlow (c : Cls) (src : Nat) (dests : List Nat) (flits : Nat) (xfer : Option Nat) :
    held (addFlow s c src dests flits xfer) = held s := by simp [addFlow]

@[simp] theorem held_discardPackets (dests : List Nat) (flits : Nat) : held (discardPackets s dests flits) = held s := by
  unfold discardPackets
  split <;> simp

@[simp] theorem held_sendPackets (c : Cls) (src : Nat) (dests : List Nat) (flits : Nat) :
    held (sendPackets s c src dests flits) = held s := by simp [sendPackets]

@[simp] theorem held_sendXfer (src : Nat) (dests : List Nat) (req : Option Nat) (bytes : Nat) :
    held (sendXfer s src dests req bytes) = held s := by simp [sendXfer]

@[simp] theorem held_transferAckOp (x d : Nat) : held (transferAckOp s x d) = held s := by
  unfold transferAckOp
  split <;> simp

@[simp] theorem held_pruneLanding : held (pruneLanding s) = held s := by simp [pruneLanding]
@[simp] theorem held_reroute : held (reroute s) = held s := by simp [reroute]
@[simp] theorem held_dropFlows (d : Nat) : held (dropFlows s d) = held s := by simp [dropFlows]
@[simp] theorem held_tbSyncOp (skews : List Int) : held (tbSyncOp s skews) = held s := by simp [tbSyncOp]
@[simp] theorem held_trlSnapshot : held (trlSnapshot s) = held s := by simp [trlSnapshot]

/-! ### Work -/

@[simp] theorem held_modRun (r : Nat) (f : Run → Run) : held (modRun s r f) = held s := by
  unfold modRun
  split <;> simp

@[simp] theorem held_modCore (c : Nat) (f : Core → Core) : held (modCore s c f) = held s := by simp [modCore]
@[simp] theorem held_slowReady (r mb : Nat) : held (slowReady s r mb) = held s := by simp [slowReady]
@[simp] theorem held_landTo (w : Run) (mb n : Nat) : held (landTo s w mb n) = held s := by simp [landTo]
@[simp] theorem held_landTile (w : Run) (mb : Nat) : held (landTile s w mb) = held s := by simp [landTile]
@[simp] theorem held_freeSlot (w : Run) (mb : Nat) : held (freeSlot s w mb) = held s := by simp [freeSlot]

@[simp] theorem held_takeFeed (f : Feed) (id : Nat) : held (takeFeed s f id) = held s := by
  unfold takeFeed
  dsimp only
  (repeat' split) <;> simp

@[simp] theorem held_newFeed (f : Feed) : held (newFeed s f) = held s := by
  unfold newFeed
  dsimp only
  (repeat' split) <;> simp

@[simp] theorem held_pruneFeeds : held (pruneFeeds s) = held s := by simp [pruneFeeds]
@[simp] theorem held_freeTilesOf (ids : List Nat) : held (freeTilesOf s ids) = held s := by simp [freeTilesOf]

@[simp] theorem held_exhaustCtrs (id : Nat) : held (exhaustCtrs s id) = held s := by
  unfold exhaustCtrs
  split
  · rfl
  · refine held_foldl _ _ (fun t a => ?_) _
    split <;> simp

@[simp] theorem held_dropWork (id : Nat) : held (dropWork s id) = held s := by simp [dropWork]

@[simp] theorem held_failReq (id code : Nat) : held (failReq s id code) = held s := by
  unfold failReq
  split <;> simp

@[simp] theorem held_checkDone (id : Nat) : held (checkDone s id) = held s := by
  unfold checkDone
  split <;> simp

@[simp] theorem held_loseFeed (slot layer src key : Nat) : held (loseFeed s slot layer src key) = held s := by
  unfold loseFeed
  dsimp only
  (repeat' split) <;> simp

@[simp] theorem held_loseCargo (c : Cargo) : held (loseCargo s c) = held s := by
  unfold loseCargo
  split <;> simp

/-! ### Cores -/

@[simp] theorem held_claimReply (w : Run) (served : Bool) : held (claimReply s w served) = held s := by simp [claimReply]

@[simp] theorem held_claimOp (r scope : Nat) : held (claimOp s r scope) = held s := by
  unfold claimOp
  split
  · rfl
  · dsimp only
    split
    · generalize Ctr.claim _ _ _ _ = x
      obtain ⟨c, a⟩ := x
      cases a <;> simp
    · rfl

@[simp] theorem held_rowBroadcastOp (r row ks : Nat) : held (rowBroadcastOp s r row ks) = held s := by
  unfold rowBroadcastOp
  split <;> simp

@[simp] theorem held_tileQueueOp (c t : Nat) : held (tileQueueOp s c t) = held s := by
  unfold tileQueueOp
  dsimp only
  (repeat' split) <;> simp

@[simp] theorem held_progFault (c pc : Nat) : held (progFault s c pc) = held s := by
  unfold progFault
  dsimp only
  (repeat' split) <;> simp

@[simp] theorem held_startProg (c : Nat) (v : VRun) (sc : Tab W32) (m1 : W64) : held (startProg s c v sc m1) = held s := by
  simp [startProg]

@[simp] theorem held_startWaits (w : Run) (c : Nat) (ns : List Nat) : held (startWaits s w c ns) = held s := by
  unfold startWaits
  refine held_foldl _ _ (fun t a => ?_) _
  dsimp only
  split
  · rfl
  · simp

@[simp] theorem held_waitTiles (c : Nat) (ts : List Nat) : held (waitTiles s c ts) = held s := by
  unfold waitTiles
  refine held_foldl _ _ (fun t a => ?_) _
  split <;> simp

@[simp] theorem held_drainRowOp (c : Nat) : held (drainRowOp s c) = held s := by
  unfold drainRowOp
  dsimp only
  (repeat' split) <;> simp

@[simp] theorem held_endProgOp (r c : Nat) : held (endProgOp s r c) = held s := by
  unfold endProgOp
  dsimp only
  (repeat' split) <;> simp

@[simp] theorem held_releaseTile (c : Nat) (x : Tile) (w : Run) : held (releaseTile s c x w) = held s := by simp [releaseTile]
@[simp] theorem held_releaseHeld (c : Nat) : held (releaseHeld s c) = held s := by simp [releaseHeld]

@[simp] theorem held_sramEccOp (c a : Nat) (corrected : Bool) (req : Option Nat) :
    held (sramEccOp s c a corrected req) = held s := by
  unfold sramEccOp
  (repeat' split) <;> simp

@[simp] theorem held_clocked {s t : State} (h : held t = held s) : held (clocked s t) = held s := by simp [clocked, h]

/-! ### Engine -/

@[simp] theorem held_modEng (e : Nat) (f : Engine → Engine) : held (modEng s e f) = held s := by simp [modEng]
@[simp] theorem held_takeSlot (d : Nat) : held (takeSlot s d) = held s := by simp [takeSlot]
@[simp] theorem held_noteWait (d : Nat) : held (noteWait s d) = held s := by simp [noteWait]
@[simp] theorem held_chargeWrite (k : Nat) : held (chargeWrite s k) = held s := by simp [chargeWrite]

@[simp] theorem held_onReq (r : Option Nat) (f : State → Nat → State) (h : ∀ id, held (f s id) = held s) :
    held (onReq s r f) = held s := by
  unfold onReq
  split
  · exact h _
  · rfl

@[simp] theorem held_openStep (k : Nat) (x : Step) : held (openStep s k x).1 = held s := by simp [openStep]

@[simp] theorem held_beginRead (k pid : Nat) (p : PartSt) (x : Step) : held (beginRead s k pid p x) = held s := by
  simp [beginRead]

@[simp] theorem held_judgeStale (k : Nat) : held (judgeStale s k) = held s := by simp [judgeStale]
@[simp] theorem held_judgeRest (d : Nat) : held (judgeRest s d) = held s := by simp [judgeRest]
@[simp] theorem held_markDue (k : Nat) (c : Cause) : held (markDue s k c) = held s := by simp [markDue]
@[simp] theorem held_blockEnd (k j lim : Nat) : held (blockEnd s k j lim) = held s := by simp [blockEnd]

@[simp] theorem held_countChecks (k lim : Nat) (fails : List Bool) : held (countChecks s k lim fails) = held s := by
  simp [countChecks]

@[simp] theorem held_confidenceOp (k : Nat) (errs : List Int) : held (confidenceOp s k errs) = held s := by
  unfold confidenceOp
  dsimp only
  (repeat' split) <;> simp

@[simp] theorem held_replacePart (k pid : Nat) (p : PartSt) (new : List PartSt) :
    held (replacePart s k pid p new) = held s := by simp [replacePart]

/-! ### Calib -/

@[simp] theorem held_chargeCal (k : Nat) : held (chargeCal s k) = held s := by
  unfold chargeCal
  dsimp only
  (repeat' split) <;> simp

@[simp] theorem held_chargeCals : held (chargeCals s) = held s := by simp [chargeCals]

@[simp] theorem held_beginCal (k : Nat) : held (beginCal s k) = held s := by
  unfold beginCal
  split <;> simp

@[simp] theorem held_tryCal (k : Nat) : held (tryCal s k).1 = held s := by
  unfold tryCal
  dsimp only
  (repeat' split) <;> simp

@[simp] theorem held_tryCals (l : List Nat) : held (tryCals s l).1 = held s := by
  unfold tryCals
  refine held_foldl_fst _ _ (fun r k => ?_) _
  exact held_tryCal r.1 k

@[simp] theorem held_openWindow (n : Nat) : held (openWindow s n) = held s := by
  unfold openWindow
  dsimp only
  (repeat' split) <;> simp

@[simp] theorem held_retryCals (d : Nat) : held (retryCals s d) = held s := by
  unfold retryCals
  refine held_foldl _ _ (fun t a => ?_) _
  split
  · split <;> simp
  · rfl

@[simp] theorem held_grantCal (k left : Nat) : held (grantCal s k left).1 = held s := by
  unfold grantCal
  dsimp only
  (repeat' split) <;> simp

@[simp] theorem held_grantCals (d : Nat) : held (grantCals s d) = held s := by
  unfold grantCals
  dsimp only
  split
  · rfl
  · exact held_foldl_fst _ _ (fun r k => held_grantCal r.1 k r.2) _

@[simp] theorem held_governorTickOp (d : Nat) : held (governorTickOp s d) = held s := by simp [governorTickOp]

@[simp] theorem held_calibrateDone (id : Nat) : held (calibrateDone s id) = held s := by
  unfold calibrateDone
  split <;> simp

@[simp] theorem held_serveCalibrate (k from_ : Nat) : held (serveCalibrate s k from_) = held s := by simp [serveCalibrate]
@[simp] theorem held_dropDue (k : Nat) : held (dropDue s k) = held s := by simp [dropDue]

@[simp] theorem held_dueAgain (k : Nat) : held (dueAgain s k) = held s := by
  unfold dueAgain
  dsimp only
  (repeat' split) <;> simp

@[simp] theorem held_engineCalEndOp (k : Nat) (groups : List CalMeas) : held (engineCalEndOp s k groups) = held s := by
  unfold engineCalEndOp
  dsimp only
  (repeat' split) <;> simp

@[simp] theorem held_judgeCauses (k : Nat) : held (judgeCauses s k) = held s := by simp [judgeCauses]
@[simp] theorem held_calRound (d : Nat) : held (calRound s d) = held s := by simp [calRound]
@[simp] theorem held_saveCoefs (d : Nat) : held (saveCoefs s d) = held s := by simp [saveCoefs]
@[simp] theorem held_calCoefSaveOp (d : Nat) : held (calCoefSaveOp s d) = held s := by simp [calCoefSaveOp]
@[simp] theorem held_dueBringUp (k : Nat) (never : Bool) : held (dueBringUp s k never) = held s := by simp [dueBringUp]
@[simp] theorem held_loadCoefs (d : Nat) (t : Tab Saved) : held (loadCoefs s d t) = held s := by simp [loadCoefs]
@[simp] theorem held_implicitWindow (d : Nat) (t : Tab Saved) : held (implicitWindow s d t) = held s := by simp [implicitWindow]

@[simp] theorem held_calibrateOp (id : Nat) : held (calibrateOp s id) = held s := by
  unfold calibrateOp
  split <;> simp

@[simp] theorem held_calSnapshot (d : Nat) : held (calSnapshot s d) = held s := by simp [calSnapshot]

/-! ### Plates -/

@[simp] theorem held_chargeBank (b n : Nat) (f : Bank → Bank) : held (chargeBank s b n f) = held s := by simp [chargeBank]
@[simp] theorem held_chargeErase (k : Nat) (j : Job) : held (chargeErase s k j) = held s := by simp [chargeErase]
@[simp] theorem held_chargeTouch (k : Nat) (j : Job) : held (chargeTouch s k j) = held s := by simp [chargeTouch]
@[simp] theorem held_queueProgram (k : Nat) (j : Job) : held (queueProgram s k j) = held s := by simp [queueProgram]
@[simp] theorem held_queueTouch (k : Nat) (j : Job) : held (queueTouch s k j) = held s := by simp [queueTouch]

@[simp] theorem held_modShard (slot shard : Nat) (f : ShardSt → ShardSt) : held (modShard s slot shard f) = held s := by
  simp [modShard]

@[simp] theorem held_programFail (d slot shard : Nat) : held (programFail s d slot shard) = held s := by simp [programFail]
@[simp] theorem held_setTodo (d : Nat) (l again : List Nat) : held (setTodo s d l again) = held s := by simp [setTodo]
@[simp] theorem held_reexamine (d slot shard : Nat) : held (reexamine s d slot shard) = held s := by simp [reexamine]
@[simp] theorem held_modSweep (d : Nat) (f : Sweep → Sweep) : held (modSweep s d f) = held s := by simp [modSweep]

@[simp] theorem held_sweepServe (d : Nat) : held (sweepServe s d) = held s := by
  unfold sweepServe
  refine (held_foldl _ _ (fun t a => ?_) _).trans (held_mapReqs _ _)
  split <;> simp

@[simp] theorem held_endPass (d : Nat) : held (endPass s d) = held s := by simp [endPass]

@[simp] theorem held_leaveSweep (d slot shard : Nat) (ks : List Nat) : held (leaveSweep s d slot shard ks) = held s := by
  simp [leaveSweep]

@[simp] theorem held_selectPlate (k p : Nat) : held (selectPlate s k p) = held s := by simp [selectPlate]
@[simp] theorem held_beginProgram (k : Nat) (j : Job) : held (beginProgram s k j) = held s := by simp [beginProgram]
@[simp] theorem held_beginTouch (k : Nat) (j : Job) : held (beginTouch s k j) = held s := by simp [beginTouch]

@[simp] theorem held_programBeginOp (k : Nat) : held (programBeginOp s k) = held s := by
  unfold programBeginOp
  dsimp only
  (repeat' split) <;> simp

@[simp] theorem held_markBad (k : Nat) (j : Job) : held (markBad s k j) = held s := by
  unfold markBad
  dsimp only
  (repeat' split) <;> simp

@[simp] theorem held_repairDone (d slot shard tag : Nat) : held (repairDone s d slot shard tag) = held s := by simp [repairDone]
@[simp] theorem held_reverify (k : Nat) (g : Prog) (lv : List Int) : held (reverify s k g lv) = held s := by simp [reverify]

@[simp] theorem held_abortOp (k : Nat) : held (abortOp s k) = held s := by
  unfold abortOp
  dsimp only
  (repeat' split) <;> simp

@[simp] theorem held_abortOps (d : Nat) : held (abortOps s d) = held s := by simp [abortOps]

@[simp] theorem held_cutTouches (l : List (Nat × Engine)) : held (cutTouches s l) = held s := by
  unfold cutTouches
  refine held_foldl _ _ (fun t a => ?_) _
  split <;> simp

@[simp] theorem held_restorePlates (d : Nat) : held (restorePlates s d) = held s := by simp [restorePlates]
@[simp] theorem held_wearSnapshot (d : Nat) : held (wearSnapshot s d) = held s := by simp [wearSnapshot]
@[simp] theorem held_plmSnapshot (d : Nat) : held (plmSnapshot s d) = held s := by simp [plmSnapshot]

/-! ### Sweep -/

@[simp] theorem held_cutPass (d : Nat) : held (cutPass s d) = held s := by simp [cutPass]
@[simp] theorem held_startPass (d cause : Nat) : held (startPass s d cause) = held s := by simp [startPass]
@[simp] theorem held_sweepIntervalOp (d : Nat) : held (sweepIntervalOp s d) = held s := by simp [sweepIntervalOp]

@[simp] theorem held_verifySweepOp (id : Nat) : held (verifySweepOp s id) = held s := by
  unfold verifySweepOp
  dsimp only
  (repeat' split) <;> simp

@[simp] theorem held_setReplica (l : List Nat) (st : PlateSt) : held (setReplica s l st) = held s := by simp [setReplica]

@[simp] theorem held_queueTouches (d : Nat) (l : List SweepEnt) (codesToo : Bool) :
    held (queueTouches s d l codesToo) = held s := by simp [queueTouches]

@[simp] theorem held_replicaEnd (d slot shard : Nat) : held (replicaEnd s d slot shard) = held s := by simp [replicaEnd]
@[simp] theorem held_plateExamined (d k p : Nat) (e : Engine) : held (plateExamined s d k p e) = held s := by simp [plateExamined]

@[simp] theorem held_sweepReadOp (k : Nat) (refErrs errs : List Int) : held (sweepReadOp s k refErrs errs) = held s := by
  unfold sweepReadOp
  dsimp only
  (repeat' split) <;> simp

@[simp] theorem held_freeReplica (d slot shard : Nat) : held (freeReplica s d slot shard) = held s := by simp [freeReplica]

@[simp] theorem held_driftSnapshot (d : Nat) : held (driftSnapshot s d) = held s := by
  unfold driftSnapshot
  dsimp only
  (repeat' split) <;> simp

/-! ### Task -/

@[simp] theorem held_pinTask (id : Nat) : held (pinTask s id) = held s := by
  unfold pinTask
  dsimp only
  (repeat' split) <;> simp

@[simp] theorem held_dispatchAll : held (dispatchAll s) = held s := by simp [dispatchAll]

@[simp] theorem held_runTaskOp (id : Nat) : held (runTaskOp s id) = held s := by
  unfold runTaskOp
  split
  · rfl
  · dsimp only
    rw [held_modReq]
    refine held_foldl _ _ (fun t a => ?_) _
    split <;> simp

@[simp] theorem held_landSlowBlock (r : Nat) (w : Run) (q : Req) (mb : Nat) : held (landSlowBlock s r w q mb) = held s := by
  simp [landSlowBlock]

@[simp] theorem held_landSlow (r : Nat) : held (landSlow s r) = held s := by
  unfold landSlow
  split
  · rfl
  · refine held_foldl _ _ (fun t a => ?_) _
    split
    · rfl
    · split <;> simp

@[simp] theorem held_addRun (w : Run) : held (addRun s w) = held s := by simp [addRun]

@[simp] theorem held_takeFeedAll (f : Feed) (id : Nat) : held (takeFeedAll s f id) = held s := by
  unfold takeFeedAll
  dsimp only
  split
  · simp
  · split
    · simp
    · refine (held_foldl _ _ (fun t a => ?_) _).trans (held_takeFeed s f id)
      split <;> simp

@[simp] theorem held_takeFeeds (id : Nat) : held (takeFeeds s id) = held s := by
  unfold takeFeeds
  refine held_foldl _ _ (fun t a => ?_) _
  split <;> simp

@[simp] theorem held_verdictOp (id : Nat) : held (verdictOp s id) = held s := by
  unfold verdictOp
  (repeat' split) <;> simp

/-! ### Memory -/

@[simp] theorem held_loseArea (k : Nat) : held (loseArea s k) = held s := by simp [loseArea]
@[simp] theorem held_memSlowSize (v : Nat) : held (memSlowSize s v) = held s := by simp [memSlowSize]
@[simp] theorem held_memError (a : Nat) (corrected : Bool) : held (memError s a corrected) = held s := by simp [memError]

@[simp] theorem held_memEccOp (a : Nat) (corrected : Bool) (req : Option Nat) : held (memEccOp s a corrected req) = held s := by
  unfold memEccOp
  split <;> simp

@[simp] theorem held_patrolOp (found : List EccFind) : held (patrolOp s found) = held s := by simp [patrolOp]
@[simp] theorem held_noteAreas (k : Nat) : held (noteAreas s k) = held s := by simp [noteAreas]

@[simp] theorem held_slowCompute (r mb : Nat) (w : Run) : held (slowCompute s r mb w) = held s := by
  unfold slowCompute
  dsimp only
  (repeat' split) <;> simp

@[simp] theorem held_slowLand (r mb : Nat) (w : Run) (q : Req) : held (slowLand s r mb w q) = held s := by simp [slowLand]

/-! ### Dies -/

@[simp] theorem held_modDie (d : Nat) (f : Die → Die) : held (modDie s d f) = held s := by simp [modDie]
@[simp] theorem held_resetPages (p : Nat → Bool) (keep : Nat → W32) : held (resetPages s p keep) = held s := by simp [resetPages]
@[simp] theorem held_resetDiePages (d : Nat) : held (resetDiePages s d) = held s := by simp [resetDiePages]
@[simp] theorem held_failWork (d code : Nat) : held (failWork s d code) = held s := by simp [failWork]
@[simp] theorem held_dropUnwritten (d : Nat) : held (dropUnwritten s d) = held s := by simp [dropUnwritten]

@[simp] theorem held_failWaiting (d code : Nat) : held (failWaiting s d code) = held s := by
  unfold failWaiting
  refine held_foldl _ _ (fun t a => ?_) _
  split <;> simp

@[simp] theorem held_uncover (d : Nat) : held (uncover s d) = held s := by simp [uncover]
@[simp] theorem held_bringUp (d : Nat) (store : Tab Saved) : held (bringUp s d store) = held s := by simp [bringUp]

@[simp] theorem held_dispatchGate (id : Nat) : held (dispatchGate s id) = held s := by
  unfold dispatchGate
  (repeat' split) <;> simp

@[simp] theorem held_dropLost : held (dropLost s) = held s := by
  unfold dropLost
  simp only [held_foldl _ loseCargo held_loseCargo, held_reroute]
  refine held_foldl _ _ (fun t a => ?_) _
  split
  · rfl
  · split <;> simp

@[simp] theorem held_flitErrorOp (i : Nat) (replayed : Bool) : held (flitErrorOp s i replayed) = held s := by simp [flitErrorOp]

/-! ### Camera -/

@[simp] theorem held_modStream (n : Nat) (f : Stream → Stream) : held (modStream s n f) = held s := by simp [modStream]
@[simp] theorem held_camCount (n k c : Nat) : held (camCount s n k c) = held s := by simp [camCount]
@[simp] theorem held_camSticky (n b : Nat) : held (camSticky s n b) = held s := by simp [camSticky]

@[simp] theorem held_headerOf (n : Nat) (fixed : Bool) : held (headerOf s n fixed).1 = held s := by
  unfold headerOf
  dsimp only
  (repeat' split) <;> simp

@[simp] theorem held_onPacket (n : Nat) (fixed : Bool) (f : State → State) (h : ∀ t, held (f t) = held t) :
    held (onPacket s n fixed f) = held s := by
  simp [onPacket, h]

@[simp] theorem held_lineEvent (n l : Nat) : held (lineEvent s n l) = held s := by simp [lineEvent]

@[simp] theorem held_flushLine (n : Nat) : held (flushLine s n) = held s := by
  unfold flushLine
  split <;> simp

@[simp] theorem held_dueStripe (n k : Nat) : held (dueStripe s n k) = held s := by simp [dueStripe]
@[simp] theorem held_takeBuffer (n l : Nat) : held (takeBuffer s n l) = held s := by simp [takeBuffer]
@[simp] theorem held_noteBad (n l : Nat) : held (noteBad s n l) = held s := by simp [noteBad]
@[simp] theorem held_dropFrom (n l : Nat) : held (dropFrom s n l) = held s := by simp [dropFrom]
@[simp] theorem held_acceptLine (n l : Nat) : held (acceptLine s n l) = held s := by simp [acceptLine]

@[simp] theorem held_loseFrame (n key first : Nat) : held (loseFrame s n key first) = held s := by
  unfold loseFrame
  refine (held_foldl _ _ (fun t a => ?_) _).trans (held_update s ..)
  split
  · rfl
  · dsimp only
    split <;> simp

@[simp] theorem held_frameEndEvent (n : Nat) : held (frameEndEvent s n) = held s := by simp [frameEndEvent]
@[simp] theorem held_lineStartOp (n : Nat) (fixed : Bool) : held (lineStartOp s n fixed) = held s := by simp [lineStartOp]

@[simp] theorem held_lineEndOp (n : Nat) (fixed : Bool) : held (lineEndOp s n fixed) = held s := by
  refine held_onPacket _ _ _ _ fun t => ?_
  split <;> simp

@[simp] theorem held_hdrUeOp (p : Nat) : held (hdrUeOp s p) = held s := by simp [hdrUeOp]
@[simp] theorem held_cfgRefused (n : Nat) : held (cfgRefused s n) = held s := by simp [cfgRefused]
@[simp] theorem held_scfgWrite (n : Nat) (w : W32) : held (scfgWrite s n w) = held s := by simp [scfgWrite]
@[simp] theorem held_camCfgWrite (n off : Nat) (w : W32) : held (camCfgWrite s n off w) = held s := by simp [camCfgWrite]
@[simp] theorem held_leaveLp11Op (p : Nat) : held (leaveLp11Op s p) = held s := by simp [leaveLp11Op]
@[simp] theorem held_portCtrl (p : Nat) (w : W32) : held (portCtrl s p w) = held s := by simp [portCtrl]

/-! ### Sillage -/

@[simp] theorem held_modUnit (u : Nat) (f : SilUnit → SilUnit) : held (modUnit s u f) = held s := by simp [modUnit]
@[simp] theorem held_submitJob (u t : Nat) : held (submitJob s u t) = held s := by simp [submitJob]
@[simp] theorem held_tplWrite : held (tplWrite s) = held s := by simp [tplWrite]
@[simp] theorem held_tplSnapshot : held (tplSnapshot s) = held s := by simp [tplSnapshot]

@[simp] theorem held_endJob (u t outcome : Nat) (value other : W32) : held (endJob s u t outcome value other) = held s := by
  simp [endJob]

@[simp] theorem held_endJobFree (u t outcome : Nat) : held (endJobFree s u t outcome) = held s := by simp [endJobFree]

@[simp] theorem held_endJobLost (u t : Nat) (c : Tpl) (outcome : Nat) : held (endJobLost s u t c outcome) = held s := by
  simp [endJobLost]

@[simp] theorem held_jobStartOp (u : Nat) : held (jobStartOp s u) = held s := by
  unfold jobStartOp
  dsimp only
  (repeat' split) <;> simp

@[simp] theorem held_aliveJob (u t : Nat) (c : Tpl) (now : Nat) : held (aliveJob s u t c now) = held s := by simp [aliveJob]

@[simp] theorem held_spanTransfers (c : Tpl) : held (spanTransfers s c).1 = held s := by
  unfold spanTransfers
  dsimp only
  (repeat' split) <;> simp

@[simp] theorem held_stopSillage (vigil : Bool) : held (stopSillage s vigil) = held s := by simp [stopSillage]

/-! ### Security -/

@[simp] theorem held_setKey (k : Nat) (v : KeySlot) : held (setKey s k v) = held s := by simp [setKey]
@[simp] theorem held_verifyFail (kind slot reason : Nat) : held (verifyFail s kind slot reason) = held s := by simp [verifyFail]
@[simp] theorem held_verify (x : Signed) : held (verify s x).2 = held s := by simp [verify]

@[simp] theorem held_verifyImage (l : List Byte) : held (verifyImage s l).2 = held s := by
  unfold verifyImage
  dsimp only
  (repeat' split) <;> simp

@[simp] theorem held_tryImage (x : Image) (ucode : Bool) : held (tryImage s x ucode).2 = held s := by
  unfold tryImage
  (repeat' split) <;> simp

@[simp] theorem held_idRead : held (idRead s) = held s := by simp [idRead]
@[simp] theorem held_cmdEnd (reason : Nat) : held (cmdEnd s reason) = held s := by simp [cmdEnd]

@[simp] theorem held_cmdRun (kinds : List Nat) (accept : Signed → Bool) (effect : State → Signed → State)
    (h : ∀ t x, held (effect t x) = held t) : held (cmdRun s kinds accept effect) = held s := by
  simp [cmdRun, h]

@[simp] theorem held_fwStageOp (arg : Nat) : held (fwStageOp s arg) = held s := by simp [fwStageOp]
@[simp] theorem held_rollbackOp (arg : Nat) : held (rollbackOp s arg) = held s := by simp [rollbackOp]
@[simp] theorem held_ownerEnrolOp : held (ownerEnrolOp s) = held s := by simp [ownerEnrolOp]
@[simp] theorem held_ownerRevokeOp : held (ownerRevokeOp s) = held s := by simp [ownerRevokeOp]
@[simp] theorem held_odfenRevokeOp : held (odfenRevokeOp s) = held s := by simp [odfenRevokeOp]
@[simp] theorem held_dbgUnlockOp : held (dbgUnlockOp s) = held s := by simp [dbgUnlockOp]
@[simp] theorem held_cmdRunOp (op arg : Nat) : held (cmdRunOp s op arg) = held s := by simp [cmdRunOp]
@[simp] theorem held_cmdGo (w : W32) : held (cmdGo s w) = held s := by simp [cmdGo]
@[simp] theorem held_newChallenge : held (newChallenge s) = held s := by simp [newChallenge]
@[simp] theorem held_relockAll : held (relockAll s) = held s := by simp [relockAll]
@[simp] theorem held_dbgCtrl (w : W32) : held (dbgCtrl s w) = held s := by simp [dbgCtrl]
@[simp] theorem held_cdbgCtrl (c : Nat) (w : W32) : held (cdbgCtrl s c w) = held s := by simp [cdbgCtrl]
@[simp] theorem held_cdbgAdvance (c : Nat) : held (cdbgAdvance s c) = held s := by simp [cdbgAdvance]

/-! ### Flacon -/

@[simp] theorem held_modSlot (k : Nat) (f : Slot → Slot) : held (modSlot s k f) = held s := by simp [modSlot]
@[simp] theorem held_endReq (id code : Nat) : held (endReq s id code) = held s := by simp [endReq]

@[simp] theorem held_refuseBegin (id k status reason : Nat) (short : List (Nat × Nat)) (mib : Nat) :
    held (refuseBegin s id k status reason short mib) = held s := by simp [refuseBegin]

@[simp] theorem held_openSession (k base : Nat) (m : Manifest) (bytes : List Byte) :
    held (openSession s k base m bytes) = held s := by simp [openSession]

@[simp] theorem held_flaconBeginOp (id : Nat) : held (flaconBeginOp s id) = held s := by
  unfold flaconBeginOp
  split
  · rfl
  · refine held_of_ite rfl (held_of_ite (held_refuseReq ..) ?_)
    split
    · exact held_endReq ..
    · refine held_of_ite (held_refuseBegin ..) ?_
      iterate 6 refine held_of_ite ((held_refuseBegin ..).trans (held_verify ..)) ?_
      split
      · exact (held_refuseBegin ..).trans (held_verify ..)
      · exact (held_endReq ..).trans ((held_openSession ..).trans (held_verify ..))

@[simp] theorem held_badShard (i : Nat) (dies : BitVec 16) : held (badShard s i dies) = held s := by simp [badShard]

@[simp] theorem held_shardSendOp (id : Nat) : held (shardSendOp s id) = held s := by
  unfold shardSendOp
  split <;> simp

@[simp] theorem held_placeShard (d k i : Nat) (data : List Byte) : held (placeShard s d k i data).1 = held s := by
  refine held_foldl_fst _ _ (fun r p => ?_) _
  dsimp only
  split <;> simp

@[simp] theorem held_repairShard (id d k i : Nat) (data : List Byte) : held (repairShard s id d k i data) = held s := by
  simp [repairShard]

@[simp] theorem held_dieAnswered (id d : Nat) (kept : Bool) : held (dieAnswered s id d kept) = held s := by
  unfold dieAnswered
  split <;> simp

@[simp] theorem held_shardReceiveOp (id d : Nat) (data : List Byte) : held (shardReceiveOp s id d data) = held s := by
  unfold shardReceiveOp
  split <;> simp

@[simp] theorem held_flaconActivateOp (id : Nat) : held (flaconActivateOp s id) = held s := by
  unfold flaconActivateOp
  split <;> simp

@[simp] theorem held_activateTimeoutOp (k : Nat) : held (activateTimeoutOp s k) = held s := by simp [activateTimeoutOp]
@[simp] theorem held_storeCode (p : ProgEnt) (b : Nat) : held (storeCode s p b) = held s := by simp [storeCode]

theorem held_loadPrograms {s t : State} {k : Nat} (h : loadPrograms s k = some t) : held t = held s := by
  unfold loadPrograms at h
  refine foldl_some_inv (fun u => held u = held s) _ _ (fun _ => rfl) (fun u a v hu hv => ?_) rfl h
  dsimp only at hv
  split at hv
  · cases hv
  · cases hv
    simpa using hu

@[simp] theorem held_endActivate (k code : Nat) : held (endActivate s k code) = held s := by
  unfold endActivate
  split <;> simp

@[simp] theorem held_preparedOp (k : Nat) : held (preparedOp s k) = held s := by
  unfold preparedOp
  dsimp only
  split
  · split
    · split
      · next h => simp [held_loadPrograms h]
      · rfl
    · simp
  · rfl

@[simp] theorem held_activationJudgedOp (k : Nat) : held (activationJudgedOp s k) = held s := by
  unfold activationJudgedOp
  dsimp only
  (repeat' split) <;> simp

@[simp] theorem held_newQSlots (m : Manifest) (k : Nat) : held (newQSlots s m k) = held s := by simp [newQSlots]
@[simp] theorem held_setDests : held (setDests s) = held s := by simp [setDests]
@[simp] theorem held_retireSlot (k : Nat) : held (retireSlot s k) = held s := by simp [retireSlot]
@[simp] theorem held_passOn (from_ k : Nat) : held (passOn s from_ k) = held s := by simp [passOn]

@[simp] theorem held_activationApplyOp (k : Nat) : held (activationApplyOp s k) = held s := by
  unfold activationApplyOp
  dsimp only
  (repeat' split) <;> simp

@[simp] theorem held_nvWriteOp : held (nvWriteOp s) = held s := by simp [nvWriteOp]
@[simp] theorem held_dropStaging (k : Nat) : held (dropStaging s k) = held s := by simp [dropStaging]
@[simp] theorem held_dropJobs (k : Nat) : held (dropJobs s k) = held s := by simp [dropJobs]
@[simp] theorem held_freeReplicas (k : Nat) (p : Nat → Bool) : held (freeReplicas s k p) = held s := by simp [freeReplicas]
@[simp] theorem held_emptySlot (k : Nat) : held (emptySlot s k) = held s := by simp [emptySlot]

@[simp] theorem held_flaconRetireOp (id : Nat) : held (flaconRetireOp s id) = held s := by
  unfold flaconRetireOp
  split <;> simp

@[simp] theorem held_slotDrainedOp (k : Nat) : held (slotDrainedOp s k) = held s := by
  unfold slotDrainedOp
  dsimp only
  (repeat' split) <;> simp

@[simp] theorem held_inPlaceDrainedOp (k : Nat) : held (inPlaceDrainedOp s k) = held s := by simp [inPlaceDrainedOp]
@[simp] theorem held_abortSession (k : Nat) : held (abortSession s k) = held s := by simp [abortSession]

@[simp] theorem held_flaconAbortOp (id : Nat) : held (flaconAbortOp s id) = held s := by
  unfold flaconAbortOp
  split <;> simp

@[simp] theorem held_abortSessions : held (abortSessions s) = held s := by simp [abortSessions]
@[simp] theorem held_recordDrift (k : Nat) : held (recordDrift s k) = held s := by simp [recordDrift]
@[simp] theorem held_recordLoad (k : Nat) : held (recordLoad s k) = held s := by simp [recordLoad]
@[simp] theorem held_recordSlots : held (recordSlots s) = held s := by simp [recordSlots]
@[simp] theorem held_flcSnapshot : held (flcSnapshot s) = held s := by simp [flcSnapshot]

/-! ### Power -/

@[simp] theorem held_modPwr (f : Pwr → Pwr) : held (modPwr s f) = held s := by simp [modPwr]
@[simp] theorem held_setPState (t : PState) : held (setPState s t) = held s := by simp [setPState]
@[simp] theorem held_logShutdown (r : ShutRec) : held (logShutdown s r) = held s := by simp [logShutdown]
@[simp] theorem held_thermalMarks (d : Nat) : held (thermalMarks s d) = held s := by simp [thermalMarks]
@[simp] theorem held_warnDie (d : Nat) : held (warnDie s d) = held s := by simp [warnDie]

@[simp] theorem held_supplyWarningOp (m : Supply) : held (supplyWarningOp s m) = held s := by
  unfold supplyWarningOp
  split <;> simp

@[simp] theorem held_holdFrom (d : Nat) : held (holdFrom s d) = held s := by simp [holdFrom]

@[simp] theorem held_supplyClearOp (m : Supply) : held (supplyClearOp s m) = held s := by
  unfold supplyClearOp
  split <;> simp

@[simp] theorem held_supHoldEndOp (d : Nat) : held (supHoldEndOp s d) = held s := by
  unfold supHoldEndOp
  split <;> simp

@[simp] theorem held_resetD3 : held (resetD3 s) = held s := by simp [resetD3]
@[simp] theorem held_keepStored (old : Tab Slot) (keep : Bool) : held (keepStored s old keep) = held s := by simp [keepStored]
@[simp] theorem held_setProfile (v : Nat) : held (setProfile s v) = held s := by simp [setProfile]
@[simp] theorem held_dieRestart (w : W32) : held (dieRestart s w) = held s := by simp [dieRestart]
@[simp] theorem held_pwrLogSnapshot : held (pwrLogSnapshot s) = held s := by simp [pwrLogSnapshot]
@[simp] theorem held_modBoot (f : Boot → Boot) : held (modBoot s f) = held s := by simp [modBoot]
@[simp] theorem held_modNv (f : Nv → Nv) : held (modNv s f) = held s := by simp [modNv]

@[simp] theorem held_otherPath : held (otherPath s).1 = held s := by
  unfold otherPath
  dsimp only
  (repeat' split) <;> simp

@[simp] theorem held_beginStart (cause first : Nat) : held (beginStart s cause first) = held s := by
  unfold beginStart
  dsimp only
  (repeat' split) <;> simp

@[simp] theorem held_wakeDie (d : Nat) : held (wakeDie s d) = held s := by simp [wakeDie]
@[simp] theorem held_recordStep (begun ended : Nat) : held (recordStep s begun ended) = held s := by simp [recordStep]
@[simp] theorem held_wakeDies : held (wakeDies s) = held s := by simp [wakeDies]
@[simp] theorem held_leaveSleep : held (leaveSleep s) = held s := by simp [leaveSleep]
@[simp] theorem held_leaveVigil : held (leaveVigil s) = held s := by simp [leaveVigil]

@[simp] theorem held_startExit (to_ : PState) : held (startExit s to_) = held s := by
  unfold startExit
  dsimp only
  (repeat' split) <;> simp

@[simp] theorem held_pwrReq (w : W32) : held (pwrReq s w) = held s := by simp [pwrReq]
@[simp] theorem held_exitOp (t : ExitTrigger) : held (exitOp s t) = held s := by simp [exitOp]

@[simp] theorem held_endExit : held (endExit s) = held s := by
  unfold endExit
  split <;> simp

@[simp] theorem held_recordWindow : held (recordWindow s) = held s := by simp [recordWindow]
@[simp] theorem held_exitDoneOp : held (exitDoneOp s) = held s := by simp [exitDoneOp]
@[simp] theorem held_dispatchStep : held (dispatchStep s) = held s := by simp [dispatchStep]

/-! ### Boot -/

@[simp] theorem held_noteReset (last : Nat) : held (noteReset s last) = held s := by simp [noteReset]
@[simp] theorem held_hostReset : held (hostReset s) = held s := by simp [hostReset]
@[simp] theorem held_beginRelink : held (beginRelink s) = held s := by simp [beginRelink]
@[simp] theorem held_linkReset (last : Nat) : held (linkReset s last) = held s := by simp [linkReset]
@[simp] theorem held_flrReset : held (flrReset s) = held s := by simp [flrReset]
@[simp] theorem held_busReset (last : Nat) : held (busReset s last) = held s := by simp [busReset]

@[simp] theorem held_hostResetOp (last : Nat) : held (hostResetOp s last) = held s := by
  unfold hostResetOp
  (repeat' split) <;> simp

@[simp] theorem held_perstDeassertOp : held (perstDeassertOp s) = held s := by simp [perstDeassertOp]
@[simp] theorem held_flrCompleteOp : held (flrCompleteOp s) = held s := by simp [flrCompleteOp]
@[simp] theorem held_exitDoneStep : held (exitDoneStep s) = held s := by simp [exitDoneStep]
@[simp] theorem held_beginStep (n : Nat) : held (beginStep s n) = held s := by simp [beginStep]
@[simp] theorem held_chooseImage : held (chooseImage s) = held s := by simp [chooseImage]
@[simp] theorem held_storedCoefs (d : Nat) : held (storedCoefs s d) = held s := by simp [storedCoefs]
@[simp] theorem held_chooseProfile : held (chooseProfile s) = held s := by simp [chooseProfile]

@[simp] theorem held_endStep (n : Nat) : held (endStep s n) = held s := by
  unfold endStep
  split <;> simp

@[simp] theorem held_enterSafe (trained : Bool) : held (enterSafe s trained) = held s := by simp [enterSafe]

@[simp] theorem held_bootNext (n : Nat) : held (bootNext s n) = held s := by
  unfold bootNext
  dsimp only
  (repeat' split) <;> simp

@[simp] theorem held_endRelink : held (endRelink s) = held s := by
  unfold endRelink
  dsimp only
  (repeat' split) <;> simp

@[simp] theorem held_stepEndOp (res : BootResult) : held (stepEndOp s res) = held s := by simp [stepEndOp]
@[simp] theorem held_skipClr (w : W32) : held (skipClr s w) = held s := by simp [skipClr]
@[simp] theorem held_dieRejoinOp (d : Nat) : held (dieRejoinOp s d) = held s := by simp [dieRejoinOp]

/-! ### Isu -/

@[simp] theorem held_modIsu (f : Isu → Isu) : held (modIsu s f) = held s := by simp [modIsu]
@[simp] theorem held_putStb (n : Nat) (v : Strobe) : held (putStb s n v) = held s := by simp [putStb]
@[simp] theorem held_putWatch (n : Nat) (v : Watch) : held (putWatch s n v) = held s := by simp [putWatch]
@[simp] theorem held_putDac (n : Nat) (v : Dac) : held (putDac s n v) = held s := by simp [putDac]
@[simp] theorem held_putConv (k : Nat) (v : Conv) : held (putConv s k v) = held s := by simp [putConv]

@[simp] theorem held_seqTrigger (k : Nat) (inj : Bool) (q : Nat) : held (seqTrigger s k inj q) = held s := by
  unfold seqTrigger
  dsimp only
  (repeat' split) <;> simp

@[simp] theorem held_strobeSeqs (out : Nat) (falling : Bool) : held (strobeSeqs s out falling) = held s := by simp [strobeSeqs]
@[simp] theorem held_strobeEdge (out : Nat) (falling : Bool) : held (strobeEdge s out falling) = held s := by simp [strobeEdge]
@[simp] theorem held_strobeFall (out : Nat) : held (strobeFall s out) = held s := by simp [strobeFall]
@[simp] theorem held_strobePulse (out width : Nat) : held (strobePulse s out width) = held s := by simp [strobePulse]
@[simp] theorem held_strobeEndOp (out : Nat) : held (strobeEndOp s out) = held s := by simp [strobeEndOp]
@[simp] theorem held_widthClipOp (out : Nat) : held (widthClipOp s out) = held s := by simp [widthClipOp]
@[simp] theorem held_dutyOp (out : Nat) : held (dutyOp s out) = held s := by simp [dutyOp]
@[simp] theorem held_strobeEnables : held (strobeEnables s) = held s := by simp [strobeEnables]
@[simp] theorem held_dacLoad1 (n : Nat) : held (dacLoad1 s n) = held s := by simp [dacLoad1]
@[simp] theorem held_dacLoad (mask : Nat) : held (dacLoad s mask) = held s := by simp [dacLoad]
@[simp] theorem held_dacToZero (n : Nat) : held (dacToZero s n) = held s := by simp [dacToZero]
@[simp] theorem held_dacCfg (n : Nat) (w : W32) : held (dacCfg s n w) = held s := by simp [dacCfg]
@[simp] theorem held_dacRampEndOp (n : Nat) : held (dacRampEndOp s n) = held s := by simp [dacRampEndOp]
@[simp] theorem held_dacScOp (n : Nat) (live : Bool) : held (dacScOp s n live) = held s := by simp [dacScOp]
@[simp] theorem held_dacOpenOp (n : Nat) (live : Bool) : held (dacOpenOp s n live) = held s := by simp [dacOpenOp]
@[simp] theorem held_trip (byPlaus : Bool) (w : Nat) : held (trip s byPlaus w) = held s := by simp [trip]
@[simp] theorem held_examine1 (w code : Nat) (ovr : Bool) : held (examine1 s w code ovr) = held s := by simp [examine1]

@[simp] theorem held_examine (ch code : Nat) (ovr : Bool) : held (examine s ch code ovr) = held s := by
  unfold examine
  dsimp only
  (repeat' split) <;> simp

@[simp] theorem held_ilkRelease : held (ilkRelease s) = held s := by simp [ilkRelease]

@[simp] theorem held_adcResult (k ch q code : Nat) (inj ovr : Bool) : held (adcResult s k ch q code inj ovr) = held s := by
  simp [adcResult]

@[simp] theorem held_seqStart (k : Nat) : held (conversionStartOp.seqStart s k) = held s := by
  unfold conversionStartOp.seqStart
  dsimp only
  split
  · simp
  · split
    · split <;> simp
    · rfl

@[simp] theorem held_conversionStartOp (k : Nat) : held (conversionStartOp s k) = held s := by
  unfold conversionStartOp
  split
  · rfl
  · dsimp only
    split
    · split <;> simp
    · simp

@[simp] theorem held_calClear (key : Nat) : held (calClear s key) = held s := by simp [calClear]

@[simp] theorem held_calUnwait : held (calUnwait s) = held s := by
  unfold calUnwait
  split <;> simp

@[simp] theorem held_plausJudge (ch : Nat) : held (plausJudge s ch) = held s := by
  unfold plausJudge
  dsimp only
  (repeat' split) <;> simp

@[simp] theorem held_conversionDoneOp (k : Nat) (m : Meas) : held (conversionDoneOp s k m) = held s := by
  unfold conversionDoneOp
  dsimp only
  (repeat' split) <;> simp

@[simp] theorem held_calRefuse (key res : Nat) : held (calRefuse s key res) = held s := by simp [calRefuse]
@[simp] theorem held_isuCal (w : W32) : held (isuCal s w) = held s := by simp [isuCal]

@[simp] theorem held_isuCalDoneOp (codes : List Meas) : held (isuCalDoneOp s codes) = held s := by
  unfold isuCalDoneOp
  dsimp only
  (repeat' split) <;> simp

@[simp] theorem held_isuCalSnapshot : held (isuCalSnapshot s) = held s := by simp [isuCalSnapshot]
@[simp] theorem held_adcRead (k : Nat) (be : BitVec 4) : held (adcRead s k be) = held s := by simp [adcRead]

/-! ### Action -/

@[simp] theorem held_commitAction (g t : Nat) : held (commitAction s g t) = held s := by
  unfold commitAction
  dsimp only
  (repeat' split) <;> simp

@[simp] theorem held_applyMember (t p : Nat) : held (applyMember s t p) = held s := by simp [applyMember]
@[simp] theorem held_refuseMember (g t p : Nat) : held (refuseMember s g t p) = held s := by simp [refuseMember]

@[simp] theorem held_nextOutcome (g : Nat) (last : BitVec 2) : held (nextOutcome s g last) = held s := by
  unfold nextOutcome
  dsimp only
  (repeat' split) <;> simp

@[simp] theorem held_commitApplyOp (g : Nat) : held (commitApplyOp s g) = held s := by
  unfold commitApplyOp
  dsimp only
  (repeat' split) <;> simp

@[simp] theorem held_windowAction (n k t : Nat) : held (windowAction s n k t) = held s := by simp [windowAction]

@[simp] theorem held_windowOpenOp (n : Nat) : held (windowOpenOp s n) = held s := by
  unfold windowOpenOp
  split <;> simp

@[simp] theorem held_windowCloseOp (n : Nat) : held (windowCloseOp s n) = held s := by
  unfold windowCloseOp
  split <;> simp

@[simp] theorem held_perform (n : Nat) (e : Entry) (t : Nat) (late : Bool) : held (perform s n e t late) = held s := by
  unfold perform
  split <;> simp

@[simp] theorem held_actionIssueOp (n : Nat) : held (actionIssueOp s n) = held s := by
  unfold actionIssueOp
  dsimp only
  (repeat' split) <;> simp

/-! ### Vec -/

@[simp] theorem held_vecNext (c pc : Nat) : held (vecNext s c pc) = held s := by
  unfold vecNext
  dsimp only
  (repeat' split) <;> simp

@[simp] theorem held_noteNans (c n code : Nat) : held (noteNans s c n code) = held s := by simp [noteNans]
@[simp] theorem held_loopIssue (c : Nat) (f : VF) : held (loopIssue s c f) = held s := by simp [loopIssue]

@[simp] theorem held_rowEnded (c t : Nat) : held (rowEnded s c t) = held s := by
  unfold rowEnded
  dsimp only
  (repeat' split) <;> simp

@[simp] theorem held_endIssue (c : Nat) (f : VF) : held (endIssue s c f) = held s := by
  unfold endIssue
  dsimp only
  (repeat' split) <;> simp

/-! ### Quant -/

@[simp] theorem held_modQ (key : Nat) (f : QSlot → QSlot) : held (modQ s key f) = held s := by
  unfold modQ
  split <;> simp

@[simp] theorem held_passStart (slot c n req : Nat) : held (passStart s slot c n req) = held s := by
  unfold passStart
  dsimp only
  (repeat' split) <;> simp

@[simp] theorem held_postAmax (slot c n rows : Nat) : held (postAmax s slot c n rows) = held s := by
  unfold postAmax
  split <;> simp

@[simp] theorem held_quantPostOp (c n src : Nat) (amaxes : List W32) (pass : Nat) (reset : Bool) :
    held (quantPostOp s c n src amaxes pass reset) = held s := by
  unfold quantPostOp
  dsimp only
  (repeat' split) <;> simp

@[simp] theorem held_clearHist (c : Nat) : held (clearHist s c) = held s := by simp [clearHist]

@[simp] theorem held_vecSnapshot (c : Nat) : held (vecSnapshot s c) = held s := by
  unfold vecSnapshot
  split <;> simp

/-! ### Host -/

@[simp] theorem held_stageLo (k : Kind) (p off : Nat) (w m : W32) : held (stageLo s k p off w m) = held s := by simp [stageLo]
@[simp] theorem held_unstage (p lo : Nat) : held (unstage s p lo) = held s := by simp [unstage]

@[simp] theorem held_accessErr (p kind off : Nat) : held (accessErr s p kind off) = held s := by
  unfold accessErr
  split <;> simp

@[simp] theorem held_joinGroup (g p : Nat) : held (joinGroup s g p) = held s := by simp [joinGroup]
@[simp] theorem held_commitWrite (p : Nat) (w : W32) : held (commitWrite s p w) = held s := by simp [commitWrite]
@[simp] theorem held_clrWrite (k : Kind) (p : Nat) (w : W32) : held (clrWrite s k p w) = held s := by simp [clrWrite]

@[simp] theorem held_headerWrite (k : Kind) (p off : Nat) (dw : Dw) : held (headerWrite s k p off dw) = held s := by
  simp [headerWrite]

@[simp] theorem held_blvCtrl (new : W32) : held (blvCtrl s new) = held s := by simp [blvCtrl]
@[simp] theorem held_tbSrcWrite (new : W32) : held (tbSrcWrite s new) = held s := by simp [tbSrcWrite]

@[simp] theorem held_shadowWrite (k : Kind) (p off : Nat) (w m : W32) : held (shadowWrite s k p off w m) = held s := by
  simp [shadowWrite]

@[simp] theorem held_latchHi (k : Kind) (i p off : Nat) : held (latchHi s k i p off) = held s := by simp [latchHi]
@[simp] theorem held_posLatch (n : Nat) : held (posLatch s n) = held s := by simp [posLatch]
@[simp] theorem held_clearRead (p off : Nat) (be : BitVec 4) : held (clearRead s p off be) = held s := by simp [clearRead]

@[simp] theorem held_readAct (k : Kind) (i p off : Nat) (be : BitVec 4) : held (readAct s k i p off be) = held s := by
  unfold readAct
  (repeat' split) <;> simp

@[simp] theorem held_bar0Read (addr : Nat) (be : BitVec 4) : held (bar0Read s addr be) = held s := by
  unfold bar0Read
  dsimp only
  (repeat' split) <;> simp

@[simp] theorem held_bar0Reads (addr : Nat) (l : List (BitVec 4)) : held (bar0Reads s addr l) = held s := by
  induction l generalizing s addr with
  | nil => simp [bar0Reads]
  | cons be l ih =>
    cases l with
    | nil => simp [bar0Reads]
    | cons be' l =>
      simp only [bar0Reads, held_answer]
      rw [ih, held_settle, held_bar0Read]

@[simp] theorem held_readRequest (bar addr : Nat) (bes : List (BitVec 4)) : held (readRequest s bar addr bes) = held s := by
  simp [readRequest]

@[simp] theorem held_bar2Write (addr : Nat) (dws : List Dw) : held (bar2Write s addr dws) = held s := by
  unfold bar2Write
  split <;> simp

@[simp] theorem held_accessWaits (bar : Nat) (a : Access) : held (accessWaits s bar a) = held s := by simp [accessWaits]
@[simp] theorem held_cfgWrite (reg : Nat) (data : W32) : held (cfgWrite s reg data) = held s := by simp [cfgWrite]

@[simp] theorem held_configOp (write : Bool) (reg : Nat) (data : W32) : held (configOp s write reg data) = held s := by
  simp [configOp]

@[simp] theorem held_unsupportedOp (write : Bool) (bar : Option Nat) : held (unsupportedOp s write bar) = held s := by
  simp [unsupportedOp]

@[simp] theorem held_reportAer (a : Aer) : held (reportAer s a) = held s := by simp [reportAer]
@[simp] theorem held_poisonedOp (bar addr : Nat) : held (poisonedOp s bar addr) = held s := by simp [poisonedOp]

/-! ### Tap -/

@[simp] theorem held_tapLoad (ir : Nat) (reg : TapReg) (data : W32) : held (tapLoad s ir reg data) = held s := by simp [tapLoad]
@[simp] theorem held_tapSuspend : held (tapSuspend s) = held s := by simp [tapSuspend]
@[simp] theorem held_tapBoundary (ir : Nat) : held (tapBoundary s ir) = held s := by simp [tapBoundary]
@[simp] theorem held_tapBypass (ir : Nat) : held (tapBypass s ir) = held s := by simp [tapBypass]
@[simp] theorem held_tapIdcode : held (tapIdcode s) = held s := by simp [tapIdcode]
@[simp] theorem held_tapDebug : held (tapDebug s) = held s := by simp [tapDebug]
@[simp] theorem held_tapResetOp : held (tapResetOp s) = held s := by simp [tapResetOp]

end

/-! ### What a store of bytes or a reset keeps -/

/-- What a store of bytes or a reset keeps: the part, the queue, and the form of the five byte stores. -/
structure Held.Keeps (a b : Held) : Prop where
  part : b.part = a.part
  pending : b.pending = a.pending
  form : bytesOk a.hostMem ∧ bytesOk a.pkgMem ∧ bytesOk a.coreMem ∧ bytesOk a.weights ∧ bytesOk a.ingest →
    bytesOk b.hostMem ∧ bytesOk b.pkgMem ∧ bytesOk b.coreMem ∧ bytesOk b.weights ∧ bytesOk b.ingest

@[simp, refl] theorem Held.Keeps.refl (a : Held) : a.Keeps a := ⟨rfl, rfl, id⟩

theorem Held.Keeps.trans {a b c : Held} (h : a.Keeps b) (k : b.Keeps c) : a.Keeps c :=
  ⟨k.part.trans h.part, k.pending.trans h.pending, k.form ∘ h.form⟩

section
variable {a b : Held} (h : a.Keeps b) {t : Tab Byte}
include h

theorem Held.Keeps.hostMem (ht : bytesOk b.hostMem → bytesOk t) : a.Keeps { b with hostMem := t } :=
  ⟨h.part, h.pending, fun k => ⟨ht (h.form k).1, (h.form k).2⟩⟩

theorem Held.Keeps.pkgMem (ht : bytesOk b.pkgMem → bytesOk t) : a.Keeps { b with pkgMem := t } :=
  ⟨h.part, h.pending, fun k => ⟨(h.form k).1, ht (h.form k).2.1, (h.form k).2.2⟩⟩

theorem Held.Keeps.coreMem (ht : bytesOk b.coreMem → bytesOk t) : a.Keeps { b with coreMem := t } :=
  ⟨h.part, h.pending, fun k => ⟨(h.form k).1, (h.form k).2.1, ht (h.form k).2.2.1, (h.form k).2.2.2⟩⟩

theorem Held.Keeps.weights (ht : bytesOk b.weights → bytesOk t) : a.Keeps { b with weights := t } :=
  ⟨h.part, h.pending, fun k => ⟨(h.form k).1, (h.form k).2.1, (h.form k).2.2.1, ht (h.form k).2.2.2.1, (h.form k).2.2.2.2⟩⟩

theorem Held.Keeps.ingest (ht : bytesOk b.ingest → bytesOk t) : a.Keeps { b with ingest := t } :=
  ⟨h.part, h.pending, fun k => ⟨(h.form k).1, (h.form k).2.1, (h.form k).2.2.1, (h.form k).2.2.2.1, ht (h.form k).2.2.2.2⟩⟩

end

section
variable {H : Held}

@[simp] theorem keeps_ite (c : Prop) [Decidable c] (x y : Held) :
    H.Keeps (if c then x else y) ↔ (c → H.Keeps x) ∧ (¬ c → H.Keeps y) := by
  split <;> simp [*]

theorem keeps_of_ite {c : Prop} [Decidable c] {s t : State} (hs : H.Keeps (held s)) (ht : H.Keeps (held t)) :
    H.Keeps (held (if c then s else t)) := by
  split <;> assumption

@[simp] theorem keeps_foldl {α : Type} (l : List α) (f : State → α → State)
    (h : ∀ s x, (held s).Keeps (held (f s x))) {s : State} (hs : H.Keeps (held s)) : H.Keeps (held (l.foldl f s)) := by
  induction l generalizing s with
  | nil => exact hs
  | cons x l ih => exact ih (hs.trans (h s x))

@[simp] theorem keeps_foldl_fst {α β : Type} (l : List α) (f : State × β → α → State × β)
    (h : ∀ r x, (held r.1).Keeps (held (f r x).1)) {r : State × β} (hr : H.Keeps (held r.1)) :
    H.Keeps (held (l.foldl f r).1) := by
  induction l generalizing r with
  | nil => exact hr
  | cons x l ih => exact ih (hr.trans (h r x))


theorem bytesOk_foldl_tset {α : Type} (l : List α) (key : α → Nat) (val : α → Byte) {t : Tab Byte} (h : bytesOk t) :
    bytesOk (l.foldl (fun t x => tset 0 t (key x) (val x)) t) := by
  induction l generalizing t with
  | nil => exact h
  | cons x l ih => exact ih (tabOk_tset rfl h)

/-! ### Operands -/

@[simp] theorem keeps_corePut {s : State} (h : H.Keeps (held s)) (c a : Nat) (l : List Byte) :
    H.Keeps (held (corePut s c a l)) := by
  exact h.coreMem (bytesOk_putBytes _ _)

@[simp] theorem keeps_coreElemPut {s : State} (h : H.Keeps (held s)) (c dt base i raw : Nat) :
    H.Keeps (held (coreElemPut s c dt base i raw)) := by simp [coreElemPut, h]

/-! ### Rings -/

@[simp] theorem keeps_hostPut {s : State} (h : H.Keeps (held s)) (a : Nat) (l : List Byte) : H.Keeps (held (hostPut s a l)) := by
  exact h.hostMem (bytesOk_putBytes _ _)

@[simp] theorem keeps_ringStart {s : State} (h : H.Keeps (held s)) (n : Nat) (w : W32) : H.Keeps (held (ringStart s n w)) := by
  simp [ringStart, h]

@[simp] theorem keeps_ringCtrl {s : State} (h : H.Keeps (held s)) (n : Nat) (w : W32) : H.Keeps (held (ringCtrl s n w)) := by
  unfold ringCtrl
  dsimp only
  (repeat' split) <;> simp [h]

@[simp] theorem keeps_outPut {s : State} (h : H.Keeps (held s)) (id a : Nat) (l : List Byte) :
    H.Keeps (held (outPut s id a l)) := by
  simp [outPut, h]

@[simp] theorem keeps_readTensorOp {s : State} (h : H.Keeps (held s)) (id : Nat) : H.Keeps (held (readTensorOp s id)) := by
  unfold readTensorOp
  split <;> simp [h]

@[simp] theorem keeps_pkgPut {s : State} (h : H.Keeps (held s)) (a : Nat) (l : List Byte) : H.Keeps (held (pkgPut s a l)) := by
  exact h.pkgMem (bytesOk_putBytes _ _)

@[simp] theorem keeps_devPut {s : State} (h : H.Keeps (held s)) (a : Nat) (l : List Byte) : H.Keeps (held (devPut s a l)) := by
  unfold devPut
  split
  · exact h.ingest (bytesOk_putBytes _ _)
  · exact keeps_pkgPut h ..

@[simp] theorem keeps_writeTensorOp {s : State} (h : H.Keeps (held s)) (id : Nat) : H.Keeps (held (writeTensorOp s id)) := by
  unfold writeTensorOp
  split <;> simp [h]

@[simp] theorem keeps_completionOp {s : State} (h : H.Keeps (held s)) (id : Nat) (frozen : Bool) :
    H.Keeps (held (completionOp s id frozen)) := by
  unfold completionOp
  split <;> simp [h]

@[simp] theorem keeps_sumWrite {s : State} (h : H.Keeps (held s)) (g : Nat) : H.Keeps (held (sumWrite s g)) := by
  simp [sumWrite, h]

@[simp] theorem keeps_headWordOp {s : State} (h : H.Keeps (held s)) (n : Nat) : H.Keeps (held (headWordOp s n)) := by
  unfold headWordOp
  dsimp only
  split
  · have hp := keeps_hostPut h (rg64 s n 0x18)
      (leBytes 2 (ringAt s n).sqHead ++ leBytes 2 (ringAt s n).cqTail ++ leBytes 4 (ringAt s n).records.toNat)
    split
    · exact keeps_sumWrite (by simpa only [held_update, held_putRing] using hp) _
    · simpa only [held_putRing] using hp
  · exact h

@[simp] theorem keeps_sumClr {s : State} (h : H.Keeps (held s)) (v : Nat) : H.Keeps (held (sumClr s v)) := by simp [sumClr, h]

/-! ### Cores -/

@[simp] theorem keeps_landInput {s : State} (h : H.Keeps (held s)) (w : Run) (q : Req) (mb : Nat) :
    H.Keeps (held (landInput s w q mb)) := by
  unfold landInput
  dsimp only
  rw [held_landTo]
  refine keeps_foldl _ _ (fun t i => ?_) h
  exact keeps_foldl _ _ (fun u ks => keeps_corePut (.refl _) ..) (.refl _)

@[simp] theorem keeps_landInputs {s : State} (h : H.Keeps (held s)) (r : Nat) (q : Req) (bs : List Nat) :
    H.Keeps (held (landInputs s r q bs)) := by
  unfold landInputs
  refine keeps_foldl _ _ (fun t mb => ?_) h
  split <;> simp

@[simp] theorem keeps_fetchGroupOp {s : State} (h : H.Keeps (held s)) (r : Nat) : H.Keeps (held (fetchGroupOp s r)) := by
  unfold fetchGroupOp
  dsimp only
  (repeat' split) <;> simp [h]

@[simp] theorem keeps_takeTiles {s : State} (h : H.Keeps (held s)) (r unit rows : Nat) (ks : Nat) (c : Nat)
    (l : List (Nat × Nat)) :
    H.Keeps (held (takeTiles s r unit rows ks c l)) := by
  unfold takeTiles
  refine keeps_foldl _ _ (fun t x => ?_) h
  exact (Held.Keeps.refl _).coreMem (tabOk_filter _)

@[simp] theorem keeps_accAllocateOp {s : State} (h : H.Keeps (held s)) (r : Nat) : H.Keeps (held (accAllocateOp s r)) := by
  unfold accAllocateOp
  split
  · exact h
  · split
    · exact h
    · dsimp only
      split
      · simp only [held_putRun, held_ite, held_modCore, ite_self]
        refine keeps_foldl _ _ (fun t c => ?_) h
        split <;> simp
      · simp [h]

@[simp] theorem keeps_addPart {s : State} (h : H.Keeps (held s)) (c tile row cols : Nat) (vals : List Int) :
    H.Keeps (held (addPart s c tile row cols vals)) := by simp [addPart, h]

@[simp] theorem keeps_passStep {s : State} (h : H.Keeps (held s)) (c : Nat) (x : Step) (vals : List (List Int)) :
    H.Keeps (held (passStep s c x vals)) := by
  unfold passStep
  dsimp only
  (repeat' split) <;> simp [h]

@[simp] theorem keeps_destPut {s : State} (h : H.Keeps (held s)) (id : Nat) (q : Req) (a : Nat) (l : List Byte) :
    H.Keeps (held (destPut s id q a l)) := by simp [destPut, h]

@[simp] theorem keeps_putRow {s : State} (h : H.Keeps (held s)) (id : Nat) (l : LayerRec) (row nt : Nat) (bytes : List Byte) :
    H.Keeps (held (putRow s id l row nt bytes)) := by
  unfold putRow
  split
  · exact h
  · dsimp only
    split
    · exact keeps_destPut h ..
    · refine keeps_foldl _ _ (fun t i => ?_) h
      split <;> simp

@[simp] theorem keeps_landTileRows {s : State} (h : H.Keeps (held s)) (req slot layer mb nt : Nat) (own : Bool)
    (rows : List (Nat × List Byte)) :
    H.Keeps (held (landTileRows s req slot layer mb nt own rows)) := by
  unfold landTileRows
  (repeat' split) <;> simp [h]

@[simp] theorem keeps_landStripe {s : State} (h : H.Keeps (held s)) (n : Nat) (d : StripeDue) (slot layer : Nat)
    (lines : List (List Byte)) :
    H.Keeps (held (landStripe s n d slot layer lines)) := by
  unfold landStripe
  dsimp only
  (repeat' split) <;> simp [h]

@[simp] theorem keeps_landCargo {s : State} (h : H.Keeps (held s)) (c : Cargo) : H.Keeps (held (landCargo s c)) := by
  unfold landCargo
  split <;> simp [h]

@[simp] theorem keeps_landArrivals {s : State} (h : H.Keeps (held s)) : H.Keeps (held (landArrivals s)) := by
  simp [landArrivals, h]

@[simp] theorem keeps_sendCargo {s : State} (h : H.Keeps (held s)) (src : Nat) (dests : List Nat) (req : Option Nat)
    (bytes : Nat) (cargo : List (Nat × Cargo)) :
    H.Keeps (held (sendCargo s src dests req bytes cargo)) := by simp [sendCargo, h]

@[simp] theorem keeps_tileDeliveryOp {s : State} (h : H.Keeps (held s)) (c : Nat) : H.Keeps (held (tileDeliveryOp s c)) := by
  unfold tileDeliveryOp
  dsimp only
  (repeat' split) <;> simp [h]

/-! ### Engine -/

@[simp] theorem keeps_partDone {s : State} (h : H.Keeps (held s)) (k id pid : Nat) (p : PartSt) (vals : List Int)
    (sats : List Bool) :
    H.Keeps (held (partDone s k id pid p vals sats)) := by
  unfold partDone
  dsimp only
  (repeat' split) <;> simp [h]

@[simp] theorem keeps_skipPart {s : State} (h : H.Keeps (held s)) (k pid : Nat) (p : PartSt) :
    H.Keeps (held (skipPart s k pid p)) := by
  simp [skipPart, h]

@[simp] theorem keeps_readIntegrateOp {s : State} (h : H.Keeps (held s)) (k : Nat) : H.Keeps (held (readIntegrateOp s k)) := by
  unfold readIntegrateOp
  dsimp only
  (repeat' split) <;> simp [h]

@[simp] theorem keeps_finishPart {s : State} (h : H.Keeps (held s)) (k pid : Nat) (p : PartSt) (r : StepRun) (tol : Nat) :
    H.Keeps (held (finishPart s k pid p r tol)) := by simp [finishPart, h]

@[simp] theorem keeps_saturationOp {s : State} (h : H.Keeps (held s)) (k : Nat) (errs : List Int) :
    H.Keeps (held (saturationOp s k errs)) := by
  unfold saturationOp
  dsimp only
  split
  · exact h
  · split
    · exact h
    · refine keeps_of_ite h ?_
      split
      · simpa only [held_putEng] using h
      · split
        · simpa only [held_putEng] using h
        · refine keeps_of_ite ?_ (keeps_of_ite ?_ (keeps_of_ite (keeps_of_ite (keeps_finishPart ?_ ..) ?_)
            (keeps_of_ite (keeps_finishPart ?_ ..) ?_)))
          all_goals
            simpa only [held_replacePart, held_count, held_modEng, held_putEng, held_ite, held_onReq, held_setQual, implies_true,
              ite_self] using h

/-! ### Plates -/

@[simp] theorem keeps_plateDone {s : State} (h : H.Keeps (held s)) (k p : Nat) (touch : Bool) (codes : List Int) (remap : W32) :
    H.Keeps (held (plateDone s k p touch codes remap)) := by
  unfold plateDone
  dsimp only
  rw [held_reexamine, held_modEng]
  split
  · simpa using h
  · refine Held.Keeps.weights (b := held (putPlate s _ _)) (by simpa using h) ?_
    exact bytesOk_foldl_tset _ _ _

@[simp] theorem keeps_eraseCells {s : State} (h : H.Keeps (held s)) (key : Nat) : H.Keeps (held (eraseCells s key)) := by
  exact h.weights (tabOk_filter _)

@[simp] theorem keeps_writeRow {s : State} (h : H.Keeps (held s)) (key r : Nat) (codes : List Int) :
    H.Keeps (held (writeRow s key r codes)) := by
  exact h.weights (bytesOk_foldl_tset _ _ _)

@[simp] theorem keeps_nextRow {s : State} (h : H.Keeps (held s)) (k : Nat) (g : Prog) : H.Keeps (held (nextRow s k g)) := by
  simp [nextRow, h]

@[simp] theorem keeps_serveFails {s : State} (h : H.Keeps (held s)) (k : Nat) (g : Prog) : H.Keeps (held (serveFails s k g)) := by
  unfold serveFails
  (repeat' split) <;> simp [h]

@[simp] theorem keeps_endRow {s : State} (h : H.Keeps (held s)) (k : Nat) (g : Prog) : H.Keeps (held (endRow s k g)) := by
  unfold endRow
  split <;> simp [h]

@[simp] theorem keeps_eraseSegmentOp {s : State} (h : H.Keeps (held s)) (k : Nat) (codes : List Int) :
    H.Keeps (held (eraseSegmentOp s k codes)) := by
  unfold eraseSegmentOp
  dsimp only
  (repeat' split) <;> simp [h]

@[simp] theorem keeps_pulsePairOp {s : State} (h : H.Keeps (held s)) (k : Nat) (codes : List Int) :
    H.Keeps (held (pulsePairOp s k codes)) := by
  unfold pulsePairOp
  dsimp only
  (repeat' split) <;> simp [h]

@[simp] theorem keeps_finishTouch {s : State} (h : H.Keeps (held s)) (k : Nat) (j : Job) (before after : List Int) :
    H.Keeps (held (finishTouch s k j before after)) := by simp [finishTouch, h]

@[simp] theorem keeps_touchUpOp {s : State} (h : H.Keeps (held s)) (k : Nat) (before after : List Int) :
    H.Keeps (held (touchUpOp s k before after)) := by
  unfold touchUpOp
  dsimp only
  (repeat' split) <;> simp [h]

/-! ### Memory -/

@[simp] theorem keeps_slowDeliver {s : State} (h : H.Keeps (held s)) : H.Keeps (held (slowDeliver s)) := by
  unfold slowDeliver
  (repeat' split) <;> simp [h]

@[simp] theorem keeps_slowDrain {s : State} (h : H.Keeps (held s)) : H.Keeps (held (slowDrain s)) := by simp [slowDrain, h]

@[simp] theorem keeps_slowBlockOp {s : State} (h : H.Keeps (held s)) (r : Nat) : H.Keeps (held (slowBlockOp s r)) := by
  unfold slowBlockOp
  dsimp only
  (repeat' split) <;> simp [h]

/-! ### Dies -/

@[simp] theorem keeps_clearDie {s : State} (h : H.Keeps (held s)) (d : Nat) : H.Keeps (held (clearDie s d)) := by
  unfold clearDie
  refine Held.Keeps.coreMem (b := held (putDie _ d _)) ?_ (tabOk_filter _)
  simpa using h

@[simp] theorem keeps_dieOff {s : State} (h : H.Keeps (held s)) (d code : Nat) (st : DieSt) :
    H.Keeps (held (dieOff s d code st)) := by
  simp [dieOff, h]

@[simp] theorem keeps_leaveOut {s : State} (h : H.Keeps (held s)) (d code : Nat) : H.Keeps (held (leaveOut s d code)) := by
  simp [leaveOut, h]

@[simp] theorem keeps_bootDieReset {s : State} (h : H.Keeps (held s)) (w : W32) : H.Keeps (held (bootDieReset s w)) := by
  simp [bootDieReset, h]

@[simp] theorem keeps_linkDown {s : State} (h : H.Keeps (held s)) (i : Nat) : H.Keeps (held (linkDown s i)) := by
  simp [linkDown, h]

@[simp] theorem keeps_linkRetrainOp {s : State} (h : H.Keeps (held s)) (i : Nat) (ok : Bool) :
    H.Keeps (held (linkRetrainOp s i ok)) := by simp [linkRetrainOp, h]

/-! ### Camera -/

@[simp] theorem keeps_writeLine {s : State} (h : H.Keeps (held s)) (n l : Nat) (bytes : List Byte) :
    H.Keeps (held (writeLine s n l bytes)) := by
  unfold writeLine
  exact (keeps_pkgPut h ..).ingest (bytesOk_putBytes _ _)

@[simp] theorem keeps_writeRecord {s : State} (h : H.Keeps (held s)) (n : Nat) : H.Keeps (held (writeRecord s n)) := by
  exact keeps_pkgPut (keeps_pkgPut (keeps_pkgPut h ..) ..) ..

@[simp] theorem keeps_closeFrame {s : State} (h : H.Keeps (held s)) (n : Nat) : H.Keeps (held (closeFrame s n)) := by
  have hl (x : Stream) (l : List Nat) : H.Keeps (held (l.foldl (fun s l =>
      let s := noteBad s n l
      if camPolicy s n = 2 then dropFrom s n l
      else if x.lines % 16 ≠ 0 ∧ l / 16 = x.lines / 16 then writeLine s n l (fillBytes s n l)
      else pkgPut s (lineAddr s n x.frame.toNat l) (fillBytes s n l)) s)) := by
    refine keeps_foldl _ _ (fun t l => ?_) h
    dsimp only
    refine keeps_of_ite ?_ (keeps_of_ite (keeps_writeLine ?_ ..) (keeps_pkgPut ?_ ..))
    all_goals simp
  have hw {t : State} (ht : H.Keeps (held t)) : H.Keeps (held (modStream (writeRecord t n) n fun x =>
      { x with isOpen := false, pendLine := none })) := by
    rw [held_modStream]
    exact keeps_writeRecord ht n
  unfold closeFrame
  refine keeps_of_ite ?_ (hw ?_)
  · rw [held_loseFrame]
    exact hw (keeps_of_ite (by rw [held_dueStripe]; exact hl ..) (hl ..))
  · exact keeps_of_ite (by rw [held_dueStripe]; exact hl ..) (hl ..)

@[simp] theorem keeps_endFrame {s : State} (h : H.Keeps (held s)) (n : Nat) : H.Keeps (held (endFrame s n)) := by
  simp [endFrame, h]

@[simp] theorem keeps_openFrame {s : State} (h : H.Keeps (held s)) (n : Nat) : H.Keeps (held (openFrame s n)) := by
  simp [openFrame, h]

@[simp] theorem keeps_onPacket {s : State} (h : H.Keeps (held s)) (n : Nat) (fixed : Bool) (f : State → State)
    (hf : ∀ t, (held t).Keeps (held (f t))) : H.Keeps (held (onPacket s n fixed f)) := by
  unfold onPacket
  have hr := h.trans ((held_headerOf s n fixed).symm ▸ hf (headerOf s n fixed).1)
  simp [h, hr]

@[simp] theorem keeps_frameStartOp {s : State} (h : H.Keeps (held s)) (n : Nat) (fixed : Bool) :
    H.Keeps (held (frameStartOp s n fixed)) :=
  keeps_onPacket h _ _ _ fun t => by simp

@[simp] theorem keeps_frameEndOp {s : State} (h : H.Keeps (held s)) (n : Nat) (fixed : Bool) :
    H.Keeps (held (frameEndOp s n fixed)) := by
  exact keeps_onPacket h _ _ _ fun t => by simp

@[simp] theorem keeps_embeddedLine {s : State} (h : H.Keeps (held s)) (n : Nat) (bytes : List Byte) :
    H.Keeps (held (embeddedLine s n bytes)) := by simp [embeddedLine, h]

@[simp] theorem keeps_imageLine {s : State} (h : H.Keeps (held s)) (n : Nat) (bytes : List Byte) (crcOk : Bool) :
    H.Keeps (held (imageLine s n bytes crcOk)) := by simp [imageLine, h]

@[simp] theorem keeps_longPacketOp {s : State} (h : H.Keeps (held s)) (p : Packet) : H.Keeps (held (longPacketOp s p)) := by
  exact keeps_onPacket h _ _ _ fun t => by simp

@[simp] theorem keeps_stripePushOp {s : State} (h : H.Keeps (held s)) (n k : Nat) : H.Keeps (held (stripePushOp s n k)) := by
  unfold stripePushOp
  dsimp only
  (repeat' split) <;> simp [h]

@[simp] theorem keeps_streamLostOp {s : State} (h : H.Keeps (held s)) (n : Nat) : H.Keeps (held (streamLostOp s n)) := by
  simp [streamLostOp, h]

/-! ### Sillage -/

@[simp] theorem keeps_frozenVerdict {s : State} (h : H.Keeps (held s)) (n : Nat) (f : BitVec 16) (cnt : Option Nat) (sig : W32)
    (width : Nat) :
    H.Keeps (held (frozenVerdict s n f cnt sig width)) := by
  unfold frozenVerdict
  dsimp only
  (repeat' split) <;> simp [h]

@[simp] theorem keeps_frameJob {s : State} (h : H.Keeps (held s)) (u t n : Nat) (f : BitVec 16) :
    H.Keeps (held (frameJob s u t n f)) := by
  unfold frameJob
  dsimp only
  (repeat' split) <;> simp [h]

@[simp] theorem keeps_jobEndOp {s : State} (h : H.Keeps (held s)) (u : Nat) (readError : Bool) :
    H.Keeps (held (jobEndOp s u readError)) := by
  unfold jobEndOp
  dsimp only
  (repeat' split) <;> simp [h]

/-! ### Security -/

@[simp] theorem keeps_attestOp {s : State} (h : H.Keeps (held s)) (id : Nat) : H.Keeps (held (attestOp s id)) := by
  unfold attestOp
  split <;> simp [h]

/-! ### Flacon -/

@[simp] theorem keeps_shardOp {s : State} (h : H.Keeps (held s)) (id : Nat) : H.Keeps (held (shardOp s id)) := by
  unfold shardOp
  dsimp only
  (repeat' split) <;> simp [h]

/-! ### Power -/

@[simp] theorem keeps_thermalOff {s : State} (h : H.Keeps (held s)) (d : Nat) : H.Keeps (held (thermalOff s d)) := by
  simp [thermalOff, h]

@[simp] theorem keeps_shutdown {s : State} (h : H.Keeps (held s)) (d cause : Nat) : H.Keeps (held (shutdown s d cause)) := by
  simp [shutdown, h]

@[simp] theorem keeps_housekeepingOp {s : State} (h : H.Keeps (held s)) (d : Nat) (temp : Int) (vcore varr : Nat)
    (biasOk : Bool) :
    H.Keeps (held (housekeepingOp s d temp vcore varr biasOk)) := by
  unfold housekeepingOp
  dsimp only
  (repeat' split) <;> simp [h]

@[simp] theorem keeps_dieSupplyReset {s : State} (h : H.Keeps (held s)) (d b : Nat) : H.Keeps (held (dieSupplyReset s d b)) := by
  unfold dieSupplyReset
  dsimp only
  (repeat' split) <;> simp [h]

@[simp] theorem keeps_coldState {s : State} (h : H.Keeps (held s)) (keepTb keepMem : Bool) :
    H.Keeps (held (coldState s keepTb keepMem)) := by
  have hc : H.Keeps (held (cutTouches s s.engines)) := by rwa [held_cutTouches]
  unfold coldState
  simp only [held_keepStored, held_recordSlots, held_setProfile, held_ite, held_rset, ite_self]
  refine ⟨hc.part, hc.pending, fun k => ?_⟩
  obtain ⟨hh, hp, -, hw, -⟩ := hc.form k
  refine ⟨hh, ?_, rfl, hw, rfl⟩
  cases keepMem
  · rfl
  · exact hp

@[simp] theorem keeps_holdInReset {s : State} (h : H.Keeps (held s)) (m : Option Supply) : H.Keeps (held (holdInReset s m)) := by
  simp [holdInReset, h]

@[simp] theorem keeps_supplyResetOp {s : State} (h : H.Keeps (held s)) (m : Supply) : H.Keeps (held (supplyResetOp s m)) := by
  unfold supplyResetOp
  split <;> simp [h]

@[simp] theorem keeps_gateDie {s : State} (h : H.Keeps (held s)) (d : Nat) : H.Keeps (held (gateDie s d)) := by simp [gateDie, h]

@[simp] theorem keeps_enterVigil {s : State} (h : H.Keeps (held s)) : H.Keeps (held (enterVigil s)) := by
  exact (keeps_coldState h true true).pkgMem fun _ => rfl

@[simp] theorem keeps_entryOp {s : State} (h : H.Keeps (held s)) : H.Keeps (held (entryOp s)) := by
  have hg (l : List Nat) : H.Keeps (held (l.foldl gateDie s)) := keeps_foldl _ _ (fun t d => keeps_gateDie (.refl _) d) h
  unfold entryOp
  split
  · split
    · exact h
    · split
      · simp [h]
      · simp [h]
      · simp [h]
      · simp [hg]
      · simp [hg]
      · exact keeps_enterVigil (hg _)
  · exact h

@[simp] theorem keeps_pavTempOp {s : State} (h : H.Keeps (held s)) (temp : Int) : H.Keeps (held (pavTempOp s temp)) := by
  unfold pavTempOp
  refine keeps_of_ite h (keeps_of_ite ?_ ?_)
  · split <;> simp [h]
  · simp only [held_update]
    refine keeps_enterVigil (keeps_foldl _ _ (fun t d => ?_) ?_)
    · split <;> simp
    · simp only [held_update, held_logShutdown, held_ite, held_ev, held_modPwr, held_rset, ite_self, h]

/-! ### Boot -/

@[simp] theorem keeps_powerOn {s : State} (h : H.Keeps (held s)) (cause : Nat) : H.Keeps (held (powerOn s cause)) := by
  simp [powerOn, h]

@[simp] theorem keeps_powerOnResetOp {s : State} (h : H.Keeps (held s)) : H.Keeps (held (powerOnResetOp s)) := by
  simp [powerOnResetOp, h]

@[simp] theorem keeps_sysRstOp {s : State} (h : H.Keeps (held s)) : H.Keeps (held (sysRstOp s)) := by simp [sysRstOp, h]

@[simp] theorem keeps_perstAssertOp {s : State} (h : H.Keeps (held s)) : H.Keeps (held (perstAssertOp s)) := by
  simp [perstAssertOp, h]

@[simp] theorem keeps_watchdogOp {s : State} (h : H.Keeps (held s)) : H.Keeps (held (watchdogOp s)) := by simp [watchdogOp, h]
@[simp] theorem keeps_retryOp {s : State} (h : H.Keeps (held s)) : H.Keeps (held (retryOp s)) := by simp [retryOp, h]

@[simp] theorem keeps_sysclkLossOp {s : State} (h : H.Keeps (held s)) : H.Keeps (held (sysclkLossOp s)) := by
  simp [sysclkLossOp, h]

@[simp] theorem keeps_sysclkReturnOp {s : State} (h : H.Keeps (held s)) : H.Keeps (held (sysclkReturnOp s)) := by
  simp [sysclkReturnOp, h]

/-! ### Action -/

@[simp] theorem keeps_completionStep {s : State} (h : H.Keeps (held s)) (id : Nat) : H.Keeps (held (completionStep s id)) := by
  simp [completionStep, h]

/-! ### Quant -/

@[simp] theorem keeps_putHist {s : State} (h : H.Keeps (held s)) (c : Nat) (g : QSlotEnt) (k : Nat) (l : List W32) :
    H.Keeps (held (putHist s c g k l)) := by simp [putHist, h]

@[simp] theorem keeps_putCode {s : State} (h : H.Keeps (held s)) (c : Nat) (g : QSlotEnt) (tiles : List Nat) (off : Nat)
    (code : Int) :
    H.Keeps (held (putCode s c g tiles off code)) := by simp [putCode, h]

@[simp] theorem keeps_quantOne {s : State} (h : H.Keeps (held s)) (c key : Nat) (tiles : List Nat) (off : Nat) (x : W32) :
    H.Keeps (held (quantOne s c key tiles off x).1) := by
  unfold quantOne
  dsimp only
  (repeat' split) <;> simp [h]

@[simp] theorem keeps_requantise {s : State} (h : H.Keeps (held s)) (c : Nat) (q : QSlot) (tiles : List Nat) (k : Nat)
    (sc : W32) :
    H.Keeps (held (requantise s c q tiles k sc)) := by simp [requantise, h]

@[simp] theorem keeps_putScale {s : State} (h : H.Keeps (held s)) (c : Nat) (g : QSlotEnt) (k : Nat) (v : W32) :
    H.Keeps (held (putScale s c g k v)) := by simp [putScale, h]

@[simp] theorem keeps_endScale {s : State} (h : H.Keeps (held s)) (c key n req : Nat) (tiles : List Nat) (k : Nat) (a : W32)
    (empty : Bool) :
    H.Keeps (held (endScale s c key n req tiles k a empty).1) := by
  unfold endScale
  split
  · exact h
  · next q _ =>
    have push {t : State} (ht : H.Keeps (held t)) (l : List W32) : H.Keeps (held (if q.cfg.gran = 2 then t else
        modQ (putHist t c q.cfg k l) key fun q => { q with hist := tset [] q.hist k l })) :=
      keeps_of_ite ht (by simpa only [held_modQ] using keeps_putHist ht ..)
    dsimp only
    split
    · refine push ?_ _
      rw [held_setQual, held_count]
      exact keeps_putScale (keeps_foldl _ _ (fun t o => keeps_putCode (.refl _) ..) h) ..
    · split
      · exact push (keeps_putScale (keeps_requantise h ..) ..) _
      · split
        · split
          · refine push (keeps_putScale (keeps_requantise ?_ ..) ..) _
            simpa only [held_ite, held_ev, held_count, ite_self] using h
          · refine push (keeps_putScale ?_ ..) _
            simpa only [held_setQual, held_ite, held_ev, held_count, ite_self] using h
        · refine push ?_ _
          simpa only [held_setQual, held_ite, held_ev, held_count, ite_self] using keeps_putScale h ..

@[simp] theorem keeps_vqendIssue {s : State} (h : H.Keeps (held s)) (c : Nat) (f : VF) : H.Keeps (held (vqendIssue s c f)) := by
  unfold vqendIssue
  dsimp only
  (repeat' split) <;> simp [h]

/-! ### Host -/

@[simp] theorem keeps_pairCommit {s : State} (h : H.Keeps (held s)) (k : Kind) (p lo v : Nat) :
    H.Keeps (held (pairCommit s k p lo v)) := by simp [pairCommit, h]

@[simp] theorem keeps_blockAct {s : State} (h : H.Keeps (held s)) (k : Kind) (i p off : Nat) (new eff : W32) :
    H.Keeps (held (blockAct s k i p off new eff)) := by
  unfold blockAct
  (repeat' split) <;> simp [h]

@[simp] theorem keeps_blockWrite {s : State} (h : H.Keeps (held s)) (k : Kind) (i p off : Nat) (r : RegRow) (dw : Dw) :
    H.Keeps (held (blockWrite s k i p off r dw)) := by simp [blockWrite, h]

@[simp] theorem keeps_slotWrite {s : State} (h : H.Keeps (held s)) (n o : Nat) (new : W32) :
    H.Keeps (held (slotWrite s n o new)) := by
  simp [slotWrite, h]

@[simp] theorem keeps_ringWrite {s : State} (h : H.Keeps (held s)) (p off : Nat) (r : RegRow) (dw : Dw) :
    H.Keeps (held (ringWrite s p off r dw)) := by simp [ringWrite, h]

@[simp] theorem keeps_writeDw {s : State} (h : H.Keeps (held s)) (p off : Nat) (dw : Dw) : H.Keeps (held (writeDw s p off dw)) := by
  unfold writeDw
  (repeat' split) <;> simp [h]

@[simp] theorem keeps_writeDws {s : State} (h : H.Keeps (held s)) (p off : Nat) (l : List Dw) :
    H.Keeps (held (writeDws s p off l)) := by
  induction l generalizing s off with
  | nil => exact h
  | cons d l ih => exact ih (by simp [h]) _

@[simp] theorem keeps_bar0Write {s : State} (h : H.Keeps (held s)) (addr : Nat) (dws : List Dw) :
    H.Keeps (held (bar0Write s addr dws)) := by
  unfold bar0Write
  dsimp only
  (repeat' split) <;> simp [h]

@[simp] theorem keeps_accessNow {s : State} (h : H.Keeps (held s)) (a : Access) : H.Keeps (held (accessNow s a)) := by
  unfold accessNow
  split <;> simp [h]

@[simp] theorem keeps_hostWrite {s : State} (h : H.Keeps (held s)) (bar addr : Nat) (dws : List Dw) :
    H.Keeps (held (hostWrite s bar addr dws)) := by simp [hostWrite, h]

@[simp] theorem keeps_hostRead {s : State} (h : H.Keeps (held s)) (bar addr : Nat) (bes : List (BitVec 4)) :
    H.Keeps (held (hostRead s bar addr bes)) := by simp [hostRead, h]

@[simp] theorem keeps_runWaiting {s : State} (h : H.Keeps (held s)) : H.Keeps (held (runWaiting s)) := by simp [runWaiting, h]

@[simp] theorem keeps_exitDoneHost {s : State} (h : H.Keeps (held s)) : H.Keeps (held (exitDoneHost s)) := by
  simp [exitDoneHost, h]

@[simp] theorem keeps_regWrite {s : State} (h : H.Keeps (held s)) (p off : Nat) (dw : Dw) :
    H.Keeps (held (regWrite s p off dw)) := by
  simp [regWrite, h]

@[simp] theorem keeps_wordWrite {s : State} (h : H.Keeps (held s)) (p off : Nat) (w : W32) :
    H.Keeps (held (wordWrite s p off w)) := by
  simp [wordWrite, h]

@[simp] theorem keeps_regRead {s : State} (h : H.Keeps (held s)) (p off : Nat) (be : BitVec 4) :
    H.Keeps (held (regRead s p off be)) := by simp [regRead, h]

@[simp] theorem keeps_hostReadErrorOp {s : State} (h : H.Keeps (held s)) (o : ReadOwner) :
    H.Keeps (held (hostReadErrorOp s o)) := by
  unfold hostReadErrorOp
  (repeat' split) <;> simp [h]

end

/-! ### The vector unit -/

/-- An operation of the vector unit that answers a state keeps what is held. -/
def ActKeeps (act : VAct) : Prop := ∀ f c k s t, act f c k s = some t → (held s).Keeps (held t)

theorem actKeeps_lanes (g : Core → VF → Nat → W32) : ActKeeps (lanes g) := by
  rintro f c k s t ⟨⟩
  simp

theorem actKeeps_reduce (h : VF → W32 → W32 → W32) (z : VF → W32) (g : W32 → W32) : ActKeeps (reduce h z g) := by
  rintro f c k s t ⟨⟩
  simp

theorem keeps_ite_some {c : Prop} [Decidable c] {s t u : State} (h : (if c then some u else none) = some t)
    (hu : (held s).Keeps (held u)) : (held s).Keeps (held t) := by
  split at h
  · cases h
    exact hu
  · cases h

theorem actKeeps_vld : ActKeeps vldAct := fun _ _ _ _ _ h => keeps_ite_some h (by simp)
theorem actKeeps_vldb : ActKeeps vldbAct := fun _ _ _ _ _ h => keeps_ite_some h (by simp)
theorem actKeeps_vlut : ActKeeps vlutAct := fun _ _ _ _ _ h => keeps_ite_some h (by simp)
theorem actKeeps_vst : ActKeeps vstAct := fun _ _ _ _ _ h => keeps_ite_some h (by simp)
theorem actKeeps_nop : ActKeeps nopAct := by
  rintro f c k s t ⟨⟩
  rfl
theorem actKeeps_vcmp : ActKeeps vcmpAct := by
  rintro f c k s t ⟨⟩
  simp
theorem actKeeps_vsel : ActKeeps vselAct := by
  rintro f c k s t ⟨⟩
  simp
theorem actKeeps_smov : ActKeeps smovAct := by
  rintro f c k s t ⟨⟩
  simp
theorem actKeeps_sadd : ActKeeps saddAct := by
  rintro f c k s t ⟨⟩
  simp
theorem actKeeps_vcvt : ActKeeps vcvtAct := by
  rintro f c k s t ⟨⟩
  simp
theorem actKeeps_vqnt : ActKeeps vqntAct := by
  intro f c k s t h
  unfold vqntAct at h
  split at h
  · cases h
    rfl
  · cases h
    simp only [held_noteNans, held_putCore]
    refine keeps_foldl_fst _ _ (fun r i => ?_) (by simp)
    exact keeps_quantOne (.refl _) ..
theorem actKeeps_vqscale : ActKeeps vqscaleAct := by
  intro f c k s t h
  unfold vqscaleAct at h
  split at h
  · cases h
    rfl
  · split at h
    · cases h
      simp
    · cases h
      simp

theorem keeps_issue {act : VAct} (h : ActKeeps act) (s : State) (c op : Nat) (f : VF) :
    (held s).Keeps (held (issue s c op f act)) := by
  unfold issue
  split
  · dsimp only
    split
    · simp
    · next t ht =>
      have hc := h _ _ _ _ _ ht
      rw [held_count64] at hc
      rwa [held_vecNext]
  · rfl
@[simp] theorem keeps_clocked {H : Held} {s t : State} (hs : H.Keeps (held s)) (ht : H.Keeps (held t)) :
    H.Keeps (held (clocked s t)) := keeps_of_ite ht hs

/-! ### Every command -/

/-- Every command answers a next state, its events taken, and keeps what is held. Only the vector operations need more than the
rules of the functions that they call: what they do is an argument of `issue`. -/
theorem exec_done (i : Instr) (s : State) : ∃ t, exec i s = done t ∧ (held s).Keeps (held t) := by
  cases i with
  | vecNop => exact ⟨_, rfl, keeps_issue actKeeps_nop ..⟩
  | vld => exact ⟨_, rfl, keeps_issue actKeeps_vld ..⟩
  | vldb => exact ⟨_, rfl, keeps_issue actKeeps_vldb ..⟩
  | vst => exact ⟨_, rfl, keeps_issue actKeeps_vst ..⟩
  | vlut => exact ⟨_, rfl, keeps_issue actKeeps_vlut ..⟩
  | vcmp => exact ⟨_, rfl, keeps_issue actKeeps_vcmp ..⟩
  | vsel => exact ⟨_, rfl, keeps_issue actKeeps_vsel ..⟩
  | vcvt => exact ⟨_, rfl, keeps_issue actKeeps_vcvt ..⟩
  | smov => exact ⟨_, rfl, keeps_issue actKeeps_smov ..⟩
  | sadd => exact ⟨_, rfl, keeps_issue actKeeps_sadd ..⟩
  | vqnt => exact ⟨_, rfl, keeps_issue actKeeps_vqnt ..⟩
  | vqscale => exact ⟨_, rfl, keeps_issue actKeeps_vqscale ..⟩
  | vrsum | vrmax | vramax => exact ⟨_, rfl, keeps_issue (actKeeps_reduce _ _ _) ..⟩
  | vadd | vsub | vmul | vmac | vmin | vmax | vabs | vneg | vdot | vdiv | vand | vor | vxor | vshl | vshra | vshrr | vexp | vlog
  | vrcp | vrsqrt | vtanh | verf | vsqrt | vslide | vbcast => exact ⟨_, rfl, keeps_issue (actKeeps_lanes _) ..⟩
  | issueVerdict id =>
    show ∃ t, execIssueVerdict id s = done t ∧ (held s).Keeps (held t)
    unfold execIssueVerdict
    split
    · split
      · exact ⟨_, rfl, by simp⟩
      · exact ⟨s, rfl, .refl _⟩
    · exact ⟨s, rfl, .refl _⟩
  | _ => exact ⟨_, rfl, by simp⟩

/-! ### What lets an empty step raise no event -/

@[simp] theorem ite_evq (c : Prop) [Decidable c] (s t : State) : (if c then s else t).evq = if c then s.evq else t.evq :=
  apply_ite State.evq c s t

@[simp] theorem foldl_evq {α : Type} (l : List α) (f : State → α → State) (h : ∀ s x, (f s x).evq = s.evq) (s : State) :
    (l.foldl f s).evq = s.evq := by
  induction l generalizing s with
  | nil => rfl
  | cons x l ih => rw [List.foldl_cons, ih, h]

@[simp] theorem mapEngines_evq (s : State) (p : Nat → Bool) (f : Engine → Engine) : (mapEngines s p f).evq = s.evq := rfl
@[simp] theorem putCtr_evq (s : State) (k : Nat) (v : Ctr) : (putCtr s k v).evq = s.evq := rfl
@[simp] theorem corePut_evq (s : State) (c a : Nat) (l : List Byte) : (corePut s c a l).evq = s.evq := by simp only [corePut]
@[simp] theorem pkgPut_evq (s : State) (a : Nat) (l : List Byte) : (pkgPut s a l).evq = s.evq := rfl
@[simp] theorem tick_evq (s : State) : (tick s).evq = s.evq := by simp [tick]
@[simp] theorem pruneLanding_evq (s : State) : (pruneLanding s).evq = s.evq := rfl

@[simp] theorem modReq_evq (s : State) (id : Nat) (f : Req → Req) : (modReq s id f).evq = s.evq := by
  unfold modReq
  split <;> simp

@[simp] theorem finishReq_evq (s : State) (id : Nat) : (finishReq s id).evq = s.evq := by simp [finishReq]
@[simp] theorem noteOut_evq (s : State) (id a : Nat) (l : List Byte) : (noteOut s id a l).evq = s.evq := by simp [noteOut]
@[simp] theorem slowReady_evq (s : State) (r mb : Nat) : (slowReady s r mb).evq = s.evq := by simp [slowReady]
@[simp] theorem landTo_evq (s : State) (w : Run) (mb n : Nat) : (landTo s w mb n).evq = s.evq := by simp [landTo]
@[simp] theorem landTile_evq (s : State) (w : Run) (mb : Nat) : (landTile s w mb).evq = s.evq := by simp [landTile]

@[simp] theorem takeFeed_evq (s : State) (f : Feed) (id : Nat) : (takeFeed s f id).evq = s.evq := by
  unfold takeFeed
  dsimp only
  split
  · split <;> simp
  · rfl

@[simp] theorem newFeed_evq (s : State) (f : Feed) : (newFeed s f).evq = s.evq := by
  unfold newFeed
  dsimp only
  split <;> simp

@[simp] theorem freeTilesOf_evq (s : State) (ids : List Nat) : (freeTilesOf s ids).evq = s.evq := by simp [freeTilesOf]

@[simp] theorem exhaustCtrs_evq (s : State) (id : Nat) : (exhaustCtrs s id).evq = s.evq := by
  unfold exhaustCtrs
  split
  · rfl
  · refine foldl_evq _ _ (fun t e => ?_) _
    split <;> simp

@[simp] theorem dropWork_evq (s : State) (id : Nat) : (dropWork s id).evq = s.evq := by simp [dropWork]

@[simp] theorem checkDone_evq (s : State) (id : Nat) : (checkDone s id).evq = s.evq := by
  unfold checkDone
  split <;> simp

@[simp] theorem destPut_evq (s : State) (id : Nat) (q : Req) (a : Nat) (l : List Byte) : (destPut s id q a l).evq = s.evq := by
  simp [destPut]

@[simp] theorem putRow_evq (s : State) (id : Nat) (l : LayerRec) (row nt : Nat) (bytes : List Byte) :
    (putRow s id l row nt bytes).evq = s.evq := by
  unfold putRow
  split
  · rfl
  · dsimp only
    split
    · simp
    · refine foldl_evq _ _ (fun t i => ?_) _
      split <;> simp

@[simp] theorem landTileRows_evq (s : State) (req slot layer mb nt : Nat) (own : Bool) (rows : List (Nat × List Byte)) :
    (landTileRows s req slot layer mb nt own rows).evq = s.evq := by
  unfold landTileRows
  dsimp only
  split
  · split <;> simp
  · split
    · simp
    · split
      · simp
      · split <;> simp

@[simp] theorem landStripe_evq (s : State) (n : Nat) (d : StripeDue) (slot layer : Nat) (lines : List (List Byte)) :
    (landStripe s n d slot layer lines).evq = s.evq := by
  unfold landStripe
  dsimp only
  split
  · rfl
  · split
    · simp
    · split
      · simp
      · split
        · split <;> simp
        · simp

@[simp] theorem landCargo_evq (s : State) (c : Cargo) : (landCargo s c).evq = s.evq := by
  cases c <;> simp [landCargo]

@[simp] theorem landArrivals_evq (s : State) : (landArrivals s).evq = s.evq := by simp [landArrivals]

@[simp] theorem fabricCycle_evq (s : State) : (fabricCycle s).evq = s.evq := by
  unfold fabricCycle
  split
  · rfl
  · exact foldl_evq _ _ (fun t l => putLink_evq ..) s

@[simp] theorem chargeCal_evq (s : State) (k : Nat) : (chargeCal s k).evq = s.evq := by
  unfold chargeCal
  dsimp only
  split <;> simp

@[simp] theorem chargeCals_evq (s : State) : (chargeCals s).evq = s.evq := by simp [chargeCals]

/-! ### Every step -/

theorem memory_wf_iff (s : State) : Memory.wf s = true ↔
    bytesOk s.hostMem ∧ bytesOk s.pkgMem ∧ bytesOk s.coreMem ∧ bytesOk s.weights ∧ bytesOk s.ingest := by
  simp only [Memory.wf, Bool.and_eq_true, and_assoc]

theorem Held.Keeps.wf {s t : State} (h : (held s).Keeps (held t)) (hs : Memory.wf s = true) : Memory.wf t = true :=
  (memory_wf_iff t).mpr (h.form ((memory_wf_iff s).mp hs))

/-- Settles O6: every command is `done` of a state that keeps what is held, and settling touches neither part nor queue. -/
theorem everyCommandCompletes : Obligations.EveryCommandCompletes := by
  intro i s
  obtain ⟨t, ht, hk⟩ := exec_done i s
  exact ⟨settle t, ht, (settle_part t).trans hk.part, (settle_pending t).trans hk.pending, settle_evq t⟩

/-- Settles O5: a command is settled at its end and keeps the stores' form; an empty step raises no event, and lands bytes
through stores that keep the form. -/
theorem stepKeepsInvariant : Obligations.StepKeepsInvariant := by
  intro s t ⟨hq, hm⟩ hstep
  unfold step at hstep
  split at hstep
  · cases hstep
    split
    · exact ⟨hq, hm⟩
    · have hq' : (landArrivals (fabricCycle (chargeCals (tick s)))).evq = [] := by simpa using hq
      exact ⟨hq', Held.Keeps.wf (by simp) hm⟩
  · next i l _ =>
    obtain ⟨u, hu, hk⟩ := exec_done i (s.withPending l)
    rw [hu] at hstep
    cases hstep
    refine ⟨settle_evq u, Held.Keeps.wf (s := s.withPending l) ?_ hm⟩
    rwa [held_settle]

end Sys2Proof.Laws
end

section
/-! The registers and the header words: reads after writes (R34, R42), the counters (R41), and what the events of a cycle leave in
PAGE_SEQ, PAGE_STICKY, PAGE_FIRST and PAGE_TS (R30 to R32). -/

namespace Sys2Proof.Laws

open Sys2Proof Sys2Proof.Machine

/-! ### Registers -/

theorem dwAddr_ne {p q a b : Nat} (ha : a < 4096) (hb : b < 4096) (ha4 : a % 4 = 0) (hb4 : b % 4 = 0) (h : p ≠ q ∨ a ≠ b) :
    dwAddr p a ≠ dwAddr q b := by
  rw [Ne, dwAddr_inj ha hb]
  omega

/-- Settles O8, by the rules for a word and for a pair. -/
theorem registerWriteFrame : Obligations.RegisterWriteFrame := by
  intro s p q off o hoff ho h4 ho4
  refine ⟨fun v => ⟨rget_rset_self .., fun h => rget_rset_other s v (dwAddr_ne (by omega) ho h4 ho4 h)⟩, fun v =>
    ⟨rget64_rset64 .., fun h => rget_rset64_other s v (dwAddr_ne (by omega) ho h4 ho4 (by omega)) ?_⟩⟩
  exact dwAddr_ne (by omega) ho (by omega) ho4 (by omega)

/-! ### The header words of a page that takes events -/

/-- PAGE_SEQ advances by one, however many events there are. -/
theorem rget_settlePage_seq (s : State) (p : Nat) (es : List Ev) : rget (settlePage s p es) p 0x1C = rget s p 0x1C + 1 := by
  have h1 : dwAddr p 0x18 ≠ dwAddr p 0x1C := dwAddr_ne (by omega) (by omega) rfl rfl (by omega)
  have h2 : dwAddr p 0x24 ≠ dwAddr p 0x1C := dwAddr_ne (by omega) (by omega) rfl rfl (by omega)
  have h3 : dwAddr p 0x28 ≠ dwAddr p 0x1C := dwAddr_ne (by omega) (by omega) rfl rfl (by omega)
  have h4 : dwAddr p (0x28 + 4) ≠ dwAddr p 0x1C := dwAddr_ne (by omega) (by omega) rfl rfl (by omega)
  unfold settlePage
  dsimp only
  split
  · rw [rget_rset_other _ _ h1, rget_rset_self]
  · rw [rget_rset64_other _ _ h3 h4, rget_rset_other _ _ h2, rget_rset_other _ _ h1, rget_rset_self]

/-- Events of one page reach no word of another. -/
theorem rget_settlePage_other (s : State) {p q : Nat} (es : List Ev) (h : p ≠ q) {o : Nat} (ho : o < 4096) :
    rget (settlePage s p es) q o = rget s q o := by
  have hne {a : Nat} (ha : a < 4096) : dwAddr p a ≠ dwAddr q o := fun e => h ((dwAddr_inj ha ho).mp e).1
  unfold settlePage rset64
  dsimp only
  split <;> simp [rget_rset_other, hne]

/-- Settles O9. -/
theorem countersStop : Obligations.CountersStop := by
  refine ⟨fun s p off n q o hoff ho h4 ho4 => ⟨rget_count_self .., fun h => ?_⟩, fun s p e es => ?_⟩
  · exact rget_count_other s n (dwAddr_ne hoff ho h4 ho4 h)
  · rw [rget_settlePage_seq, BitVec.toNat_add]
    rfl

/-! ### PAGE_SEQ over a whole cycle -/

theorem dieReach_congr {s t : State} (hp : t.part = s.part) (hd : t.dies = s.dies) (d : Nat) : dieReach t d = dieReach s d := by
  unfold dieReach dieAt
  rw [hp, hd]

/-- Which pages answer depends on the part and the dies alone. -/
theorem pageReach_congr {s t : State} (hp : t.part = s.part) (hd : t.dies = s.dies) (p : Nat) : pageReach t p = pageReach s p := by
  unfold pageReach
  split
  · rfl
  · split
    · rfl
    · exact dieReach_congr hp hd _

theorem pageReach_settlePage (s : State) (p : Nat) (es : List Ev) (q : Nat) : pageReach (settlePage s p es) q = pageReach s q := by
  have h := (settlePage_sameButHeads s p es).rest
  exact pageReach_congr (congrArg State.part h) (congrArg State.dies h) q

/-- A header word of a page after the events of some pages have been taken, each page once. -/
theorem rget_settle_fold {es : List Ev} {p o : Nat} {f : W32 → W32} (ho : o < 4096)
    (hf : ∀ s, rget (settlePage s p (es.filter fun e => e.page == p)) p o = f (rget s p o)) {l : List Nat} (hl : l.Nodup)
    (s : State) :
    rget (l.foldl (fun s p => if pageReach s p = .ok then settlePage s p (es.filter fun e => e.page == p) else s) s) p o =
      if p ∈ l ∧ pageReach s p = .ok then f (rget s p o) else rget s p o := by
  induction l generalizing s with
  | nil => simp
  | cons q l ih =>
    obtain ⟨hq, hl⟩ := List.nodup_cons.mp hl
    rw [List.foldl_cons, ih hl]
    by_cases hr : pageReach s q = .ok
    · rw [if_pos hr, pageReach_settlePage]
      by_cases e : q = p
      · subst e
        simp [hq, hr, hf]
      · rw [rget_settlePage_other s _ e ho]
        simp [Ne.symm e]
    · rw [if_neg hr]
      by_cases e : q = p
      · subst e
        simp [hq, hr]
      · simp [Ne.symm e]

theorem mem_evPages {l : List Ev} {p : Nat} : p ∈ evPages l ↔ ∃ e ∈ l, e.page = p := by
  simp [evPages]

/-- A header word of a page that takes its events. -/
theorem rget_settle_word {s : State} {p o : Nat} {f : W32 → W32} (ho : o < 4096)
    (hf : ∀ t, rget (settlePage t p (s.evq.filter fun e => e.page == p)) p o = f (rget t p o)) :
    rget (settle s) p o = if (∃ e ∈ s.evq, e.page = p) ∧ pageReach s p = .ok then f (rget s p o) else rget s p o := by
  have hl : (evPages s.evq).Nodup := List.nodup_dedup _
  have h := rget_settle_fold ho hf hl { s with evq := [] }
  simp only [mem_evPages] at h
  exact h

/-- Settles O10: the pages with an event are taken once each, and each takes its events in one advance. -/
theorem pageSeqAdvancesOncePerCycle : Obligations.PageSeqAdvancesOncePerCycle := by
  intro s p
  exact rget_settle_word (f := (· + 1)) (by omega) fun t => rget_settlePage_seq t p _

/-! ### Bits and fields -/

@[simp] theorem bit_or (v w : W32) (b : Nat) : bit (v ||| w) b = (bit v b || bit w b) := BitVec.getLsbD_or

theorem bit_put_one {b c : Nat} (hc : c < 32) : bit (put b b 1) c = (b == c) := by
  have h : 1 % 2 ^ (b + 1 - b) * 2 ^ b = 2 ^ b := by rw [Nat.add_sub_cancel_left]; omega
  rw [put, h, bit, BitVec.getLsbD_ofNat, Nat.testBit_two_pow]
  simp only [hc, decide_true, Bool.true_and]
  rfl

/-- The bits of a sticky word after events. -/
theorem bit_sticky (es : List Ev) (w : W32) {b : Nat} (hb : b < 32) :
    bit (es.foldl (fun w e => w ||| put e.bit e.bit 1) w) b = (bit w b || es.any fun e => e.bit == b) := by
  induction es generalizing w with
  | nil => simp
  | cons e es ih => rw [List.foldl_cons, ih, bit_or, bit_put_one hb, List.any_cons, Bool.or_assoc]

/-! ### Sticky bits and the first error -/

/-- The event that a free PAGE_FIRST captures. -/
def topEv (m : Ev) (es : List Ev) : Ev := es.foldl (fun m e => if m.bit < e.bit then e else m) m

/-- It is the first one considered or one of the others, and none has a higher bit. -/
theorem topEv_max (m : Ev) (es : List Ev) :
    m.bit ≤ (topEv m es).bit ∧ (∀ e ∈ es, e.bit ≤ (topEv m es).bit) ∧ (topEv m es = m ∨ topEv m es ∈ es) := by
  induction es generalizing m with
  | nil => simp [topEv]
  | cons e es ih =>
    obtain ⟨hm, hes, hr⟩ := ih (if m.bit < e.bit then e else m)
    change _ ≤ (topEv m (e :: es)).bit at hm
    change ∀ x ∈ es, x.bit ≤ (topEv m (e :: es)).bit at hes
    change topEv m (e :: es) = _ ∨ topEv m (e :: es) ∈ es at hr
    have he : e.bit ≤ (topEv m (e :: es)).bit ∧ m.bit ≤ (topEv m (e :: es)).bit ∧
        ((if m.bit < e.bit then e else m) = e ∨ (if m.bit < e.bit then e else m) = m) := by
      split at hm
      · next h => exact ⟨hm, h.le.trans hm, .inl (if_pos h)⟩
      · next h => exact ⟨(Nat.not_lt.mp h).trans hm, hm, .inr (if_neg h)⟩
    obtain ⟨he, hm, hif⟩ := he
    refine ⟨hm, ?_, ?_⟩
    · rintro x (_ | ⟨_, hx⟩)
      exacts [he, hes x hx]
    · rcases hr with hr | hr
      · rw [hr]
        exact hif.elim (fun h => .inr (by rw [h]; exact List.mem_cons_self)) .inl
      · exact .inr (List.mem_cons_of_mem e hr)

/-- The word that a free PAGE_FIRST takes. -/
def firstWord (e : Ev) : W32 := put 31 31 1 ||| put 23 16 e.bit ||| put 15 0 e.code

theorem firstWord_toNat {e : Ev} (hb : e.bit < 32) (hc : e.code < 65536) :
    (firstWord e).toNat = 2 ^ 31 + e.bit * 2 ^ 16 + e.code := by
  have h1 := Nat.two_pow_add_eq_or_of_lt (i := 16) hc e.bit
  have h2 := Nat.two_pow_add_eq_or_of_lt (i := 31) (b := 2 ^ 16 * e.bit + e.code) (by omega) 1
  have e1 : (put 31 31 1).toNat = 2 ^ 31 * 1 := by decide
  have e2 : (put 23 16 e.bit).toNat = 2 ^ 16 * e.bit := by
    rw [put, BitVec.toNat_ofNat]
    omega
  have e3 : (put 15 0 e.code).toNat = e.code := by
    rw [put, BitVec.toNat_ofNat]
    omega
  rw [firstWord, BitVec.toNat_or, BitVec.toNat_or, e1, e2, e3, Nat.or_assoc, ← h1, ← h2]
  omega

theorem rget_settlePage_sticky (s : State) (p : Nat) (es : List Ev) :
    rget (settlePage s p es) p 0x18 = es.foldl (fun w e => w ||| put e.bit e.bit 1) (rget s p 0x18) := by
  have h1 : dwAddr p 0x1C ≠ dwAddr p 0x18 := dwAddr_ne (by omega) (by omega) rfl rfl (by omega)
  have h2 : dwAddr p 0x24 ≠ dwAddr p 0x18 := dwAddr_ne (by omega) (by omega) rfl rfl (by omega)
  have h3 : dwAddr p 0x28 ≠ dwAddr p 0x18 := dwAddr_ne (by omega) (by omega) rfl rfl (by omega)
  have h4 : dwAddr p (0x28 + 4) ≠ dwAddr p 0x18 := dwAddr_ne (by omega) (by omega) rfl rfl (by omega)
  unfold settlePage
  dsimp only
  split
  · rw [rget_rset_self, rget_rset_other _ _ h1]
  · rw [rget_rset64_other _ _ h3 h4, rget_rset_other _ _ h2, rget_rset_self, rget_rset_other _ _ h1]

/-- While PAGE_FIRST holds an error, it and the time stamp stay. -/
theorem rget_settlePage_valid {s : State} {p : Nat} (es : List Ev) (h : bit (rget s p 0x24) 31 = true) {o : Nat} (ho : o < 4096)
    (h6 : o / 4 ≠ 6) (h7 : o / 4 ≠ 7) : rget (settlePage s p es) p o = rget s p o := by
  have h1 : dwAddr p 0x1C ≠ dwAddr p o := by rw [Ne, dwAddr_inj (by omega) ho]; omega
  have h2 : dwAddr p 0x18 ≠ dwAddr p o := by rw [Ne, dwAddr_inj (by omega) ho]; omega
  have h3 : dwAddr p 0x1C ≠ dwAddr p 0x24 := dwAddr_ne (by omega) (by omega) rfl rfl (by omega)
  have h4 : dwAddr p 0x18 ≠ dwAddr p 0x24 := dwAddr_ne (by omega) (by omega) rfl rfl (by omega)
  unfold settlePage
  dsimp only
  rw [if_pos (by rw [rbit, rget_rset_other _ _ h4, rget_rset_other _ _ h3, h]), rget_rset_other _ _ h2, rget_rset_other _ _ h1]

/-- A free PAGE_FIRST captures the event with the highest bit, and the TB. -/
theorem rget_settlePage_free {s : State} {p : Nat} (es : List Ev) (h : bit (rget s p 0x24) 31 = false) :
    rget (settlePage s p es) p 0x24 = firstWord (topEv ⟨p, 0, (es.headD ⟨p, 0, 0⟩).code⟩ es) ∧
      rget64 (settlePage s p es) p 0x28 = s.belv.tb % 2 ^ 64 := by
  have h1 : dwAddr p 0x28 ≠ dwAddr p 0x24 := dwAddr_ne (by omega) (by omega) rfl rfl (by omega)
  have h2 : dwAddr p (0x28 + 4) ≠ dwAddr p 0x24 := dwAddr_ne (by omega) (by omega) rfl rfl (by omega)
  have h3 : dwAddr p 0x1C ≠ dwAddr p 0x24 := dwAddr_ne (by omega) (by omega) rfl rfl (by omega)
  have h4 : dwAddr p 0x18 ≠ dwAddr p 0x24 := dwAddr_ne (by omega) (by omega) rfl rfl (by omega)
  unfold settlePage
  dsimp only
  rw [if_neg (by rw [rbit, rget_rset_other _ _ h4, rget_rset_other _ _ h3, h]; exact Bool.false_ne_true), rget64_rset64,
    rget_rset64_other _ _ h1 h2, rget_rset_self]
  exact ⟨rfl, rfl⟩

/-- Settles O11. -/
theorem firstErrorCapture : Obligations.FirstErrorCapture := by
  intro s p e0 es hes t
  refine ⟨fun b hb => ?_, fun hv => ⟨?_, ?_⟩, fun hv => ?_⟩
  · rw [rget_settlePage_sticky, bit_sticky _ _ hb]
  · exact rget_settlePage_valid _ hv (by omega) (by omega) (by omega)
  · rw [rget64, rget64, rget_settlePage_valid _ hv (by omega) (by omega) (by omega),
      rget_settlePage_valid _ hv (by omega) (by omega) (by omega)]
  · obtain ⟨hw, ht⟩ := rget_settlePage_free (e0 :: es) hv
    obtain ⟨-, hmax, hmem⟩ := topEv_max ⟨p, 0, e0.code⟩ (e0 :: es)
    have hex : ∃ e ∈ e0 :: es, e.bit = (topEv ⟨p, 0, e0.code⟩ (e0 :: es)).bit ∧ e.code =
      (topEv ⟨p, 0, e0.code⟩ (e0 :: es)).code := by
      rcases hmem with h | h
      · have h0 := hmax e0 (by simp)
        rw [h] at h0 ⊢
        exact ⟨e0, by simp, Nat.le_zero.mp h0, rfl⟩
      · exact ⟨_, h, rfl, rfl⟩
    obtain ⟨e, he, hb, hc⟩ := hex
    obtain ⟨hb32, hc16⟩ := hes e he
    have hn := firstWord_toNat (hb ▸ hb32) (hc ▸ hc16)
    change rget t p 0x24 = firstWord (topEv ⟨p, 0, e0.code⟩ (e0 :: es)) at hw
    rw [← hw] at hn
    have hbit : fld (rget t p 0x24) 23 16 = (topEv ⟨p, 0, e0.code⟩ (e0 :: es)).bit := by unfold fld; omega
    have hcode : fld (rget t p 0x24) 15 0 = (topEv ⟨p, 0, e0.code⟩ (e0 :: es)).code := by unfold fld; omega
    refine ⟨?_, ht, fun e he => (hmax e he).trans hbit.ge, e, he, hb.trans hbit.symm, hc.trans hcode.symm⟩
    rw [hw, firstWord, bit_or, bit_or, bit_put_one (by omega)]
    rfl

end Sys2Proof.Laws
end

section
/-! The accesses of the host to a page: what a write and a read come down to, and what the header (R28, R38, R39, R45), the plain
registers (R34, R35), the registers under LOCK (R29) and the unreachable pages (R21, R22) do with them. -/

namespace Sys2Proof.Laws

open Sys2Proof Sys2Proof.Machine

/-! ### The reset state -/

theorem rowAt_header {k : Kind} (hk : k ≠ .rng) {off : Nat} (ho : off < 0x40) : rowAt k off = none := by
  rw [rowAt, List.find?_eq_none]
  have h : ∀ r ∈ rowsOf k, 0x40 ≤ r.first := by
    cases k with
    | rng => exact absurd rfl hk
    | _ => decide
  intro r hr
  have := h r hr
  unfold RegRow.covers
  split <;> simp <;> omega

theorem regDef_dwAddr {p off : Nat} (ho : off < 4096) (h4 : off % 4 = 0) {k : Kind} {i : Nat} (hp : kindOf p = some (k, i))
    (h8 : k = .rng ∨ off < 0x800) :
    regDef (dwAddr p off) = ((rowAt k off).elim 0 RegRow.rst) := by
  have e1 : dwAddr p off / 1024 = p := by unfold dwAddr; omega
  have e2 : 4 * (dwAddr p off % 1024) = off := by unfold dwAddr; omega
  have e3 : ¬ (0x800 ≤ off ∧ k ≠ .rng) := by rintro ⟨h, hn⟩; exact h8.elim hn (by omega)
  have e4 : ∀ r : RegRow, ¬ (0x800 ≤ off ∧ k ≠ .rng ∧ r.shad = false) := fun r ⟨h, hn, _⟩ => e3 ⟨h, hn⟩
  unfold regDef
  dsimp only
  rw [e1, hp]
  dsimp only
  rw [e2, if_neg e3]
  cases rowAt k off with
  | none => rfl
  | some r => exact if_neg (e4 r)

/-- The words of a header that events reach are 0 after reset. -/
theorem regDef_header {p off : Nat} (h : off = 0x18 ∨ off = 0x1C ∨ off = 0x24) : regDef (dwAddr p off) = 0 := by
  cases hp : kindOf p with
  | none =>
    have e1 : dwAddr p off / 1024 = p := by unfold dwAddr; omega
    unfold regDef
    dsimp only
    rw [e1, hp]
  | some x =>
    obtain ⟨k, i⟩ := x
    rw [regDef_dwAddr (by omega) (by omega) hp (.inr (by omega))]
    by_cases hk : k = .rng
    · subst hk
      rcases h with rfl | rfl | rfl <;> rfl
    · rw [rowAt_header hk (by omega)]
      rfl

/-- Settles O3. -/
theorem resetValues : Obligations.ResetValues :=
  ⟨fun _ _ => rfl, rfl, rfl, fun _ => rfl, rfl, fun _ => rfl, rfl,
    fun _ _ => ⟨regDef_header (.inl rfl), regDef_header (.inr (.inl rfl)), regDef_header (.inr (.inr rfl))⟩,
    rfl, rfl, rfl, rfl, rfl, rfl⟩

/-- Settles O4. -/
theorem resetInvariant : Obligations.ResetInvariant := by
  refine ⟨⟨rfl, rfl⟩, fun k => ?_, fun k hk => ?_⟩
  · change (tget KeySlot.zero [(0, _), (1, _)] k).st ≠ 2
    simp only [tget]
    split <;> [decide; split <;> decide]
  · obtain rfl | rfl : k = 0 ∨ k = 1 := by omega
    · exact .inl rfl
    · exact .inl rfl

/-! ### One event -/

/-- A page that answers takes one event into its header. -/
theorem settle_ev {s : State} (hs : Settled s) {p : Nat} (hr : pageReach s p = .ok) (b c : Nat) :
    settle (ev s p b c) = noted s p b c := by
  have he : (ev s p b c).evq = [⟨p, b, c⟩] := by rw [ev, hs]; rfl
  have hq : ({ ev s p b c with evq := [] } : State) = s := by
    rw [← hs]
    rfl
  rw [settle_of_single he hr, hq, noted]

@[simp] theorem noted_evq (s : State) (p b c : Nat) : (noted s p b c).evq = s.evq := by
  have h := congrArg State.evq (settlePage_sameButHeads s p [⟨p, b, c⟩]).rest
  exact h

/-- An error of an access to a page other than one of rings is an event of that page. -/
theorem accessErr_page {s : State} {p : Nat} {k : Kind} {i : Nat} (hp : kindOf p = some (k, i)) (hk : k ≠ .rng) (n off : Nat) :
    accessErr s p n off = ev s p 31 (n * 4096 + off) := by
  unfold accessErr
  rw [hp]
  split
  · next h => cases h; exact absurd rfl hk
  · rfl

/-! ### Writes -/

theorem writeDw_header {s : State} {p : Nat} {k : Kind} {i : Nat} (hp : kindOf p = some (k, i)) (hk : k ≠ .rng) {off : Nat}
    (ho : off < 0x40) (dw : Dw) : writeDw s p off dw = headerWrite s k p off dw := by
  have hi : implemented k off = true := by rw [implemented, if_neg hk, if_pos ho]
  unfold writeDw
  simp only [hp, hi]
  rw [if_neg (by decide), if_pos ⟨hk, ho⟩]

theorem writeDw_block {s : State} {p : Nat} {k : Kind} {i : Nat} (hp : kindOf p = some (k, i)) (hk : k ≠ .rng) (hd : k ≠ .cdbg)
    {off : Nat} (hl : 0x40 ≤ off) (hh : off < 0x800) {r : RegRow} (hr : rowAt k off = some r) (dw : Dw) :
    writeDw s p off dw = blockWrite s k i p off r dw := by
  have hi : implemented k off = true := by
    rw [implemented, if_neg hk, if_neg (by omega), if_neg (by omega), hr]
    rfl
  have hg : gated s k off = false := by simp [gated, hd]
  unfold writeDw
  simp only [hp, hi, hg, hr]
  rw [if_neg (by decide), if_neg (by omega), if_neg (by omega), if_neg (by decide), if_neg hk]

theorem writeDw_ring {s : State} {p i : Nat} (hp : kindOf p = some (.rng, i)) {off : Nat} {r : RegRow}
    (hr : rowAt .rng off = some r) (dw : Dw) : writeDw s p off dw = ringWrite s p off r dw := by
  have hi : implemented .rng off = true := rfl
  have hg : gated s .rng off = false := rfl
  unfold writeDw
  simp only [hp, hi, hg, hr]
  simp

theorem headerWrite_partial {s : State} {p : Nat} {k : Kind} {i : Nat} (hp : kindOf p = some (k, i)) (hk : k ≠ .rng) {off : Nat}
    (ho : off = 0x0C ∨ off = 0x20 ∨ off = 0x30) {dw : Dw} (h : dw.be ≠ 0xF) :
    headerWrite s k p off dw = ev s p 31 (0x1000 + off) := by
  rw [headerWrite, if_pos ho, if_pos h, accessErr_page hp hk]

theorem headerWrite_whole (s : State) (k : Kind) (p : Nat) (w : W32) :
    headerWrite s k p 0x0C (whole w) = rset s p 0x0C (rget s p 0x0C ||| (w &&& 1)) ∧
      headerWrite s k p 0x20 (whole w) = clrWrite s k p w ∧ headerWrite s k p 0x30 (whole w) = commitWrite s p w := by
  simp [headerWrite, whole]

/-- A write that raises one event. -/
theorem done_regWrite_ev {s t : State} {p o : Nat} {dw : Dw} (ht : Settled t) (h : answers s p = true) (ho : o < 4096)
    (h4 : o % 4 = 0) {q b c : Nat} (hq : pageReach t q = .ok) (hw : writeDw s p o dw = ev t q b c) :
    done (regWrite s p o dw) = .next (answer (noted t q b c) .posted []) := by
  rw [done_regWrite dw h ho h4, hw, settle_ev ht hq]

/-- A page that arms under a group whose outcome is not held is a member of it. -/
theorem mem_joinGroup {s : State} {g : Nat} (h : (groupAt s g).held = none) (p : Nat) :
    p ∈ (groupAt (joinGroup s g p) g).members := by
  unfold joinGroup
  simp only [h, putGroup, Option.isSome_none, Bool.false_eq_true, if_false]
  rw [groupAt, tget_tset_self]
  dsimp only
  split
  · next hc => simpa using hc
  · simp

theorem groupAt_joinGroup_other (s : State) {g h : Nat} (hne : h ≠ g) (p : Nat) : groupAt (joinGroup s g p) h = groupAt s h :=
  tget_tset_other _ _ _ _ hne.symm

/-- Settles O12, header register by header register. -/
theorem headerWrites : Obligations.HeaderWrites := by
  refine ⟨fun s p k i hs ha hp hk => ⟨fun w => ?_, fun dw hb => ?_⟩,
    fun s p k i hs ha hp hk => ⟨fun hc w => ?_, fun hc w => ?_, fun dw hb => ?_⟩,
    fun s p k i hs ha hp hk hh => ⟨fun w h1 => ?_, fun w h1 h0 hg => ?_, fun w h1 h2 => ?_, fun dw hb => ?_⟩⟩
  all_goals obtain ⟨-, -, hr⟩ := answers_open ha
  · exact done_regWrite_quiet _ ha (by omega) rfl
      ((writeDw_header hp hk (by omega) _).trans (headerWrite_whole s k p w).1) hs
  · exact done_regWrite_ev hs ha (by omega) rfl hr
      ((writeDw_header hp hk (by omega) _).trans (headerWrite_partial hp hk (.inl rfl) hb))
  · have hw := (writeDw_header hp hk (by omega) _).trans (headerWrite_whole s k p w).2.1
    rw [clrWrite, hc, if_neg Bool.false_ne_true] at hw
    refine done_regWrite_quiet _ ha (by omega) rfl hw ?_
    split <;> exact hs
  · have hw := (writeDw_header hp hk (by omega) _).trans (headerWrite_whole s k p w).2.1
    rw [clrWrite, if_pos hc] at hw
    exact done_regWrite_ev hs ha (by omega) rfl hr hw
  · exact done_regWrite_ev hs ha (by omega) rfl hr
      ((writeDw_header hp hk (by omega) _).trans (headerWrite_partial hp hk (.inr (.inl rfl)) hb))
  · have hw := (writeDw_header hp hk (by omega) _).trans (headerWrite_whole s k p w).2.2
    simp only [commitWrite, hh, h1, Bool.false_eq_true, false_and, or_self, if_false] at hw
    exact done_regWrite_quiet _ ha (by omega) rfl hw hs
  · have hw := (writeDw_header hp hk (by omega) _).trans (headerWrite_whole s k p w).2.2
    simp only [commitWrite, commitWord, hh, h1, h0, Bool.false_eq_true, and_false, or_self, if_false, if_true] at hw
    refine ⟨_, done_regWrite_quiet _ ha (by omega) rfl hw hs, rget_rset_self .., ?_, fun g h => ?_, fun q o h => ?_⟩
    · exact mem_joinGroup (s := rset s p 0x30 _) hg p
    · exact groupAt_joinGroup_other _ h p
    · exact rget_rset_other s _ h.symm
  · have hw := (writeDw_header hp hk (by omega) _).trans (headerWrite_whole s k p w).2.2
    rw [commitWrite, if_pos (.inr ⟨h1, h2⟩)] at hw
    exact done_regWrite_ev hs ha (by omega) rfl hr hw
  · exact done_regWrite_ev hs ha (by omega) rfl hr
      ((writeDw_header hp hk (by omega) _).trans (headerWrite_partial hp hk (.inr (.inr rfl)) hb))

/-! ### Reads -/

theorem isLo_header {k : Kind} (hk : k ≠ .rng) {off : Nat} (ho : off < 0x40) : isLo k off = (off == 0x28 || off == 0x34) := by
  simp [isLo, rowAt_header hk ho, hk]

/-- The header words that events reach hold no live bits. -/
theorem liveWord_header (s : State) {k : Kind} (hk : k ≠ .rng) (i p : Nat) {off : Nat} (ho : off = 0x18 ∨ off = 0x24) :
    liveWord s k i p off = 0 := by
  have h : blockLive s k i off = 0 := by
    rcases ho with rfl | rfl <;> cases k with
    | rng => exact absurd rfl hk
    | _ => rfl
  rcases ho with rfl | rfl <;> simp [liveWord, hk, h]

theorem readValue_header (s : State) {k : Kind} (hk : k ≠ .rng) (i p : Nat) {off : Nat} (ho : off = 0x18 ∨ off = 0x24) :
    readValue s k i p off = rget s p off := by
  have hh : isHi k off = false := by
    rw [isHi, isLo_header hk (by omega)]
    rcases ho with rfl | rfl <;> rfl
  have hi : implemented k off = true := by rw [implemented, if_neg hk, if_pos (by omega)]
  have hg : gated s k off = false := by rcases ho with rfl | rfl <;> simp [gated]
  simp [readValue, peek, hh, hi, hg, liveWord_header s hk i p ho]

/-- What reading PAGE_STICKY or PAGE_FIRST does. -/
theorem readAct_header (s : State) {k : Kind} (hk : k ≠ .rng) (i p : Nat) {off : Nat} (ho : off = 0x18 ∨ off = 0x24)
    (be : BitVec 4) :
    readAct s k i p off be = if clrOnRead k then clearRead s p off be else s := by
  have hl : latchHi s k i p off = s := by
    rw [latchHi, isLo_header hk (by omega)]
    rcases ho with rfl | rfl <;> rfl
  unfold readAct
  rw [hl]
  rcases ho with rfl | rfl <;> cases k <;> rfl

/-- A command that raises no event is done as it stands. -/
theorem done_quiet {s : State} (h : s.evq = []) : done s = .next s := by rw [done, settle_of_nil h]

/-- The outcome of a read of a page that answers, where its effect raises no event. -/
theorem done_regRead {s t : State} {p o : Nat} {k : Kind} {i : Nat} {be : BitVec 4} (h : answers s p = true)
    (hp : kindOf p = some (k, i)) (ho : o < 4096) (h4 : o % 4 = 0) (hi : implemented k o = true)
    (ht : (if be = 0 then s else readAct s k i p o be) = t) (hq : t.evq = []) :
    done (regRead s p o be) = .next (answer t .ok [readValue s k i p o]) := by
  obtain ⟨-, -, hr⟩ := answers_open h
  have e1 : (p * 4096 + o) / 4096 = p := by omega
  have e2 : (p * 4096 + o) % 4096 / 4 * 4 = o := by omega
  rw [regRead_answers be h ho, bar0Read, e1, e2, hr, hp]
  simp only [hi, Bool.true_eq_false, or_false, ht]
  exact done_quiet hq

/-- Settles O13. -/
theorem stickyReadClears : Obligations.StickyReadClears := by
  intro s p k i be hs ha hp hk
  have hi {o : Nat} (ho : o < 0x40) : implemented k o = true := by rw [implemented, if_neg hk, if_pos ho]
  constructor
  · rw [← readValue_header s hk i p (.inl rfl)]
    refine done_regRead ha hp (by omega) rfl (hi (by omega)) ?_ ?_
    · rw [readAct_header s hk i p (.inl rfl)]
      by_cases hb : be = 0#4 <;> simp [hb, clearRead, readValue_header s hk i p (.inl rfl)]
    · split <;> exact hs
  · rw [← readValue_header s hk i p (.inr rfl)]
    refine done_regRead ha hp (by omega) rfl (hi (by omega)) ?_ ?_
    · rw [readAct_header s hk i p (.inr rfl)]
      by_cases hb : be = 0#4
      · simp [hb]
      · by_cases hc : clrOnRead k = true <;> simp [hb, hc, clearRead, readValue_header s hk i p (.inr rfl)]
    · split <;> exact hs

/-! ### Requests of the host where the link is open -/

theorem answer_ite {P : Prop} {_ : Decidable P} (s t : State) (c : Cpl) (l : List W32) :
    answer (if P then s else t) c l = if P then answer s c l else answer t c l := apply_ite (answer · c l) ..

@[simp] theorem rget_answer (s : State) (c : Cpl) (l : List W32) (p o : Nat) : rget (answer s c l) p o = rget s p o := rfl

@[simp] theorem rset_answer (s : State) (c : Cpl) (l : List W32) (p o : Nat) (v : W32) :
    rset (answer s c l) p o v = answer (rset s p o v) c l := rfl

/-- Taking events does not read the last answer. -/
@[simp] theorem settle_answer (s : State) (c : Cpl) (l : List W32) : settle (answer s c l) = answer (settle s) c l := by
  have hpage (u : State) (p : Nat) (es : List Ev) : settlePage (answer u c l) p es = answer (settlePage u p es) c l := by
    simp only [settlePage, answer_ite]
    simp only [rset64, rset_answer, rbit, rget_answer, answer_belv]
    rfl

  have hfold (ps : List Nat) (u : State) :
      ps.foldl (fun u p => if pageReach u p = .ok then settlePage u p (s.evq.filter fun e => e.page == p) else u) (answer u c l) =
        answer (ps.foldl (fun u p => if pageReach u p = .ok then settlePage u p (s.evq.filter fun e => e.page == p) else u) u)
          c l := by
    induction ps generalizing u with
    | nil => rfl
    | cons p ps ih =>
      rw [List.foldl_cons, List.foldl_cons, ← ih, hpage]
      congr 1
      rw [answer_ite]
      rfl
  exact hfold (evPages s.evq) { s with evq := [] }

/-- The outcome of an access that raises one event. -/
theorem done_answer_ev {s : State} (hs : Settled s) {p : Nat} (hr : pageReach s p = .ok) (b n : Nat) (c : Cpl) (l : List W32) :
    done (answer (ev s p b n) c l) = .next (answer (noted s p b n) c l) := by
  rw [done, settle_answer, settle_ev hs hr]

theorem sleepWaits_awake {s : State} (h : s.pwr.st ≠ .sleep) (bar addr : Nat) : sleepWaits s bar addr = false := by
  simp [sleepWaits, h]

theorem hostWrite_open {s : State} (hl : linkOpen s = true) {bar addr : Nat} (hb : inBar bar addr = true)
    (hw : sleepWaits s bar addr = false) (l : List Dw) : hostWrite s bar addr l = accessNow s (.write bar addr l) := by
  simp [hostWrite, hl, hb, hw]

theorem hostRead_open {s : State} (hl : linkOpen s = true) {bar addr : Nat} (hb : inBar bar addr = true)
    (hw : sleepWaits s bar addr = false) (l : List (BitVec 4)) : hostRead s bar addr l = accessNow s (.read bar addr l) := by
  simp [hostRead, hl, hb, hw]

/-- SYS answers always. -/
theorem pageReach_sys (s : State) : pageReach s pgSys = .ok := rfl
theorem pageReach_hdma (s : State) : pageReach s pgHdma = .ok := rfl

/-- Settles O17. -/
theorem unreachablePages : Obligations.UnreachablePages := by
  intro s p off hs hl hst hp ho
  have hb := inBar_page hp ho
  have hw := sleepWaits_awake hst 0 (p * 4096 + off)
  have e1 : (p * 4096 + off) / 4096 = p := by omega
  have e3 : ¬ 4096 < off % 4096 / 4 * 4 + 4 := by omega
  refine ⟨fun l h => ?_, fun l h => ?_, fun be h => ?_, fun be h => ?_⟩
  · change done (hostWrite s 0 _ l) = _
    rw [hostWrite_open hl hb hw]
    have e : accessNow s (.write 0 (p * 4096 + off) l) = answer (ev s pgSys 1 p) .posted [] := by
      simp [accessNow, bar0Write, e1, h]
    rw [e]
    exact done_answer_ev hs (pageReach_sys s) 1 p _ _
  · change done (hostWrite s 0 _ l) = _
    rw [hostWrite_open hl hb hw]
    have e : accessNow s (.write 0 (p * 4096 + off) l) = answer (ev s pgSys 0 p) .posted [] := by
      simp [accessNow, bar0Write, e1, h]
    rw [e]
    exact done_answer_ev hs (pageReach_sys s) 0 p _ _
  · change done (hostRead s 0 _ [be]) = _
    rw [hostRead_open hl hb hw]
    have e : accessNow s (.read 0 (p * 4096 + off) [be]) = answer s .ok [0] := by
      simp [accessNow, readRequest, bar0Reads, bar0Read, e1, e3, h]
    rw [e]
    exact done_quiet hs
  · change done (hostRead s 0 _ [be]) = _
    rw [hostRead_open hl hb hw]
    have e : accessNow s (.read 0 (p * 4096 + off) [be]) = answer (ev s pgSys 0 p) .ok [0] := by
      simp [accessNow, readRequest, bar0Reads, bar0Read, e1, e3, h]
    rw [e]
    exact done_answer_ev hs (pageReach_sys s) 0 p _ _

/-! ### Registers of a block -/

theorem beMask_eq_zero {be : BitVec 4} : beMask be = 0 ↔ be = 0 := by decide +revert
theorem beMask_whole (w : W32) : beMask (whole w).be = BitVec.allOnes 32 := by
  change beMask 0xF = _
  decide

/-- A write that reaches no pair and no shadowed register, in a page that is not locked or to a register without bits under LOCK: it
acts with the enabled bits. -/
theorem blockWrite_plain {s : State} {k : Kind} {i p off : Nat} {r : RegRow} {dw : Dw}
    (hl : bit (rget s p 0x0C) 0 = false ∨ r.lm = 0) (hs : r.shad = false) (hlo : isLo k off = false) (hhi : isHi k off = false) :
    blockWrite s k i p off r dw =
      if beMask dw.be &&& (r.wm ||| woMask k off) = 0 then s
      else blockAct s k i p off (normal k off (merge (rget s p off) dw.data (beMask dw.be &&& r.wm)))
        (dw.data &&& beMask dw.be &&& (r.wm ||| woMask k off)) := by
  have h1 : ¬ (bit (rget s p 0x0C) 0 = true ∧ beMask dw.be &&& r.lm ≠ 0) := by
    rintro ⟨a, b⟩
    rcases hl with h | h
    · simp [h] at a
    · exact b (by rw [h]; exact BitVec.and_zero)
  have h2 : (beMask dw.be &&& r.wm &&& if bit (rget s p 0x0C) 0 then ~~~r.lm else 0xFFFFFFFF) = beMask dw.be &&& r.wm := by
    rcases hl with h | h
    · rw [if_neg (by simp [h])]
      exact BitVec.and_allOnes
    · rw [h]
      split <;> exact BitVec.and_allOnes
  unfold blockWrite
  dsimp only
  rw [if_neg h1, h2, hs, hlo, hhi]
  simp only [Bool.false_eq_true, if_false]

/-- A whole-word write to a register that stores or acts on some bit. -/
theorem blockWrite_whole {s : State} {k : Kind} {i p off : Nat} {r : RegRow} {w : W32}
    (hl : bit (rget s p 0x0C) 0 = false ∨ r.lm = 0) (hs : r.shad = false) (hlo : isLo k off = false) (hhi : isHi k off = false)
    (hm : r.wm ||| woMask k off ≠ 0) :
    blockWrite s k i p off r (whole w) =
      blockAct s k i p off (normal k off (merge (rget s p off) w r.wm)) (w &&& (r.wm ||| woMask k off)) := by
  have hd : (whole w).data = w := rfl
  rw [blockWrite_plain hl hs hlo hhi, beMask_whole, BitVec.allOnes_and, if_neg hm, BitVec.allOnes_and, BitVec.and_allOnes, hd]

/-- Settles O15. -/
theorem scratchWrite : Obligations.ScratchWrite := by
  intro s n dw hs ha hn
  have hr : rowAt .sys (0x58 + 4 * n) = some ⟨0x58, 4, 2, 0xffffffff, 0, 0, false, false⟩ := by
    obtain rfl | rfl : n = 0 ∨ n = 1 := by omega
    · rfl
    · rfl
  have hp : isLo .sys (0x58 + 4 * n) = false ∧ isHi .sys (0x58 + 4 * n) = false := by
    obtain rfl | rfl : n = 0 ∨ n = 1 := by omega
    · exact ⟨rfl, rfl⟩
    · exact ⟨rfl, rfl⟩
  have hw : writeDw s 0 (0x58 + 4 * n) dw = if dw.be = 0 then s else
        rset s 0 (0x58 + 4 * n) ((rget s 0 (0x58 + 4 * n) &&& ~~~beMask dw.be) ||| (dw.data &&& beMask dw.be)) := by
    rw [writeDw_block (k := .sys) (i := 0) rfl (by decide) (by decide) (by omega) (by omega) hr,
      blockWrite_plain (.inr rfl) rfl hp.1 hp.2]
    have h1 : beMask dw.be &&& ((0xffffffff : W32) ||| woMask .sys (0x58 + 4 * n)) = beMask dw.be := by
      rw [show woMask .sys (0x58 + 4 * n) = 0 from rfl]
      exact BitVec.and_allOnes
    have h2 : beMask dw.be &&& (0xffffffff : W32) = beMask dw.be := BitVec.and_allOnes
    dsimp only
    rw [h1, h2]
    by_cases hb : dw.be = 0
    · rw [if_pos (beMask_eq_zero.mpr hb), if_pos hb]
    · rw [if_neg (mt beMask_eq_zero.mp hb), if_neg hb]
      rfl
  have h := done_regWrite_quiet dw ha (by omega) (by omega) hw (by split <;> exact hs)
  rw [← h]
  change done (hostWrite s 0 (0x58 + 4 * n) [dw]) = done (hostWrite s 0 (0 * 4096 + (0x58 + 4 * n)) [dw])
  rw [Nat.zero_mul, Nat.zero_add]

/-! ### Registers under LOCK -/

/-- A whole-word write to a register of the page that is locked, where every stored bit is under LOCK: the register keeps its value. -/
theorem blockWrite_locked {s : State} {k : Kind} {i p off : Nat} {r : RegRow} {w : W32} (hl : bit (rget s p 0x0C) 0 = true)
    (hm : r.lm = r.wm) (h0 : r.wm ≠ 0) (hwo : woMask k off = 0) (hs : r.shad = false) (hlo : isLo k off = false)
    (hhi : isHi k off = false) :
    blockWrite s k i p off r (whole w) =
      blockAct (ev s p 30 (0x5000 + off)) k i p off (normal k off (rget s p off)) (w &&& r.wm) := by
  have hz : r.wm &&& ~~~r.wm = 0 := BitVec.and_not_self _
  have hk (old x : W32) : merge old x 0 = old := by
    change (old &&& BitVec.allOnes 32) ||| (x &&& 0#32) = old
    rw [BitVec.and_allOnes, BitVec.and_zero, BitVec.or_zero]
  have hw (x : W32) : x ||| 0 = x := BitVec.or_zero
  have hd : (whole w).data = w := rfl
  unfold blockWrite
  simp only [beMask_whole, BitVec.allOnes_and, BitVec.and_allOnes, hm, hl, hs, hlo, hhi, hwo, hw, hz, hk, hd, ne_eq, h0,
    not_false_eq_true, and_self, if_true, if_false, Bool.false_eq_true]
  rfl

theorem kindOf_prg0 : ∀ {d : Nat}, d < 16 → kindOf (pgPrg0 d) = some (.prg0, d) := by decide

theorem rget_rset_eq (s : State) {p o q r : Nat} (v : W32) (h : dwAddr p o = dwAddr q r) : rget (rset s p o v) q r = v := by
  unfold rget rset
  rw [h]
  exact tget_tset_self _ _ _ _

theorem rget_rset_congr {s t : State} (h : ∀ q o, rget t q o = rget s q o) (p a : Nat) {v w : W32} (hv : v = w) (q o : Nat) :
    rget (rset t p a v) q o = rget (rset s p a w) q o := by
  by_cases e : dwAddr p a = dwAddr q o
  · rw [rget_rset_eq _ _ e, rget_rset_eq _ _ e, hv]
  · rw [rget_rset_other _ _ e, rget_rset_other _ _ e, h]

theorem rbit_congr {s t : State} (h : ∀ q o, rget t q o = rget s q o) (p o b : Nat) : rbit t p o b = rbit s p o b := by
  rw [rbit, rbit, h]

/-- What a register reads as after events depends on the registers and TB alone. -/
theorem rget_settlePage_congr {s t : State} (h : ∀ q o, rget t q o = rget s q o) (hb : t.belv = s.belv) (p : Nat) (es : List Ev)
    (q o : Nat) : rget (settlePage t p es) q o = rget (settlePage s p es) q o := by
  have h1 := rget_rset_congr h p 0x1C (congrArg (· + 1) (h p 0x1C))
  have h2 := rget_rset_congr h1 p 0x18 (congrArg (fun w => es.foldl (fun w e => w ||| put e.bit e.bit 1) w) (h1 p 0x18))
  have h3 := rbit_congr h2 p 0x24 31
  have ht : t.belv.tb = s.belv.tb := by rw [hb]
  unfold settlePage
  dsimp only
  split
  · next h =>
    rw [if_pos (h3.symm.trans h)]
    exact h2 q o
  · next h =>
    rw [if_neg fun k => h (h3.trans k)]
    exact rget_rset_congr (rget_rset_congr (rget_rset_congr h2 p 0x24 rfl) p 0x28 (congrArg lo32 ht)) p (0x28 + 4)
        (congrArg hi32 ht) q o

/-- Taking an event leaves every field but the registers. -/
theorem noted_rest (s : State) (p b c : Nat) : { noted s p b c with regs := s.regs } = s :=
  (settlePage_sameButHeads s p [⟨p, b, c⟩]).rest

/-- A state that differs from `s` in registers alone, still does so after an event and the answer. -/
theorem answer_noted_rest (s : State) (r : Tab W32) (p b n : Nat) (c : Cpl) (l : List W32) :
    { answer (noted s p b n) c l with regs := r } = answer { s with regs := r } c l := by
  have h := congrArg (fun u : State => answer { u with regs := r } c l) (noted_rest s p b n)
  exact h

/-- Settles O18. -/
theorem lockedWriteRefused : Obligations.LockedWriteRefused := by
  intro s d w hd hs ha
  obtain ⟨-, -, hr⟩ := answers_open ha
  have hp := kindOf_prg0 hd
  have hw := writeDw_block hp (s := s) (by decide) (by decide) (off := 0x4C) (by omega) (by omega)
    (r := ⟨0x4c, 0, 1, 0xffff, 0xffff, 0x2328, false, false⟩) rfl (whole w)
  change ∃ t, done (regWrite s (pgPrg0 d) 0x4C (whole w)) = _ ∧ _
  cases hl : bit (rget s (pgPrg0 d) 0x0C) 0
  · rw [blockWrite_whole (.inl hl) rfl rfl rfl (by decide)] at hw
    refine ⟨_, done_regWrite_quiet _ ha (by omega) rfl hw hs, rfl, fun h => absurd h Bool.false_ne_true, fun _ q o => ?_⟩
    rfl
  · rw [blockWrite_locked hl rfl (by decide) rfl rfl rfl rfl] at hw
    have hk (q o : Nat) : rget (rset s (pgPrg0 d) 0x4C (rget s (pgPrg0 d) 0x4C)) q o = rget s q o := by
      by_cases e : dwAddr (pgPrg0 d) 0x4C = dwAddr q o
      · rw [rget_rset_eq _ _ e, rget, rget, e]
      · rw [rget_rset_other _ _ e]
    have hn := done_regWrite_ev (t := rset s (pgPrg0 d) 0x4C (rget s (pgPrg0 d) 0x4C)) hs ha (by omega) rfl hr hw
    refine ⟨_, hn, ?_, fun _ q o => ?_, fun h => absurd h.symm Bool.false_ne_true⟩
    · exact answer_noted_rest (rset s (pgPrg0 d) 0x4C (rget s (pgPrg0 d) 0x4C)) ..
    · exact rget_settlePage_congr hk rfl ..

end Sys2Proof.Laws
end

section
/-! The accesses with an effect of their own: the pairs (R42, R43), the timebase (R216), the handshake (R57, R58), the doorbells
(R265, R266) and the slots of rings (R285). -/

namespace Sys2Proof.Laws

open Sys2Proof Sys2Proof.Machine

/-! ### Writes of a pair's HI -/

theorem merge_allOnes (old w : W32) : merge old w (BitVec.allOnes 32) = w := by
  have h : ~~~(BitVec.allOnes 32) = 0#32 := by decide
  rw [merge, h, BitVec.and_zero, BitVec.zero_or, BitVec.and_allOnes]

/-- A whole-word write of the HI of a pair without bits under LOCK. -/
theorem blockWrite_hi {s : State} {k : Kind} {i p off : Nat} {r : RegRow} {w : W32} (hl : r.lm = 0) (hs : r.shad = false)
    (hlo : isLo k off = false) (hhi : isHi k off = true) (hm : r.wm ||| woMask k off = BitVec.allOnes 32) :
    blockWrite s k i p off r (whole w) =
      let v := (stagedLo s k p (off - 4)).toNat + w.toNat * 2 ^ 32
      if pairTakes s k (off - 4) v then unstage (pairCommit s k p (off - 4) v) p (off - 4) else pairCommit s k p (off - 4) v := by
  have h0 (x : W32) : x &&& 0 = 0 := BitVec.and_zero
  have h1 : BitVec.allOnes 32 ≠ 0 := by decide
  have hd : (whole w).data = w := rfl
  unfold blockWrite
  simp only [beMask_whole, hl, h0, ne_eq, not_true, and_false, if_false, hs, BitVec.allOnes_and, hm, h1, hlo, hhi, if_true,
    Bool.false_eq_true, pairValue, merge_allOnes, hd]

theorem stagedLo_of_some {s : State} {k : Kind} {p off : Nat} {lo : W32} (h : tget none s.loStage (dwAddr p off) = some lo) :
    stagedLo s k p off = lo := by
  rw [stagedLo, h, Option.getD_some]

theorem unstage_loStage (s : State) (p lo : Nat) : tget none (unstage s p lo).loStage (dwAddr p lo) = none :=
  tget_tset_self none s.loStage _ none

/-! ### What an event leaves -/

theorem noted_belv (s : State) (p b c : Nat) : (noted s p b c).belv = s.belv := by
  have h := congrArg State.belv (noted_rest s p b c)
  exact h

theorem noted_rings (s : State) (p b c : Nat) : (noted s p b c).rings = s.rings := by
  have h := congrArg State.rings (noted_rest s p b c)
  exact h

theorem noted_loStage (s : State) (p b c : Nat) : (noted s p b c).loStage = s.loStage := by
  have h := congrArg State.loStage (noted_rest s p b c)
  exact h

/-- The sticky bits of a page after one event. -/
theorem bit_noted_sticky (s : State) (p c : Nat) (n : Nat) {b : Nat} (hb : b < 32) :
    bit (rget (noted s p n c) p 0x18) b = (bit (rget s p 0x18) b || n == b) := by
  rw [noted, rget_settlePage_sticky, bit_sticky _ _ hb]
  simp

/-- A register outside a header's event words reads as before. -/
theorem rget_noted (s : State) (p b c : Nat) {q o : Nat} (ho : o < 4096) (h6 : o / 4 ≠ 6) (h7 : o / 4 ≠ 7) (h9 : o / 4 ≠ 9)
    (h10 : o / 4 ≠ 10) (h11 : o / 4 ≠ 11) : rget (noted s p b c) q o = rget s q o :=
  (settlePage_sameButHeads s p _).regs q o ho h6 h7 h9 h10 h11

/-! ### The timebase -/

/-- What a load of TB leaves alone, and the value it leaves. -/
theorem loadTb_frame (s : State) (v : Nat) :
    (loadTb s v).belv.tb = v ∧ (loadTb s v).belv.frac = 0 ∧ (loadTb s v).evq = s.evq ∧ (loadTb s v).regs = s.regs ∧
      (loadTb s v).rings = s.rings ∧ (loadTb s v).reqs = s.reqs ∧ (loadTb s v).entries = s.entries := by
  unfold loadTb
  dsimp only
  split
  · exact ⟨rfl, rfl, rfl, rfl, rfl, rfl, rfl⟩
  · exact ⟨rfl, rfl, rfl, rfl, rfl, rfl, rfl⟩

theorem writeDw_tbSet {s : State} {lo w : W32} (h : tget none s.loStage (dwAddr 0x10 0x50) = some lo) :
    writeDw s 0x10 0x54 (whole w) =
      if pairTakes s .blv0 0x50 (lo.toNat + w.toNat * 2 ^ 32) then unstage (tbSet s (lo.toNat + w.toNat * 2 ^ 32)) 0x10 0x50
      else tbSet s (lo.toNat + w.toNat * 2 ^ 32) := by
  rw [writeDw_block (k := .blv0) (i := 0) rfl (by decide) (by decide) (by omega) (by omega)
    (r := ⟨0x54, 0, 1, 0, 0, 0, false, false⟩) rfl, blockWrite_hi rfl rfl rfl rfl rfl, stagedLo_of_some h]
  rfl

/-- A load of TB that is permitted: TB takes the value. -/
theorem tbSet_taken {s : State} {w : W32} {v : Nat} (hs : Settled s) (ha : answers s 0x10 = true)
    (hw : writeDw s 0x10 0x54 (whole w) = if pairTakes s .blv0 0x50 v then unstage (tbSet s v) 0x10 0x50 else tbSet s v)
    (h : tbSrc s = 0 ∧ mayLoad s v = true) :
    ∃ t, exec (.tbSetWrite (whole w)) s = .next t ∧ t.belv.tb = v ∧ t.belv.frac = 0 ∧
      tget none t.loStage (dwAddr 0x10 0x50) = none ∧ t.regs = s.regs ∧ t.rings = s.rings ∧ t.reqs = s.reqs ∧
      t.entries = s.entries ∧ t.hostMem = s.hostMem ∧ t.pkgMem = s.pkgMem ∧ t.coreMem = s.coreMem ∧ t.weights = s.weights ∧
      t.ingest = s.ingest := by
  have ht : pairTakes s .blv0 0x50 v = true := by simp [pairTakes, h]
  rw [ht, if_pos rfl, tbSet, if_pos h] at hw
  obtain ⟨htb, hfr, hevq, hregs, hrings, hreqs, hent⟩ := loadTb_frame s v
  have hh := held_loadTb s v
  exact ⟨_, done_regWrite_quiet _ ha (by omega) rfl hw (hevq.trans hs), htb, hfr, unstage_loStage .., hregs, hrings, hreqs, hent,
    congrArg Held.hostMem hh, congrArg Held.pkgMem hh, congrArg Held.coreMem hh, congrArg Held.weights hh,
    congrArg Held.ingest hh⟩

/-- A load of TB that is refused. -/
theorem tbSet_refused {s : State} {w : W32} {v : Nat} (hs : Settled s) (ha : answers s 0x10 = true)
    (hw : writeDw s 0x10 0x54 (whole w) = if pairTakes s .blv0 0x50 v then unstage (tbSet s v) 0x10 0x50 else tbSet s v)
    (h : ¬ (tbSrc s = 0 ∧ mayLoad s v = true)) :
    exec (.tbSetWrite (whole w)) s = .next (answer (noted s 0x10 9 0) .posted []) := by
  have ht : pairTakes s .blv0 0x50 v = false := by simpa [pairTakes] using h
  rw [ht, if_neg Bool.false_ne_true, tbSet, if_neg h] at hw
  exact done_regWrite_ev hs ha (by omega) rfl rfl hw

/-- Settles O28. -/
theorem timebaseLoad : Obligations.TimebaseLoad := by
  intro s lo w hs ha hlo
  have hw := writeDw_tbSet (w := w) hlo
  generalize lo.toNat + w.toNat * 2 ^ 32 = v at hw ⊢
  refine ⟨fun h0 h1 h2 => ?_, fun h => ?_⟩
  · exact tbSet_taken hs ha hw ⟨h0, by simpa [mayLoad, h1] using h2⟩
  · refine ⟨_, tbSet_refused hs ha hw ?_, noted_belv .., noted_loStage .., ?_, noted_rings ..⟩
    · rintro ⟨h0, h1⟩
      obtain ⟨h1, h2⟩ : ltEn s = false ∧ (s.belv.tb ≤ v ∨ ringsActive s = false) := by simpa [mayLoad] using h1
      rcases h with h | h | ⟨ha, hb⟩
      · exact h h0
      · simp [h] at h1
      · exact h2.elim (by omega) fun h => by simp [h] at hb
    · exact (bit_noted_sticky s pgBlv0 0 9 (by omega)).trans (Bool.or_true _)

/-! ### The handshake -/

theorem lo32_of_pair {lo w : W32} {n : Nat} (h : lo.toNat + w.toNat * 2 ^ 32 = n) : lo32 n = lo := by
  apply BitVec.eq_of_toNat_eq
  rw [lo32, BitVec.toNat_ofNat]
  have := lo.isLt
  omega

/-- A word is a pair's value exactly if it is the pair's LO and HI is 0. -/
theorem toNat_eq_pair {f lo w : W32} {n : Nat} (h : lo.toNat + w.toNat * 2 ^ 32 = n) : f.toNat = n ↔ f = lo ∧ w = 0 := by
  have hf := f.isLt
  have hl := lo.isLt
  constructor
  · intro e
    exact ⟨BitVec.eq_of_toNat_eq (by omega), BitVec.eq_of_toNat_eq (by change w.toNat = 0; omega)⟩
  · rintro ⟨rfl, rfl⟩
    simpa using h

/-- A merged word has the written bits inside the mask. -/
theorem merge_and (old w m : W32) : merge old w m &&& m = w &&& m := by
  ext i hi
  rw [merge]
  simp only [BitVec.getElem_and, BitVec.getElem_or, BitVec.getElem_not]
  cases m[i] <;> simp

theorem fld_low (w : W32) : fld w 3 0 = (w &&& 0xF).toNat := by
  have h := Nat.and_two_pow_sub_one_eq_mod w.toNat 4
  rw [fld, BitVec.toNat_and, Nat.pow_zero, Nat.div_one]
  exact h.symm

/-- A word written into a field [3:0]. -/
theorem fld_merge_low (old w : W32) : fld (merge old w 0xF) 3 0 = w.toNat % 16 := by
  rw [fld_low, merge_and, ← fld_low, fld, Nat.pow_zero, Nat.div_one]
  rfl

theorem fld_put_low {v : Nat} (h : v < 16) : fld (put 3 0 v) 3 0 = v := by
  rw [put, fld, BitVec.toNat_ofNat]
  omega

theorem writeDw_hskSelect (s : State) (w : W32) : writeDw s 1 0x44 (whole w) = hskSelect s (w.toNat % 16) := by
  rw [writeDw_block (k := .hsk) (i := 0) rfl (by decide) (by decide) (by omega) (by omega)
    (r := ⟨0x44, 0, 1, 0xf, 0, 0, false, false⟩) rfl, blockWrite_whole (.inr rfl) rfl rfl rfl (by decide), ← fld_merge_low
      (rget s 1 0x44)]
  rfl

/-- A write with an effect `u` that also sets a bit of a page unless a condition holds. -/
theorem done_regWrite_flag {s u : State} {p o : Nat} {dw : Dw} {c : Prop} {_ : Decidable c} (hu : Settled u)
    (h : answers s p = true) (ho : o < 4096) (h4 : o % 4 = 0) {q b n : Nat} (hb : b < 32) (hq : pageReach u q = .ok)
    (hw : writeDw s p o dw = if c then u else ev u q b n) :
    ∃ t, done (regWrite s p o dw) = .next t ∧ (∀ r, { t with regs := r } = answer { u with regs := r } .posted []) ∧
      (∀ q o, o < 4096 → o / 4 ≠ 6 → o / 4 ≠ 7 → o / 4 ≠ 9 → o / 4 ≠ 10 → o / 4 ≠ 11 → rget t q o = rget u q o) ∧
      bit (rget t q 0x18) b = (bit (rget u q 0x18) b || decide (¬ c)) := by
  by_cases hc : c
  · rw [if_pos hc] at hw
    refine ⟨_, done_regWrite_quiet dw h ho h4 hw hu, fun _ => rfl, fun _ _ _ _ _ _ _ _ => rfl, ?_⟩
    simp [hc, rget_answer]
  · rw [if_neg hc] at hw
    refine ⟨_, done_regWrite_ev hu h ho h4 hq hw, fun r => answer_noted_rest .., fun q o ho h6 h7 h9 h10 h11 => ?_, ?_⟩
    · exact rget_noted u _ _ _ ho h6 h7 h9 h10 h11
    · rw [rget_answer, bit_noted_sticky _ _ _ _ hb]
      simp [hc]

theorem hskSelect_offered {s : State} {v : Nat} (h : ringsActive s = false) (hv : v ≤ 3) :
    hskSelect s v =
      let f := rget s 1 0x50 &&& permitted v
      let u := rset (rset s 1 0x44 (put 3 0 v)) 1 0x50 f
      if f = rget s 1 0x50 then u else ev u 1 1 0 := by
  rw [hskSelect, if_pos ⟨h, hv⟩]
  rfl

theorem hskFeat_idle {s : State} {sel : Nat} (h : ringsActive s = false) :
    hskFeat s sel =
      let f := lo32 sel &&& permitted (version s)
      let u := rset (rset s 1 0x50 f) 1 0x54 0
      if f.toNat = sel ∧ rget s 1 0x50 &&& f = rget s 1 0x50 then u else ev u 1 1 0 := by
  rw [hskFeat, h, if_neg Bool.false_ne_true]
  rfl

theorem writeDw_hskFeat {s : State} {sel : Nat} {w : W32} (h : (stagedLo s .hsk 1 0x50).toNat + w.toNat * 2 ^ 32 = sel) :
    writeDw s 1 0x54 (whole w) = if ringsActive s = false then unstage (hskFeat s sel) 1 0x50 else hskFeat s sel := by
  rw [writeDw_block (k := .hsk) (i := 0) rfl (by decide) (by decide) (by omega) (by omega)
    (r := ⟨0x54, 0, 1, 0xffffffff, 0, 0, false, false⟩) rfl, blockWrite_hi rfl rfl rfl rfl rfl]
  dsimp only
  rw [h]
  cases hr : ringsActive s <;> simp [pairTakes, hr] <;> rfl

/-- Settles O21. -/
theorem handshakeWrites : Obligations.HandshakeWrites := by
  intro s w hs ha
  obtain ⟨-, -, hr⟩ := answers_open ha
  refine ⟨fun hi hv => ?_, fun h => ?_, fun hi => ?_, fun hact => ?_⟩
  · have hw := (writeDw_hskSelect s w).trans (hskSelect_offered hi hv)
    obtain ⟨t, he, hrest, hreg, hbit⟩ := done_regWrite_flag (b := 1)
      (u := rset (rset s 1 0x44 (put 3 0 (w.toNat % 16))) 1 0x50 (rget s 1 0x50 &&& permitted (w.toNat % 16)))
      hs ha (by omega) rfl (by omega) rfl hw
    refine ⟨t, he, ?_, ?_, ?_, hrest _⟩
    · rw [version, rfld, pgHsk, hreg _ _ (by omega) (by omega) (by omega) (by omega) (by omega) (by omega),
        rget_rset_other _ _ (by decide), rget_rset_self, fld_put_low (by omega)]
    · rw [hreg _ _ (by omega) (by omega) (by omega) (by omega) (by omega) (by omega), rget_rset_self]
    · rw [hbit, rget_rset_other _ _ (by decide), rget_rset_other _ _ (by decide)]
  · have hw : writeDw s 1 0x44 (whole w) = ev s 1 0 0 := by
      rw [writeDw_hskSelect, hskSelect, if_neg]
      · rfl
      · rintro ⟨h1, h2⟩
        rcases h with h | h
        · simp [h] at h1
        · omega
    exact done_regWrite_ev hs ha (by omega) rfl hr hw
  · generalize hsel : (stagedLo s .hsk 1 0x50).toNat + w.toNat * 2 ^ 32 = sel
    have hlo : lo32 sel = stagedLo s .hsk 1 0x50 := lo32_of_pair hsel
    have hw := writeDw_hskFeat hsel
    rw [if_pos hi, hskFeat_idle hi, hlo] at hw
    dsimp only at hw
    rw [apply_ite (unstage · 1 0x50)] at hw
    obtain ⟨t, he, hrest, hreg, hbit⟩ := done_regWrite_flag (b := 1)
      (u := unstage (rset (rset s 1 0x50 (stagedLo s .hsk 1 0x50 &&& permitted (version s))) 1 0x54 0) 1 0x50)
      hs ha (by omega) rfl (by omega) rfl hw
    refine ⟨t, he, ?_, ?_, ?_, ?_⟩
    · rw [hreg _ _ (by omega) (by omega) (by omega) (by omega) (by omega) (by omega)]
      change rget (rset (rset s 1 0x50 _) 1 0x54 0) 1 0x50 = _
      rw [rget_rset_other _ _ (by decide), rget_rset_self]
    · rw [hreg _ _ (by omega) (by omega) (by omega) (by omega) (by omega) (by omega)]
      change rget (rset (rset s 1 0x50 _) 1 0x54 0) 1 0x54 = _
      rw [rget_rset_self]
    · rw [hbit]
      change (bit (rget (rset (rset s 1 0x50 _) 1 0x54 0) 1 0x18) 1 || _) = _
      rw [rget_rset_other _ _ (by decide), rget_rset_other _ _ (by decide)]
      congr 1
      rw [decide_eq_decide, toNat_eq_pair hsel, BitVec.and_assoc, BitVec.and_comm (permitted _)]
      tauto
    · have hst := congrArg State.loStage (hrest [])
      change t.loStage = _ at hst
      rw [hst]
      exact unstage_loStage ..
  · generalize hsel : (stagedLo s .hsk 1 0x50).toNat + w.toNat * 2 ^ 32 = sel
    have hw := writeDw_hskFeat hsel
    rw [if_neg (by simp [hact]), hskFeat, if_pos hact] at hw
    refine ⟨_, done_regWrite_ev hs ha (by omega) rfl hr hw, ?_, ?_, ?_⟩
    · exact rget_noted s _ _ _ (by omega) (by omega) (by omega) (by omega) (by omega) (by omega)
    · exact rget_noted s _ _ _ (by omega) (by omega) (by omega) (by omega) (by omega) (by omega)
    · exact (bit_noted_sticky s 1 0 1 (by omega)).trans (Bool.or_true _)

/-! ### Doorbells -/

/-- A doorbell's number from its two words. -/
theorem toNat_append_words (b a : W32) : (b ++ a : W64).toNat = b.toNat * 2 ^ 32 + a.toNat := by
  rw [BitVec.toNat_append, ← Nat.shiftLeft_add_eq_or_of_lt a.isLt, Nat.shiftLeft_eq]

/-- The checks of a doorbell in terms of its two words. -/
theorem doorbellKind_words (s : State) {n : Nat} (hn : n < 8192) (a b : W32) :
    doorbellKind s n (b ++ a) =
      let r := ringAt s n
      let m := sqSize s n
      let c := cqSize s n
      let tail := a.toNat % 65536
      let head := b.toNat % 65536
      if b.toNat / 65536 ≠ fld (rgGet s n 4) 15 0 ∨ a.toNat / 65536 ≠ n then 1
      else if r.st = .disabled ∨ r.st = .draining ∨ version s = 0 then 2
      else if m ≤ tail ∨ c ≤ head then 3
      else if m - 1 < (tail + m - r.tail) % m + (r.tail + m - r.sqHead) % m then 4
      else if (r.cqTail + c - r.cqHead) % c < (head + c - r.cqHead) % c then 5
      else 0 := by
  have ha := a.isLt
  have e1 : (b.toNat * 2 ^ 32 + a.toNat) % 2 ^ 16 = a.toNat % 65536 := by omega
  have e2 : (b.toNat * 2 ^ 32 + a.toNat) / 2 ^ 32 % 2 ^ 16 = b.toNat % 65536 := by omega
  have e3 : (b.toNat * 2 ^ 32 + a.toNat) / 2 ^ 48 = b.toNat / 65536 := by omega
  have e4 : (b.toNat * 2 ^ 32 + a.toNat) / 2 ^ 16 % 2 ^ 13 ≠ n ∨ (b.toNat * 2 ^ 32 + a.toNat) / 2 ^ 29 % 8 ≠ 0 ↔
      a.toNat / 65536 ≠ n := by omega
  unfold doorbellKind
  simp only [toNat_append_words, e1, e2, e3, e4]

/-- No check fails exactly if each holds. -/
theorem firstCheck_zero {P Q R S T : Prop} [Decidable P] [Decidable Q] [Decidable R] [Decidable S] [Decidable T] :
    (if P then 1 else if Q then 2 else if R then 3 else if S then 4 else if T then 5 else 0) = 0 ↔
      ¬ P ∧ ¬ Q ∧ ¬ R ∧ ¬ S ∧ ¬ T := by
  split_ifs <;> simp [*]

/-- A write to BAR2 is the write of the doorbell's effect. -/
theorem exec_doorbellWrite {s : State} {addr : Nat} (l : List Dw) (hl : linkOpen s = true) (hst : s.pwr.st ≠ .sleep)
    (ha : addr < 0x10000) : exec (.doorbellWrite addr l) s = done (answer (bar2Write s addr l) .posted []) := by
  have hb : inBar 2 addr = true := by simp [inBar]; omega
  change done (hostWrite s 2 addr l) = _
  rw [hostWrite_open hl hb (sleepWaits_awake hst ..)]
  rfl

/-- A write to BAR2 that is no aligned 2-DW write with every byte enabled. -/
theorem bar2Write_malformed {s : State} {addr : Nat} {l : List Dw}
    (h : ∀ a b : Dw, l = [a, b] → a.be = 0xF → b.be = 0xF → addr % 8 ≠ 0) :
    bar2Write s addr l = ev s pgHdma 31 (if addr / 8 < 4096 then 0xA000 + addr / 8 else 0xB000 + (addr / 8 - 4096)) := by
  unfold bar2Write
  dsimp only
  split
  · next a b ha =>
    rw [if_neg]
    rintro ⟨h1, h2⟩
    exact h a b rfl h1 h2 (by simpa using ha)
  · rfl

/-- Settles O19. -/
theorem doorbellChecks : Obligations.DoorbellChecks := by
  refine ⟨fun s addr l hs hl hst ha h => ?_, fun s n a b hs hl hst hn ha hb => ?_⟩
  · rw [exec_doorbellWrite l hl hst ha, bar2Write_malformed h]
    exact done_answer_ev hs rfl ..
  · intro r m c key head tail ring k
    have hk : k = _ := doorbellKind_words s hn a.data b.data
    dsimp only at hk
    have h1 (hkey : key = fld (rgGet s n 4) 15 0) (hring : ring = n) : ¬ (key ≠ fld (rgGet s n 4) 15 0 ∨ ring ≠ n) :=
      fun h => h.elim (· hkey) (· hring)
    have h2 (hd : r.st ≠ .disabled) (hdr : r.st ≠ .draining) (hv : version s ≠ 0) :
        ¬ (r.st = .disabled ∨ r.st = .draining ∨ version s = 0) := fun h => h.elim hd (·.elim hdr hv)
    refine ⟨?_, fun h => ?_, fun hkey hring h => ?_, fun hkey hring hd hdr hv h => ?_, fun hkey hring hd hdr hv ht hh => ?_,
      fun h0 => ?_⟩
    · rw [hk, firstCheck_zero]
      simp only [not_or, not_not, Nat.not_le, Nat.not_lt, and_assoc]
      rfl
    · rw [hk, if_pos h]
    · rw [hk, if_neg (h1 hkey hring), if_pos h]
    · rw [hk, if_neg (h1 hkey hring), if_neg (h2 hd hdr hv), if_pos h]
    · have h3 : ¬ (m ≤ tail ∨ c ≤ head) := by omega
      refine ⟨fun h => ?_, fun h h5 => ?_⟩
      · rw [hk, if_neg (h1 hkey hring), if_neg (h2 hd hdr hv), if_neg h3, if_pos h]
      · rw [hk, if_neg (h1 hkey hring), if_neg (h2 hd hdr hv), if_neg h3, if_neg (Nat.not_lt.mpr h), if_pos h5]
    · have e : bar2Write s (8 * n) [a, b] = ev (count (putRing s n { r with dbErr := k }) 0x90 0x60 1) 0x90 0 (k * 2 ^ 13 + n) := by
        have e8 : 8 * n / 8 = n := by omega
        have e0 : 8 * n % 8 = 0 := by omega
        unfold bar2Write
        simp only [e8, e0, decide_true, ha, hb, and_self, if_true]
        rw [doorbell]
        exact if_pos h0
      rw [exec_doorbellWrite _ hl hst (by omega), e]
      exact done_answer_ev (s := count (putRing s n { r with dbErr := k }) 0x90 0x60 1) hs rfl ..

/-! ### Slots of rings -/

theorem kindOf_rng {p : Nat} (h1 : 0x100 ≤ p) (h2 : p < 0x180) : kindOf p = some (.rng, p - 0x100) := by
  unfold kindOf
  rw [if_pos (by omega)]
  iterate 23 rw [if_neg (by omega)]
  rw [if_pos ⟨h1, h2⟩]

/-- A register of a slot is found by its offset within the slot. -/
theorem rowAt_slot {k o : Nat} (hk : k < 64) (ho : o < 64) : rowAt .rng (k * 64 + o) = rowAt .rng o := by
  have h : ∀ r ∈ rowsRng, r.step = 64 ∧ r.cnt = 64 ∧ r.first < 64 := by decide
  refine List.find?_congr fun r hr => ?_
  obtain ⟨h1, h2, h3⟩ := h r hr
  rw [Bool.eq_iff_iff]
  simp [RegRow.covers, h1, h2]
  omega

/-- A whole-word write of the LO of an address pair of a slot. -/
theorem ringWrite_lo {s : State} {p off : Nat} {r : RegRow} {w : W32} (ho : off % 64 = 8 ∨ off % 64 = 0x10 ∨ off % 64 = 0x18)
    (hm : r.wm ≠ 0) (hl : isLo .rng off = true) : ringWrite s p off r (whole w) = stageLo s .rng p off w r.wm := by
  have hd : (whole w).data = w := rfl
  unfold ringWrite
  dsimp only
  rw [if_neg (by omega), beMask_whole, BitVec.allOnes_and, if_neg hm, if_pos hl, hd]

/-- A whole-word write of the HI of an address pair of a slot. -/
theorem ringWrite_hi {s : State} {p off n v : Nat} {r : RegRow} {w : W32} (ho : off % 64 = 0xC ∨ off % 64 = 0x14 ∨ off % 64 = 0x1C)
    (hn : (p - 0x100) * 64 + off / 64 = n) (hm : r.wm = BitVec.allOnes 32) (hl : isLo .rng off = false) (hh : isHi .rng off = true)
    (hd : (ringAt s n).st = .disabled) (hv : (stagedLo s .rng p (off - 4)).toNat + w.toNat * 2 ^ 32 = v) :
    ringWrite s p off r (whole w) =
      unstage (rset64 (imageWritten s 5 0) (pgRng n) (slotOff n + (off % 64 - 4)) v) p (off - 4) := by
  unfold ringWrite
  dsimp only
  rw [if_neg (by omega), beMask_whole, hm, BitVec.allOnes_and, if_neg (by decide), if_neg (by simp [hl]), if_pos hh, hn,
    if_pos hd, ringCfgWrite64, if_pos hd, pairValue, merge_allOnes,
    show (whole w).data = w from rfl, hv]
theorem readValue_featLo (s : State) : readValue s .hsk 0 1 0x48 = peek s .hsk 0 1 0x48 := by
  rw [readValue, show isHi .hsk 0x48 = false from rfl, if_neg Bool.false_ne_true]

theorem readValue_featHi (s : State) : readValue s .hsk 0 1 0x4C = tget 0 s.hiShadow (dwAddr 1 0x48) := by
  rw [readValue, show isHi .hsk 0x4C = true from rfl, if_pos rfl]

/-- A read of HSK_FEAT_OFFER latches its HI, or does nothing where it reads the HI. -/
theorem readAct_hsk (s : State) (p off : Nat) (be : BitVec 4) : readAct s .hsk 0 p off be = latchHi s .hsk 0 p off := rfl

theorem isLo_rng {off : Nat} {r : RegRow} (h : rowAt .rng off = some r) : isLo .rng off = r.pair := by
  simp [isLo, h]

/-- The registers of the LO words of a slot's address pairs, and their written bits. -/
theorem rowAt_ringLo {o : Nat} (ho : o = 0x08 ∨ o = 0x10 ∨ o = 0x18) :
    ∃ r, rowAt .rng o = some r ∧ r.pair = true ∧ r.wm = if o = 0x18 then 0xFFFFFFF8 else 0xFFFFFFC0 := by
  rcases ho with rfl | rfl | rfl <;> exact ⟨_, rfl, rfl, rfl⟩

theorem rowAt_ringHi {o : Nat} (ho : o = 0x08 ∨ o = 0x10 ∨ o = 0x18) :
    ∃ r, rowAt .rng (o + 4) = some r ∧ r.pair = false ∧ r.wm = BitVec.allOnes 32 := by
  rcases ho with rfl | rfl | rfl <;> exact ⟨_, rfl, rfl, rfl⟩

/-- Settles O14. -/
theorem loHiPairs : Obligations.LoHiPairs := by
  refine ⟨fun s be hs ha => ⟨fun hb => ?_, ?_, fun be' => ?_⟩, fun s n o w hs hn ha hd ho => ?_⟩
  · change done (regRead s 1 0x48 be) = _
    rw [← readValue_featLo]
    refine done_regRead (k := .hsk) ha rfl (by omega) rfl rfl ?_ hs
    rw [if_neg hb, readAct_hsk, latchHi, show isLo .hsk 0x48 = true from rfl, if_pos rfl]
  · change done (regRead s 1 0x48 0) = _
    rw [← readValue_featLo]
    exact done_regRead (k := .hsk) ha rfl (by omega) rfl rfl (if_pos rfl) hs
  · change done (regRead s 1 0x4C be') = _
    rw [← readValue_featHi]
    refine done_regRead (k := .hsk) ha rfl (by omega) rfl rfl ?_ hs
    rw [readAct_hsk, latchHi, show isLo .hsk 0x4C = false from rfl, if_neg Bool.false_ne_true, ite_self]
  · intro p at_ m
    have hp : kindOf p = some (.rng, p - 0x100) := kindOf_rng (by omega) (by omega)
    have hat : at_ % 64 = o ∧ (p - 0x100) * 64 + at_ / 64 = n ∧ at_ + 4 < 4096 ∧ at_ % 4 = 0 := by omega
    obtain ⟨hmod, hslot, hlt, h4⟩ := hat
    obtain ⟨r, hr, hpair, hwm⟩ := rowAt_ringLo ho
    obtain ⟨r', hr', hpair', hwm'⟩ := rowAt_ringHi ho
    rw [← rowAt_slot (k := n % 64) (Nat.mod_lt _ (by omega)) (by omega)] at hr hr'
    rw [← Nat.add_assoc] at hr'
    have hlo : isLo .rng at_ = true := (isLo_rng hr).trans hpair
    have hw := (writeDw_ring (s := s) hp hr (whole w)).trans (ringWrite_lo (by omega) (by rw [hwm]; split <;> decide) hlo)
    refine ⟨?_, fun lo hst => ?_⟩
    · rw [hwm] at hw
      exact done_regWrite_quiet _ ha (by omega) h4 hw hs
    · have hi : isHi .rng (at_ + 4) = true := by simp [isHi, hlo]
      have e1 : at_ + 4 - 4 = at_ := by omega
      have e2 : slotOff n + ((at_ + 4) % 64 - 4) = at_ := by unfold slotOff; omega
      have e3 : pgRng n = p := rfl
      obtain ⟨v, hv⟩ : ∃ v, lo.toNat + w.toNat * 2 ^ 32 = v := ⟨_, rfl⟩
      have hv64 : v % 2 ^ 64 = v := Nat.mod_eq_of_lt (by have := lo.isLt; have := w.isLt; omega)
      have hw' := (writeDw_ring (s := s) hp hr' (whole w)).trans
        (ringWrite_hi (v := v) (by omega) (by omega) hwm' ((isLo_rng hr').trans hpair') hi hd
          (by rw [e1, stagedLo_of_some hst, hv]))
      rw [e1, e2, e3] at hw'
      rw [hv]
      refine ⟨_, done_regWrite_quiet _ ha (by omega) (by omega) hw' hs, ?_, unstage_loStage .., rfl⟩
      exact (rget64_rset64 (imageWritten s 5 0) p at_ v).trans hv64

end Sys2Proof.Laws
end

section
/-! The instant of a decided commit (R47, R234): what its members take or refuse, the next outcome of the group, and the profile that
goes to the NV record (R371). -/

namespace Sys2Proof.Laws

open Sys2Proof Sys2Proof.Machine

/-! ### Lists of pages taken in turn -/

/-- A fact that taking `a` establishes, and that taking anything else keeps, holds after a list with `a` in it; `I` is what every step
keeps. -/
theorem foldl_reaches {σ α : Type} {f : σ → α → σ} {I Q : σ → Prop} {a : α} (hI : ∀ s b, I s → I (f s b))
    (ha : ∀ s, I s → Q (f s a))
    (hQ : ∀ s b, b ≠ a → I s → Q s → Q (f s b)) {l : List α} (h : a ∈ l) {s : σ} (hs : I s) : Q (l.foldl f s) := by
  induction l generalizing s with
  | nil => cases h
  | cons b l ih =>
    rw [List.foldl_cons]
    by_cases hl : a ∈ l
    · exact ih hl (hI s b hs)
    · obtain rfl : a = b := (List.mem_cons.mp h).resolve_right hl
      have hkeep : I (l.foldl f (f s a)) ∧ Q (l.foldl f (f s a)) :=
        List.foldlRecOn (motive := fun u => I u ∧ Q u) l f ⟨hI s a hs, ha s hs⟩ fun u hu c hc =>
          ⟨hI u c hu.1, hQ u c (fun e => hl (e ▸ hc)) hu.1 hu.2⟩
      exact hkeep.2

/-! ### Shadowed registers -/

theorem shadowedOffs_range {p o : Nat} (h : o ∈ shadowedOffs p) : 0x40 ≤ o ∧ o < 0x800 ∧ o % 4 = 0 := by
  have hall (k : Kind) : ∀ r ∈ rowsOf k, r.shad = true → 0x40 ≤ r.first ∧ r.first < 0x800 ∧ r.first % 4 = 0 := by
    cases k <;> decide
  unfold shadowedOffs at h
  split at h
  · next k i hk =>
    split at h
    · obtain ⟨r, hr, rfl⟩ := List.mem_map.mp h
      obtain ⟨hr, hs⟩ := List.mem_filter.mp hr
      exact hall k r hr hs
    · cases h
  · cases h

/-- The active registers take their shadows, and the shadows stay. -/
theorem rget_takeShadows (s : State) (p : Nat) {l : List Nat} (hl : ∀ o ∈ l, o < 0x800 ∧ o % 4 = 0) {o : Nat} (ho : o < 4096)
    (h4 : o % 4 = 0) :
    rget (l.foldl (fun s o => rset s p o (rget s p (0x800 + o))) s) p o = if o ∈ l then rget s p (0x800 + o) else rget s p o := by
  induction l generalizing s with
  | nil => rfl
  | cons a l ih =>
    obtain ⟨ha, ha4⟩ := hl a List.mem_cons_self
    rw [List.foldl_cons, ih _ fun o h => hl o (List.mem_cons_of_mem a h)]
    have hsh : o < 0x800 → rget (rset s p a (rget s p (0x800 + a))) p (0x800 + o) = rget s p (0x800 + o) := fun h =>
      rget_rset_other _ _ (dwAddr_ne (by omega) (by omega) ha4 (by omega) (by omega))
    by_cases hm : o ∈ l
    · rw [if_pos hm, if_pos (List.mem_cons_of_mem a hm), hsh (hl o (List.mem_cons_of_mem a hm)).1]
    · rw [if_neg hm]
      by_cases he : o = a
      · subst he
        rw [if_pos List.mem_cons_self, rget_rset_self]
      · rw [if_neg (by simp [he, hm]), rget_rset_other _ _ (dwAddr_ne (by omega) ho ha4 h4 (by omega))]

@[simp] theorem rget_ev (s : State) (p b c q o : Nat) : rget (ev s p b c) q o = rget s q o := rfl

@[simp] theorem rget64_ev (s : State) (p b c q o : Nat) : rget64 (ev s p b c) q o = rget64 s q o := rfl

/-! ### A member of an applied commit -/

/-- What a member takes: everything of the page but NV. -/
def takeCommit (s : State) (t p : Nat) : State :=
  let u := (shadowedOffs p).foldl (fun s o => rset s p o (rget s p (0x800 + o))) s
  rset64 (rset u p 0x30 (commitWord u p &&& 0x0000000F)) p 0x34 t

theorem applyMember_eq (s : State) (t p : Nat) :
    applyMember s t p =
      if p = pgPwr then { takeCommit s t p with
        nv := { (takeCommit s t p).nv with profile := BitVec.ofNat 2 (rfld (takeCommit s t p) 0x40 0x44 1 0) } }
      else takeCommit s t p := rfl

theorem applyMember_regs (s : State) (t p : Nat) : (applyMember s t p).regs = (takeCommit s t p).regs := by
  rw [applyMember_eq]
  split <;> rfl

theorem rget_applyMember (s : State) (t p q o : Nat) : rget (applyMember s t p) q o = rget (takeCommit s t p) q o :=
  rget_of_regs (applyMember_regs s t p) q o

/-- A write of a page's registers reaches no other page. -/
theorem rget_takeCommit_other (s : State) {t p q o : Nat} (h : q ≠ p) (ho : o < 4096) :
    rget (takeCommit s t p) q o = rget s q o := by
  have hne {a : Nat} (ha : a < 4096) : dwAddr p a ≠ dwAddr q o := fun e => h ((dwAddr_inj ha ho).mp e).1.symm
  have hf : rget ((shadowedOffs p).foldl (fun s o => rset s p o (rget s p (0x800 + o))) s) q o = rget s q o :=
    List.foldlRecOn (motive := fun u => rget u q o = rget s q o) _ _ rfl fun u hu a ha =>
      (rget_rset_other _ _ (hne (by have := shadowedOffs_range ha; omega))).trans hu
  unfold takeCommit
  dsimp only
  rw [rget_rset64_other _ _ (hne (by omega)) (hne (by omega)), rget_rset_other _ _ (hne (by omega)), hf]

/-- The registers of the page itself, outside PAGE_COMMIT and COMMIT_AT. -/
theorem rget_takeCommit (s : State) (t p : Nat) {o : Nat} (ho : o < 4096) (h4 : o % 4 = 0) (h : o < 0x30 ∨ 0x3C ≤ o) :
    rget (takeCommit s t p) p o = if o ∈ shadowedOffs p then rget s p (0x800 + o) else rget s p o := by
  unfold takeCommit
  dsimp only
  rw [rget_rset64_other _ _ (dwAddr_ne (by omega) ho rfl h4 (by omega)) (dwAddr_ne (by omega) ho rfl h4 (by omega)),
    rget_rset_other _ _ (dwAddr_ne (by omega) ho rfl h4 (by omega)),
    rget_takeShadows s p (fun o h => (shadowedOffs_range h).2) ho h4]

theorem rget_takeCommit_word (s : State) (t p : Nat) : rget (takeCommit s t p) p 0x30 = rget s p 0x30 &&& 0x0000000F := by
  have h : 0x30 ∉ shadowedOffs p := fun h => by have := shadowedOffs_range h; omega
  unfold takeCommit
  dsimp only
  rw [rget_rset64_other _ _ (dwAddr_ne (by omega) (by omega) rfl rfl (by omega))
    (dwAddr_ne (by omega) (by omega) rfl rfl (by omega)),
    rget_rset_self, commitWord, rget_takeShadows s p (fun o h => (shadowedOffs_range h).2) (by omega) rfl, if_neg h]

theorem rget64_takeCommit (s : State) (t p : Nat) : rget64 (takeCommit s t p) p 0x34 = t % 2 ^ 64 := rget64_rset64 ..

/-- A member takes a commit by its registers alone. -/
theorem takeCommit_rest (s : State) (t p : Nat) : { takeCommit s t p with regs := s.regs } = s := by
  have h : { (shadowedOffs p).foldl (fun s o => rset s p o (rget s p (0x800 + o))) s with regs := s.regs } = s :=
    List.foldlRecOn (motive := fun u : State => { u with regs := s.regs } = s) _ _ rfl fun u hu a ha => hu
  exact h

theorem applyMember_profile (s : State) (t : Nat) :
    (applyMember s t 0x40).nv.profile = BitVec.ofNat 2 (rfld (takeCommit s t 0x40) 0x40 0x44 1 0) := by
  rw [applyMember_eq]
  generalize takeCommit s t 0x40 = u
  rw [if_pos (show 0x40 = pgPwr from rfl)]

theorem applyMember_nv_other (s : State) (t : Nat) {p : Nat} (h : p ≠ 0x40) : (applyMember s t p).nv = s.nv := by
  have hn := congrArg State.nv (takeCommit_rest s t p)
  rw [applyMember_eq]
  generalize takeCommit s t p = u at hn ⊢
  rw [if_neg (show p ≠ pgPwr from h)]
  exact hn

/-- A member changes nothing but registers and NV. -/
theorem applyMember_rest (s : State) (t p : Nat) : { applyMember s t p with regs := s.regs, nv := s.nv } = s := by
  have h := congrArg (fun u : State => { u with nv := s.nv }) (takeCommit_rest s t p)
  rw [applyMember_eq]
  generalize takeCommit s t p = u at h ⊢
  split
  · exact h
  · exact h

/-! ### A member of a refused commit -/

/-- PAGE_COMMIT of a member of a refused commit. -/
def refusedWord (g : Nat) (w : W32) : W32 :=
  if bit (w ||| 0x00010000) 31 && fld (w ||| 0x00010000) 3 0 == g then (w ||| 0x00010000) &&& 0x7FFFFFFF else w ||| 0x00010000

theorem refuseMember_of_ok {s : State} (g t : Nat) {p : Nat} (h : pageReach s p = .ok) :
    refuseMember s g t p = ev (rset64 (rset s p 0x30 (refusedWord g (rget s p 0x30))) p 0x34 t) p 28 (0x7000 + g) := by
  unfold refuseMember
  rw [if_neg (by simp [h])]
  rfl

theorem refuseMember_of_not {s : State} (g t : Nat) {p : Nat} (h : pageReach s p ≠ .ok) : refuseMember s g t p = s := by
  rw [refuseMember, if_pos h]

theorem bit_refusedWord (g : Nat) (w : W32) : bit (refusedWord g w) 16 = true := by
  unfold refusedWord
  split <;> simp [bit]

/-- A member armed for the group, or for none, is not armed after it. -/
theorem bit_refusedWord_arm {g : Nat} {w : W32} (h : bit w 31 = true → fld w 3 0 = g) : bit (refusedWord g w) 31 = false := by
  have h31 : bit (w ||| 0x00010000) 31 = bit w 31 := by simp [bit]
  have hg : fld (w ||| 0x00010000) 3 0 = fld w 3 0 := by
    have hz : (0x00010000 : W32) &&& 0xF = 0#32 := by decide
    rw [fld_low, fld_low, BitVec.and_or_distrib_right, hz, BitVec.or_zero]
  rw [refusedWord, h31, hg]
  cases hw : bit w 31
  · rw [if_neg (by simp)]
    exact h31.trans hw
  · rw [if_pos (by simp [h hw])]
    simp [bit]

theorem rget_refuseMember_other (s : State) (g t : Nat) {p q o : Nat} (ho : o < 4096) (h4 : o % 4 = 0)
    (h : q ≠ p ∨ o < 0x30 ∨ 0x3C ≤ o) : rget (refuseMember s g t p) q o = rget s q o := by
  by_cases hr : pageReach s p = .ok
  · rw [refuseMember_of_ok g t hr]
    rw [rget_ev, rget_rset64_other _ _ (dwAddr_ne (by omega) ho rfl h4 (by omega)) (dwAddr_ne (by omega) ho rfl h4 (by omega)),
      rget_rset_other _ _ (dwAddr_ne (by omega) ho rfl h4 (by omega))]
  · rw [refuseMember_of_not g t hr]

theorem rget_refuseMember_word {s : State} (g t : Nat) {p : Nat} (hr : pageReach s p = .ok) :
    rget (refuseMember s g t p) p 0x30 = refusedWord g (rget s p 0x30) := by
  rw [refuseMember_of_ok g t hr]
  rw [rget_ev, rget_rset64_other _ _ (dwAddr_ne (by omega) (by omega) rfl rfl (by omega))
    (dwAddr_ne (by omega) (by omega) rfl rfl (by omega)),
    rget_rset_self]

theorem rget64_refuseMember {s : State} (g t : Nat) {p : Nat} (hr : pageReach s p = .ok) :
    rget64 (refuseMember s g t p) p 0x34 = t % 2 ^ 64 := by
  rw [refuseMember_of_ok g t hr, rget64_ev, rget64_rset64]

/-- A member changes nothing but registers, and raises an event. -/
theorem refuseMember_rest (s : State) (g t p : Nat) : { refuseMember s g t p with regs := s.regs, evq := s.evq } = s := by
  by_cases hr : pageReach s p = .ok
  · rw [refuseMember_of_ok g t hr]
    rfl
  · rw [refuseMember_of_not g t hr]

theorem refuseMember_evq {s : State} (g t : Nat) {p : Nat} (hr : pageReach s p = .ok) :
    (refuseMember s g t p).evq = s.evq ++ [⟨p, 28, 0x7000 + g⟩] := by
  rw [refuseMember_of_ok g t hr]
  rfl

theorem mem_refuseMember_evq {s : State} (g t p : Nat) {e : Ev} (h : e ∈ s.evq) : e ∈ (refuseMember s g t p).evq := by
  by_cases hr : pageReach s p = .ok
  · rw [refuseMember_evq g t hr]
    exact List.mem_append_left _ h
  · rwa [refuseMember_of_not g t hr]

theorem pageReach_refuseMember (s : State) (g t p q : Nat) : pageReach (refuseMember s g t p) q = pageReach s q := by
  have h := refuseMember_rest s g t p
  exact pageReach_congr (congrArg State.part h) (congrArg State.dies h) q

/-- The sticky bits after events. -/
def stick (es : List Ev) (w : W32) : W32 := es.foldl (fun w e => w ||| put e.bit e.bit 1) w

/-- A bit that an event of a page that answers names is set. -/
theorem bit_settle {s : State} {p b c : Nat} (h : ⟨p, b, c⟩ ∈ s.evq) (hr : pageReach s p = .ok) (hb : b < 32) :
    bit (rget (settle s) p 0x18) b = true := by
  have hex : (∃ e ∈ s.evq, e.page = p) ∧ pageReach s p = .ok := ⟨⟨_, h, rfl⟩, hr⟩
  have hw := rget_settle_word (f := stick (s.evq.filter fun e => e.page == p)) (s := s) (p := p) (o := 0x18) (by omega)
    fun t => rget_settlePage_sticky t p _
  rw [if_pos hex] at hw
  rw [hw, stick, bit_sticky _ _ hb, Bool.or_eq_true]
  right
  simp only [List.any_eq_true, List.mem_filter, beq_iff_eq]
  exact ⟨_, ⟨h, rfl⟩, rfl⟩

/-! ### The next outcome -/

/-- What a commit is judged on. -/
theorem judgeGroup_congr {s t : State} {g : Nat} (hm : (groupAt t g).members = (groupAt s g).members) (hg : g < 16)
    (hr : ∀ p o, o < 4096 → o / 4 ≠ 6 → o / 4 ≠ 7 → o / 4 ≠ 9 → o / 4 ≠ 10 → o / 4 ≠ 11 → rget t p o = rget s p o)
    (hp : ∀ p, pageReach t p = pageReach s p) : judgeGroup t g = judgeGroup s g := by
  have hlow : rfld t pgBlv3 (0xC0 + 4 * g) 11 0 = rfld s pgBlv3 (0xC0 + 4 * g) 11 0 := by
    rw [rfld, rfld, hr _ _ (by omega) (by omega) (by omega) (by omega) (by omega) (by omega)]
  have harm (p : Nat) : armedFor t g p = armedFor s g p := by
    rw [armedFor, armedFor, commitWord, commitWord, hp, hr _ _ (by omega) (by omega) (by omega) (by omega) (by omega) (by omega)]
  unfold judgeGroup
  simp only [hm, hlow, harm]

theorem nextOutcome_rest (s : State) (g : Nat) (last : BitVec 2) : { nextOutcome s g last with groups := s.groups } = s := by
  unfold nextOutcome
  dsimp only
  split <;> rfl

/-- The group of the next outcome: its members are those that joined, and a COMMIT that waited is judged on them. -/
theorem groupAt_nextOutcome (s : State) {g : Nat} (hg : g < 16) (last : BitVec 2) :
    groupAt (nextOutcome s g last) g =
      { members := (groupAt s g).joining, joining := [],
        held := (groupAt s g).after.head?.map fun u => (u, judgeGroup (nextOutcome s g last) g),
        after := (groupAt s g).after.tail, last := last } := by
  have hself (t : State) (v : Group) : groupAt (putGroup t g v) g = v := tget_tset_self ..
  cases ha : (groupAt s g).after with
  | nil =>
    have e : nextOutcome s g last =
        putGroup s g { members := (groupAt s g).joining, joining := [], held := none, after := [], last := last } := by
      rw [nextOutcome, ha]
      rfl
    rw [e, hself]
    rfl
  | cons u l =>
    let v := putGroup s g { members := (groupAt s g).joining, joining := [], held := none, after := l, last := last }
    have e : nextOutcome s g last = putGroup v g { groupAt v g with held := some (u, judgeGroup v g) } := by
      rw [nextOutcome, ha]
      rfl
    have hj : judgeGroup (putGroup v g { groupAt v g with held := some (u, judgeGroup v g) }) g = judgeGroup v g :=
      judgeGroup_congr (by rw [hself]) hg (fun _ _ _ _ _ _ _ _ => rfl) fun _ => rfl
    rw [e, hj, hself, hself]
    rfl

/-! ### The instant of a commit -/

/-- The state after the members of an applied commit have taken it. -/
def applied (s : State) (l : List Nat) (t : Nat) : State := l.foldl (fun s p => applyMember s t p) s

/-- The state after the members of a refused commit have taken it. -/
def refused (s : State) (g : Nat) (l : List Nat) (t : Nat) : State := l.foldl (fun s p => refuseMember s g t p) s

theorem applied_rest (s : State) (l : List Nat) (t : Nat) : { applied s l t with regs := s.regs, nv := s.nv } = s :=
  List.foldlRecOn (motive := fun u : State => { u with regs := s.regs, nv := s.nv } = s) _ _ rfl fun u hu p _ => by
    have h := congrArg (fun u : State => { u with regs := s.regs, nv := s.nv }) (applyMember_rest u t p)
    exact h.trans hu

/-- A page that is no member keeps its registers. -/
theorem rget_applied_other (s : State) {l : List Nat} (t : Nat) {p o : Nat} (hp : p ∉ l) (ho : o < 4096) :
    rget (applied s l t) p o = rget s p o :=
  List.foldlRecOn (motive := fun u : State => rget u p o = rget s p o) _ _ rfl fun u hu q hq => by
    rw [rget_applyMember, rget_takeCommit_other _ (by rintro rfl; exact hp hq) ho, hu]

/-- A register that no commit shadows, outside PAGE_COMMIT and COMMIT_AT, keeps its value. -/
theorem rget_applied_plain (s : State) (l : List Nat) (t : Nat) {p o : Nat} (ho : o < 4096) (h4 : o % 4 = 0)
    (h : o < 0x30 ∨ 0x3C ≤ o) (hn : o ∉ shadowedOffs p) : rget (applied s l t) p o = rget s p o :=
  List.foldlRecOn (motive := fun u : State => rget u p o = rget s p o) _ _ rfl fun u hu q hq => by
    rw [rget_applyMember]
    by_cases e : p = q
    · rw [← e, rget_takeCommit _ _ _ ho h4 h, if_neg hn, hu]
    · rw [rget_takeCommit_other _ e ho, hu]

/-- No member touches a shadow. -/
theorem rget_applyMember_shadow (s : State) (t q : Nat) {p o : Nat} (ho : o ∈ shadowedOffs p) :
    rget (applyMember s t q) p (0x800 + o) = rget s p (0x800 + o) := by
  have hr := shadowedOffs_range ho
  rw [rget_applyMember]
  by_cases e : p = q
  · have hn : 0x800 + o ∉ shadowedOffs q := fun h => by have := shadowedOffs_range h; omega
    rw [← e, rget_takeCommit _ _ _ (by omega) (by omega) (by omega), if_neg (e ▸ hn)]
  · rw [rget_takeCommit_other _ e (by omega)]

/-- A fact about a member's registers that taking the commit establishes. -/
theorem applied_reaches {s : State} {l : List Nat} {t p : Nat} {Q : State → Prop} {c : Nat → W32}
    (hQ : ∀ u, (∀ o ∈ shadowedOffs p, rget u p (0x800 + o) = c o) → Q (takeCommit u t p))
    (hcongr : ∀ u v : State, (∀ o, o < 4096 → rget v p o = rget u p o) → Q u → Q v) (hp : p ∈ l)
    (hs : ∀ o ∈ shadowedOffs p, rget s p (0x800 + o) = c o) : Q (applied s l t) := by
  refine foldl_reaches (I := fun u => ∀ o ∈ shadowedOffs p, rget u p (0x800 + o) = c o) (fun u q hu o ho => ?_) (fun u hu => ?_)
    (fun u q hq _ hu => ?_) hp hs
  · exact (rget_applyMember_shadow u t q ho).trans (hu o ho)
  · exact hcongr _ _ (fun o _ => rget_applyMember ..) (hQ u hu)
  · exact hcongr u _ (fun o ho => by rw [rget_applyMember, rget_takeCommit_other _ (Ne.symm hq) ho]) hu

theorem refused_rest (s : State) (g : Nat) (l : List Nat) (t : Nat) : { refused s g l t with regs := s.regs, evq := s.evq } = s :=
  List.foldlRecOn (motive := fun u : State => { u with regs := s.regs, evq := s.evq } = s) _ _ rfl fun u hu p _ => by
    have h := congrArg (fun u : State => { u with regs := s.regs, evq := s.evq }) (refuseMember_rest u g t p)
    exact h.trans hu

/-- Outside PAGE_COMMIT and COMMIT_AT every register keeps its value. -/
theorem rget_refused (s : State) (g : Nat) (l : List Nat) (t : Nat) {p o : Nat} (ho : o < 4096) (h4 : o % 4 = 0)
    (h : o < 0x30 ∨ 0x3C ≤ o) : rget (refused s g l t) p o = rget s p o :=
  List.foldlRecOn (motive := fun u : State => rget u p o = rget s p o) _ _ rfl fun u hu q _ => by
    rw [rget_refuseMember_other _ _ _ ho h4 (.inr h), hu]

/-- What a member of a refused commit that answers holds after it. -/
theorem refused_member {s : State} {g : Nat} {l : List Nat} (t : Nat) {p : Nat} (hp : p ∈ l) (hr : pageReach s p = .ok) :
    bit (rget (refused s g l t) p 0x30) 16 = true ∧ rget64 (refused s g l t) p 0x34 = t % 2 ^ 64 ∧
      ⟨p, 28, 0x7000 + g⟩ ∈ (refused s g l t).evq := by
  refine foldl_reaches (I := fun u => pageReach u p = .ok)
    (Q := fun u => bit (rget u p 0x30) 16 = true ∧ rget64 u p 0x34 = t % 2 ^ 64 ∧ ⟨p, 28, 0x7000 + g⟩ ∈ u.evq)
    (fun u q hu => (pageReach_refuseMember ..).trans hu) (fun u hu => ⟨?_, ?_, ?_⟩) (fun u q hq _ hu => ?_) hp hr
  · rw [rget_refuseMember_word g t hu, bit_refusedWord]
  · exact rget64_refuseMember g t hu
  · rw [refuseMember_evq g t hu]
    exact List.mem_append_right _ List.mem_cons_self
  · obtain ⟨h1, h2, h3⟩ := hu
    have ho {o : Nat} (ho : o < 4096) (h4 : o % 4 = 0) : rget (refuseMember u g t q) p o = rget u p o :=
      rget_refuseMember_other _ _ _ ho h4 (.inl (Ne.symm hq))
    refine ⟨by rwa [ho (by omega) rfl], ?_, mem_refuseMember_evq g t q h3⟩
    rw [rget64, ho (by omega) rfl, ho (by omega) rfl, ← rget64, h2]

/-- A member armed for the group is armed no more. -/
theorem refused_disarmed {s : State} {g : Nat} {l : List Nat} (t : Nat) {p : Nat} (hp : p ∈ l) (ha : armedFor s g p = true) :
    bit (rget (refused s g l t) p 0x30) 31 = false := by
  simp only [armedFor, commitWord, Bool.and_eq_true, beq_iff_eq] at ha
  obtain ⟨⟨-, hg⟩, hr⟩ := ha
  refine foldl_reaches (I := fun u => pageReach u p = .ok ∧ (bit (rget u p 0x30) 31 = true → fld (rget u p 0x30) 3 0 = g))
    (Q := fun u => bit (rget u p 0x30) 31 = false) (fun u q hu => ?_) (fun u hu => ?_) (fun u q hq _ hu => ?_) hp ⟨hr, fun _ => hg⟩
  · refine ⟨(pageReach_refuseMember ..).trans hu.1, ?_⟩
    by_cases e : p = q
    · rw [← e, rget_refuseMember_word g t hu.1, bit_refusedWord_arm hu.2]
      exact fun h => absurd h Bool.false_ne_true
    · rw [rget_refuseMember_other _ _ _ (by omega) rfl (.inl e)]
      exact hu.2
  · rw [rget_refuseMember_word g t hu.1, bit_refusedWord_arm hu.2]
  · rwa [rget_refuseMember_other _ _ _ (by omega) rfl (.inl (Ne.symm hq))]

/-- What a member that takes an applied commit holds after it. -/
theorem applied_member (s : State) {l : List Nat} (t : Nat) {p : Nat} (hp : p ∈ l) :
    (∀ o ∈ shadowedOffs p, rget (applied s l t) p o = rget s p (0x800 + o)) ∧
      bit (rget (applied s l t) p 0x30) 31 = false ∧ bit (rget (applied s l t) p 0x30) 16 = false ∧
      rget64 (applied s l t) p 0x34 = t % 2 ^ 64 := by
  refine applied_reaches (c := fun o => rget s p (0x800 + o))
    (Q := fun u => (∀ o ∈ shadowedOffs p, rget u p o = rget s p (0x800 + o)) ∧ bit (rget u p 0x30) 31 = false ∧
      bit (rget u p 0x30) 16 = false ∧ rget64 u p 0x34 = t % 2 ^ 64)
        (fun u hu => ⟨fun o ho => ?_, ?_, ?_, rget64_takeCommit ..⟩) (fun u v h hu => ?_) hp fun _ _ => rfl
  · have hr := shadowedOffs_range ho
    rw [rget_takeCommit _ _ _ (by omega) hr.2.2 (by omega), if_pos ho, hu o ho]
  · simp [rget_takeCommit_word, bit]
  · simp [rget_takeCommit_word, bit]
  · obtain ⟨h1, h2, h3, h4⟩ := hu
    refine ⟨fun o ho => ?_, ?_, ?_, ?_⟩
    · have hr := shadowedOffs_range ho
      rw [h o (by omega), h1 o ho]
    · rw [h _ (by omega), h2]
    · rw [h _ (by omega), h3]
    · rw [rget64, h _ (by omega), h _ (by omega), ← rget64, h4]

/-- An applied profile of PWR0 goes to the NV record. -/
theorem applied_profile {s : State} {l : List Nat} (t : Nat) (hp : 0x40 ∈ l) :
    (applied s l t).nv.profile = BitVec.ofNat 2 (rfld s 0x40 0x844 1 0) := by
  have h44 : 0x44 ∈ shadowedOffs 0x40 := by decide
  refine foldl_reaches (I := fun u => rget u 0x40 0x844 = rget s 0x40 0x844)
    (Q := fun u : State => u.nv.profile = BitVec.ofNat 2 (rfld s 0x40 0x844 1 0)) (fun u q hu => ?_) (fun u hu => ?_)
    (fun u q hq _ hu => ?_) hp rfl
  · exact (rget_applyMember_shadow u t q h44).trans hu
  · rw [applyMember_profile, rfld, rget_takeCommit _ _ _ (by omega) rfl (by omega), if_pos h44, hu, rfld]
  · rwa [applyMember_nv_other _ _ hq]

theorem applied_nv {s : State} {l : List Nat} (t : Nat) (hp : 0x40 ∉ l) : (applied s l t).nv = s.nv :=
  List.foldlRecOn (motive := fun u : State => u.nv = s.nv) _ _ rfl fun u hu q hq => by
    rw [applyMember_nv_other _ _ (by rintro rfl; exact hp hq), hu]

theorem commitApplyOp_applied {s : State} {g T : Nat} (h : (groupAt s g).held = some (T, .applied)) (hT : T ≤ s.belv.tb) :
    commitApplyOp s g = nextOutcome (count (applied s ((groupAt s g).members.filter fun p => armedFor s g p) T) 0x13 0x140 1)
      g 1 := by
  unfold commitApplyOp
  simp only [h, if_neg (Nat.not_lt.mpr hT)]
  rfl

theorem commitApplyOp_refused {s : State} {g T : Nat} (h : (groupAt s g).held = some (T, .refused)) (hT : T ≤ s.belv.tb) :
    commitApplyOp s g =
      nextOutcome (ev (count (refused s g (groupAt s g).members T) 0x13 0x144 1) 0x10 10 g) g 2 := by
  unfold commitApplyOp
  simp only [h, if_neg (Nat.not_lt.mpr hT)]
  rfl

theorem commitApplyOp_empty {s : State} {g T : Nat} (h : (groupAt s g).held = some (T, .empty)) (hT : T ≤ s.belv.tb) :
    commitApplyOp s g = nextOutcome s g 3 := by
  unfold commitApplyOp
  simp only [h, if_neg (Nat.not_lt.mpr hT)]

theorem commitApplyOp_early {s : State} {g T : Nat} {v : Verdict} (h : (groupAt s g).held = some (T, v)) (hT : s.belv.tb < T) :
    commitApplyOp s g = s := by
  unfold commitApplyOp
  simp only [h, if_pos hT]

theorem nextOutcome_evq (s : State) (g : Nat) (last : BitVec 2) : (nextOutcome s g last).evq = s.evq := by
  have h := congrArg State.evq (nextOutcome_rest s g last)
  exact h

theorem nextOutcome_nv (s : State) (g : Nat) (last : BitVec 2) : (nextOutcome s g last).nv = s.nv := by
  have h := congrArg State.nv (nextOutcome_rest s g last)
  exact h

theorem nextOutcome_regs (s : State) (g : Nat) (last : BitVec 2) : (nextOutcome s g last).regs = s.regs := by
  have h := congrArg State.regs (nextOutcome_rest s g last)
  exact h

theorem rget_nextOutcome (s : State) (g : Nat) (last : BitVec 2) (p o : Nat) : rget (nextOutcome s g last) p o = rget s p o :=
  rget_of_regs (nextOutcome_regs s g last) p o

/-- What an applied commit leaves. -/
theorem commitApply_applied {s : State} {g T : Nat} (hs : Settled s) (hg : g < 16) (h : (groupAt s g).held = some (T, .applied))
    (hT : T ≤ s.belv.tb) :
    ∃ t, exec (.commitApply g) s = .next t ∧
      groupAt t g =
        { members := (groupAt s g).joining, joining := [],
          held := (groupAt s g).after.head?.map fun u => (u, judgeGroup t g), after := (groupAt s g).after.tail, last := 1 } ∧
      (∀ p ∈ (groupAt s g).members, armedFor s g p = true →
        (∀ o ∈ shadowedOffs p, rget t p o = rget s p (0x800 + o) ∧ rget t p (0x800 + o) = rget s p (0x800 + o)) ∧
        bit (rget t p 0x30) 31 = false ∧ bit (rget t p 0x30) 16 = false ∧ rget64 t p 0x34 = T % 2 ^ 64) ∧
      (∀ p ∈ (groupAt s g).members, armedFor s g p = false → ∀ o ∈ shadowedOffs p, rget t p o = rget s p o) ∧
      (0x40 ∈ (groupAt s g).members → armedFor s g 0x40 = true → t.nv.profile = BitVec.ofNat 2 (rfld s 0x40 0x844 1 0)) ∧
      (0x40 ∉ (groupAt s g).members ∨ armedFor s g 0x40 = false → t.nv = s.nv) ∧
      (rget t 0x13 0x140).toNat = min ((rget s 0x13 0x140).toNat + 1) 0xFFFFFFFF := by
  have e := commitApplyOp_applied h hT
  have hmem {p : Nat} : p ∈ (groupAt s g).members.filter (fun p => armedFor s g p) ↔ p ∈ (groupAt s g).members ∧
    armedFor s g p = true :=
    List.mem_filter
  generalize (groupAt s g).members.filter (fun p => armedFor s g p) = l at e hmem
  have hrest := applied_rest s l T
  have hq : (commitApplyOp s g).evq = [] := by
    rw [e, nextOutcome_evq]
    exact (congrArg State.evq hrest).trans hs
  have hgrp : groupAt (count (applied s l T) 0x13 0x140 1) g = groupAt s g := by
    have := congrArg (fun u : State => groupAt u g) hrest
    exact this
  have hr {p o : Nat} (ho : o < 4096) (h4 : o % 4 = 0) (hne : p ≠ 0x13 ∨ o ≠ 0x140) :
      rget (commitApplyOp s g) p o = rget (applied s l T) p o := by
    rw [e, rget_nextOutcome, rget_count_other _ _ (dwAddr_ne (by omega) ho rfl h4 (by omega))]
  have hsh {p o : Nat} (ho : o ∈ shadowedOffs p) : o < 0x800 ∧ o % 4 = 0 ∧ p ≠ 0x13 :=
    ⟨(shadowedOffs_range ho).2.1, (shadowedOffs_range ho).2.2, by rintro rfl; cases ho⟩
  refine ⟨_, done_quiet hq, ?_, fun p hp ha => ⟨fun o ho => ?_, ?_⟩, fun p hp ha o ho => ?_, fun hp ha => ?_, fun hp => ?_, ?_⟩
  · have := groupAt_nextOutcome (count (applied s l T) 0x13 0x140 1) hg 1
    rwa [hgrp, ← e] at this
  · obtain ⟨h8, h4, h13⟩ := hsh ho
    have hn : 0x800 + o ∉ shadowedOffs p := fun h => by have := shadowedOffs_range h; omega
    rw [hr (by omega) (by omega) (.inl h13), hr (by omega) (by omega) (.inl h13),
      rget_applied_plain _ _ _ (by omega) (by omega) (by omega) hn]
    exact ⟨(applied_member s T (hmem.mpr ⟨hp, ha⟩)).1 o ho, rfl⟩
  · rw [rget64, hr (by omega) rfl (by omega), hr (by omega) rfl (by omega), hr (by omega) rfl (by omega), ← rget64]
    exact (applied_member s T (hmem.mpr ⟨hp, ha⟩)).2
  · obtain ⟨h8, h4, h13⟩ := hsh ho
    rw [hr (by omega) h4 (.inl h13), rget_applied_other _ _ (fun h => by simp [hmem, ha] at h) (by omega)]
  · rw [e, nextOutcome_nv]
    exact applied_profile T (hmem.mpr ⟨hp, ha⟩)
  · rw [e, nextOutcome_nv]
    exact applied_nv T fun h => hp.elim (· (hmem.mp h).1) (by simp [(hmem.mp h).2])
  · rw [e, rget_nextOutcome, rget_count_self, rget_applied_plain _ _ _ (by omega) rfl (by omega) List.not_mem_nil]

/-- What a refused commit leaves. -/
theorem commitApply_refused {s : State} {g T : Nat} (hg : g < 16) (h : (groupAt s g).held = some (T, .refused))
    (hT : T ≤ s.belv.tb) :
    ∃ t, exec (.commitApply g) s = .next t ∧
      groupAt t g =
        { members := (groupAt s g).joining, joining := [],
          held := (groupAt s g).after.head?.map fun u => (u, judgeGroup t g), after := (groupAt s g).after.tail, last := 2 } ∧
      t.nv = s.nv ∧
      (∀ p ∈ (groupAt s g).members, ∀ o ∈ shadowedOffs p,
        rget t p o = rget s p o ∧ rget t p (0x800 + o) = rget s p (0x800 + o)) ∧
      (∀ p ∈ (groupAt s g).members, pageReach s p = .ok → bit (rget t p 0x30) 16 = true ∧ rget64 t p 0x34 = T % 2 ^ 64 ∧
        bit (rget t p 0x18) 28 = true ∧ (armedFor s g p = true → bit (rget t p 0x30) 31 = false)) ∧
      bit (rget t 0x10 0x18) 10 = true ∧
      (rget t 0x13 0x144).toNat = min ((rget s 0x13 0x144).toNat + 1) 0xFFFFFFFF := by
  have e := commitApplyOp_refused h hT
  generalize hv : ev (count (refused s g (groupAt s g).members T) 0x13 0x144 1) 0x10 10 g = v at e
  have hrest := refused_rest s g (groupAt s g).members T
  have hgrp : groupAt v g = groupAt s g := by
    have := congrArg (fun u : State => groupAt u g) hrest
    rw [← hv]
    exact this
  have hreach (p : Nat) : pageReach (nextOutcome v g 2) p = pageReach s p := by
    have hpart := congrArg State.part hrest
    have hdies := congrArg State.dies hrest
    have hpart' := congrArg State.part (nextOutcome_rest v g 2)
    have hdies' := congrArg State.dies (nextOutcome_rest v g 2)
    rw [← hv] at hpart' hdies' ⊢
    exact pageReach_congr (hpart'.trans hpart) (hdies'.trans hdies) p
  have hr {p o : Nat} (ho : o < 4096) (h4 : o % 4 = 0) (hne : p ≠ 0x13 ∨ o ≠ 0x144)
    (hh : o = 0x30 ∨ o = 0x34 ∨ o = 0x38 ∨ 0x40 ≤ o) :
      rget (settle (nextOutcome v g 2)) p o = rget (refused s g (groupAt s g).members T) p o := by
    rw [rget_settle _ ho (by omega) (by omega) (by omega) (by omega) (by omega), rget_nextOutcome, ← hv, rget_ev,
      rget_count_other _ _ (dwAddr_ne (by omega) ho rfl h4 (by omega))]
  have hsh {p o : Nat} (ho : o ∈ shadowedOffs p) : 0x40 ≤ o ∧ o < 0x800 ∧ o % 4 = 0 ∧ p ≠ 0x13 :=
    ⟨(shadowedOffs_range ho).1, (shadowedOffs_range ho).2.1, (shadowedOffs_range ho).2.2, by rintro rfl; cases ho⟩
  refine ⟨settle (nextOutcome v g 2), ?_, ?_, ?_, fun p hp o ho => ?_, fun p hp hok => ?_, ?_, ?_⟩
  · change done (commitApplyOp s g) = _
    rw [e, done]
  · have hj : judgeGroup (settle (nextOutcome v g 2)) g = judgeGroup (nextOutcome v g 2) g :=
      judgeGroup_congr (by rw [groupAt, settle_groups, groupAt]) hg
        (fun p o ho h6 h7 h9 h10 h11 => rget_settle _ ho h6 h7 h9 h10 h11)
        fun p => pageReach_congr (settle_part _) (settle_dies _) p
    have hn := groupAt_nextOutcome v hg 2
    rw [hgrp] at hn
    rw [hj, groupAt, settle_groups]
    exact hn
  · rw [settle_nv, nextOutcome_nv, ← hv]
    have hnv := congrArg State.nv hrest
    exact hnv
  · obtain ⟨h40, h8, h4, h13⟩ := hsh ho
    rw [hr (by omega) (by omega) (.inl h13) (by omega), hr (by omega) (by omega) (.inl h13) (by omega),
      rget_refused _ _ _ _ (by omega) (by omega) (by omega), rget_refused _ _ _ _ (by omega) (by omega) (by omega)]
    exact ⟨rfl, rfl⟩
  · obtain ⟨h16, h34, hev⟩ := refused_member (s := s) (g := g) T hp hok
    refine ⟨?_, ?_, bit_settle (c := 0x7000 + g) ?_ ((hreach p).trans hok) (by omega), fun ha => ?_⟩
    · rw [hr (by omega) rfl (by omega) (by omega), h16]
    · rw [rget64, hr (by omega) rfl (by omega) (by omega), hr (by omega) rfl (by omega) (by omega), ← rget64, h34]
    · rw [nextOutcome_evq, ← hv]
      exact List.mem_append_left _ hev
    · rw [hr (by omega) rfl (by omega) (by omega), refused_disarmed T hp ha]
  · refine bit_settle (c := g) ?_ ((hreach 0x10).trans rfl) (by omega)
    rw [nextOutcome_evq, ← hv]
    exact List.mem_append_right _ List.mem_cons_self
  · rw [rget_settle _ (by omega) (by omega) (by omega) (by omega) (by omega) (by omega), rget_nextOutcome, ← hv, rget_ev,
      rget_count_self, rget_refused _ _ _ _ (by omega) rfl (by omega)]

/-- Settles O35. -/
theorem commitAppliesOrRefuses : Obligations.CommitAppliesOrRefuses := by
  intro s g T x hs hx hg next
  subst hx
  refine ⟨fun h hT => ?_, fun h hT => ?_, fun h hT => ?_, fun v h hT => ?_⟩
  · exact commitApply_applied hs hg h hT
  · exact commitApply_refused hg h hT
  · have hq : (commitApplyOp s g).evq = [] := by rw [commitApplyOp_empty h hT, nextOutcome_evq, hs]
    refine ⟨_, done_quiet hq, ?_, ?_, ?_⟩
    all_goals rw [commitApplyOp_empty h hT]
    · exact groupAt_nextOutcome s hg 3
    · exact nextOutcome_regs ..
    · exact nextOutcome_nv ..
  · change done (commitApplyOp s g) = _
    rw [commitApplyOp_early h hT, done_quiet hs]

end Sys2Proof.Laws
end

section
/-! The resets and the start-up (R409 to R416): what the work of the module leaves alone, where a start and the resets from the host
leave the state, and the steps of the start-up one by one. -/

namespace Sys2Proof.Laws

open Sys2Proof Sys2Proof.Machine

/-! ### What the work of the module leaves alone -/

/-- From `s` to `t` neither the timebase, the link, the fuses, the start-up, the NV record nor a ring changes, and no request comes
where there is none. -/
structure Quiet (s t : State) : Prop where
  belv : t.belv = s.belv
  bus : t.bus = s.bus
  otp : t.otp = s.otp
  boot : t.boot = s.boot
  nv : t.nv = s.nv
  rings : t.rings = s.rings
  idle : s.reqs = [] → t.reqs = []

@[simp, refl] theorem Quiet.refl (s : State) : Quiet s s := ⟨rfl, rfl, rfl, rfl, rfl, rfl, id⟩

theorem Quiet.trans {s t u : State} (h : Quiet s t) (k : Quiet t u) : Quiet s u :=
  ⟨k.belv.trans h.belv, k.bus.trans h.bus, k.otp.trans h.otp, k.boot.trans h.boot, k.nv.trans h.nv, k.rings.trans h.rings,
    k.idle ∘ h.idle⟩

/-- An update of any other fields. -/
theorem Quiet.update {s t u : State} (h : Quiet s t) (hb : u.belv = t.belv) (hl : u.bus = t.bus) (ho : u.otp = t.otp)
    (hs : u.boot = t.boot) (hn : u.nv = t.nv) (hr : u.rings = t.rings) (hq : t.reqs = [] → u.reqs = []) : Quiet s u :=
  h.trans ⟨hb, hl, ho, hs, hn, hr, hq⟩

/-- An update of any other fields: a pattern for the `{ s with … }` of the model. -/
@[simp] theorem quiet_update {s₀ s : State} (h : Quiet s₀ s)
    (part regs hiShadow loStage evq entries groups wins nextWin streams lp11
    ingest rr nextReq launches taskRuns sums hostMem slots prov epoch suspended applied staging engines plates weights banks slc
    retain dies cores coreMem progs qslots ctrs runs nextRun feeds slow links xfers nextXfer flows landing flitAt pkgMem poison
    scrubAt units tpls isu pwr sec tap free pending) :
    Quiet s₀ ⟨part, regs, hiShadow, loStage, evq, s.bus, s.belv, entries, groups, wins, nextWin, streams, lp11, ingest, s.rings,
      rr, s.reqs, nextReq, launches, taskRuns, sums, hostMem, slots, prov, epoch, suspended, applied, staging, engines, plates,
      weights, banks, slc, retain, dies, cores, coreMem, progs, qslots, ctrs, runs, nextRun, feeds, slow, links, xfers,
      nextXfer, flows, landing, flitAt, pkgMem, poison, scrubAt, units, tpls, isu, pwr, s.otp, s.nv, sec, s.boot, tap, free,
      pending⟩ :=
  h.trans ⟨rfl, rfl, rfl, rfl, rfl, rfl, id⟩

section

variable {s₀ : State}

@[simp] theorem quiet_ite {c : Prop} [Decidable c] {s t : State} :
    Quiet s₀ (if c then s else t) ↔ (c → Quiet s₀ s) ∧ (¬ c → Quiet s₀ t) := by
  split <;> simp [*]

theorem quiet_of_ite {c : Prop} [Decidable c] {s t : State} (hs : Quiet s₀ s) (ht : Quiet s₀ t) :
    Quiet s₀ (if c then s else t) := by
  split <;> assumption

@[simp] theorem quiet_foldl {α : Type} (l : List α) (f : State → α → State) (h : ∀ s x, Quiet s (f s x)) {s : State}
    (hs : Quiet s₀ s) : Quiet s₀ (l.foldl f s) := by
  induction l generalizing s with
  | nil => exact hs
  | cons x l ih => exact ih (hs.trans (h s x))

/-! ### One rule for each function -/

section

variable {s : State} (h : Quiet s₀ s)

include h

@[simp] theorem quiet_rset (p off : Nat) (v : W32) : Quiet s₀ (rset s p off v) := by simp [rset, h]
@[simp] theorem quiet_rset64 (p off v : Nat) : Quiet s₀ (rset64 s p off v) := by simp [rset64, h]
@[simp] theorem quiet_count (p off n : Nat) : Quiet s₀ (count s p off n) := by simp [count, h]
@[simp] theorem quiet_count64 (p off n : Nat) : Quiet s₀ (count64 s p off n) := by simp [count64, h]
@[simp] theorem quiet_ev (p b code : Nat) : Quiet s₀ (ev s p b code) := by simp [ev, h]
@[simp] theorem quiet_putDie (d : Nat) (v : Die) : Quiet s₀ (putDie s d v) := by simp [putDie, h]
@[simp] theorem quiet_putEng (e : Nat) (v : Engine) : Quiet s₀ (putEng s e v) := by simp [putEng, h]
@[simp] theorem quiet_mapEngines (p : Nat → Bool) (f : Engine → Engine) : Quiet s₀ (mapEngines s p f) := by
  simp [mapEngines, h]
@[simp] theorem quiet_imageWritten (space die : Nat) : Quiet s₀ (imageWritten s space die) := by simp [imageWritten, h]
@[simp] theorem quiet_putPlate (p : Nat) (v : Plate) : Quiet s₀ (putPlate s p v) := by simp [putPlate, h]
@[simp] theorem quiet_putQSlot (k : Nat) (v : Option QSlot) : Quiet s₀ (putQSlot s k v) := by simp [putQSlot, h]
@[simp] theorem quiet_putCtr (k : Nat) (v : Ctr) : Quiet s₀ (putCtr s k v) := by simp [putCtr, h]
@[simp] theorem quiet_mapReqs (f : Req → Req) : Quiet s₀ (mapReqs s f) := by
    exact h.update rfl rfl rfl rfl rfl rfl fun h0 => by simp [mapReqs, h0, tmap]
@[simp] theorem quiet_putSlot (k : Nat) (v : Slot) : Quiet s₀ (putSlot s k v) := by simp [putSlot, h]
@[simp] theorem quiet_putLink (l : Nat) (v : Link) : Quiet s₀ (putLink s l v) := by simp [putLink, h]

@[simp] theorem quiet_modReq (id : Nat) (f : Req → Req) : Quiet s₀ (modReq s id f) := by
  unfold modReq
  split
  · exact h
  · next q hq =>
    exact h.update rfl rfl rfl rfl rfl rfl fun h0 => by simp [reqAt, h0, tget] at hq

@[simp] theorem quiet_finishReq (id : Nat) : Quiet s₀ (finishReq s id) := by simp [finishReq, h]
@[simp] theorem quiet_setStatus (id code : Nat) : Quiet s₀ (setStatus s id code) := by simp [setStatus, h]
@[simp] theorem quiet_setLink (d port : Nat) (f : Link → Link) : Quiet s₀ (setLink s d port f) := by simp [setLink, h]

@[simp] theorem quiet_trainLinks (there : Nat → Bool) (d : Nat) : Quiet s₀ (trainLinks s there d) := by
  refine quiet_of_ite (quiet_setLink ?_ ..) ?_ <;>
    exact quiet_foldl _ _ (fun t p => quiet_of_ite (quiet_setLink (.refl t) ..) (.refl t)) h

@[simp] theorem quiet_freeTilesOf (ids : List Nat) : Quiet s₀ (freeTilesOf s ids) := by simp [freeTilesOf, h]

@[simp] theorem quiet_exhaustCtrs (id : Nat) : Quiet s₀ (exhaustCtrs s id) := by
  unfold exhaustCtrs
  split
  · exact h
  · refine quiet_foldl _ _ (fun t a => ?_) h
    split <;> simp

@[simp] theorem quiet_dropWork (id : Nat) : Quiet s₀ (dropWork s id) := by
  have hf := quiet_mapEngines (quiet_exhaustCtrs (quiet_freeTilesOf h ((reqRuns s id).map fun e => e.1)) id) (fun _ => true)
    fun e => e.forget ((reqRuns s id).map fun e => e.1)
  exact quiet_update hf ..

@[simp] theorem quiet_modEng (e : Nat) (f : Engine → Engine) : Quiet s₀ (modEng s e f) := by simp [modEng, h]
@[simp] theorem quiet_judgeStale (k : Nat) : Quiet s₀ (judgeStale s k) := by simp [judgeStale, h]

@[simp] theorem quiet_chargeCal (k : Nat) : Quiet s₀ (chargeCal s k) := by
  unfold chargeCal
  dsimp only
  (repeat' split) <;> simp [h]

@[simp] theorem quiet_beginCal (k : Nat) : Quiet s₀ (beginCal s k) := by
  unfold beginCal
  split <;> simp [h]

@[simp] theorem quiet_dueBringUp (k : Nat) (never : Bool) : Quiet s₀ (dueBringUp s k never) := by simp [dueBringUp, h]
@[simp] theorem quiet_loadCoefs (d : Nat) (t : Tab Saved) : Quiet s₀ (loadCoefs s d t) := by simp [loadCoefs, h]
@[simp] theorem quiet_implicitWindow (d : Nat) (t : Tab Saved) : Quiet s₀ (implicitWindow s d t) := by
    exact quiet_foldl _ _ (fun t k => by split <;> simp) (quiet_loadCoefs h d t)
@[simp] theorem quiet_modShard (slot shard : Nat) (f : ShardSt → ShardSt) : Quiet s₀ (modShard s slot shard f) := by
  simp [modShard, h]
@[simp] theorem quiet_setTodo (d : Nat) (l again : List Nat) : Quiet s₀ (setTodo s d l again) := by
    exact quiet_putDie (quiet_foldl _ _ (fun t k => quiet_of_ite (.refl t) (quiet_modEng (.refl t) ..)) h) ..
@[simp] theorem quiet_modSweep (d : Nat) (f : Sweep → Sweep) : Quiet s₀ (modSweep s d f) := by simp [modSweep, h]

@[simp] theorem quiet_sweepServe (d : Nat) : Quiet s₀ (sweepServe s d) := by
  unfold sweepServe
  refine quiet_foldl _ _ (fun t a => ?_) (quiet_mapReqs h _)
  split <;> simp

@[simp] theorem quiet_endPass (d : Nat) : Quiet s₀ (endPass s d) := by simp [endPass, h]

@[simp] theorem quiet_leaveSweep (d slot shard : Nat) (ks : List Nat) : Quiet s₀ (leaveSweep s d slot shard ks) := by
  have hw := fun f => quiet_modSweep (quiet_setTodo h d ((dieAt s d).sweep.todo.filter fun p => !ks.contains p) ks) d f
  exact quiet_of_ite (quiet_endPass (hw _) d) (hw _)

@[simp] theorem quiet_cutTouches (l : List (Nat × Engine)) : Quiet s₀ (cutTouches s l) := by
  unfold cutTouches
  refine quiet_foldl _ _ (fun t a => ?_) h
  split <;> simp

@[simp] theorem quiet_restorePlates (d : Nat) : Quiet s₀ (restorePlates s d) := by
  refine quiet_foldl _ _ (fun t x => ?_) h
  have hp := quiet_modShard (quiet_putPlate (.refl t) x.1 { Plate.zero with st := .incomplete, tb := x.2.tb }) x.2.owner x.2.shard
    fun h => { h with kept := h.kept &&& ~~~(1#16 <<< d) }
  exact quiet_of_ite hp (quiet_ev hp ..)

@[simp] theorem quiet_freeReplica (d slot shard : Nat) : Quiet s₀ (freeReplica s d slot shard) := by
    exact quiet_leaveSweep (quiet_putDie (quiet_foldl _ _ (fun t x => quiet_putPlate (.refl t) ..) h) ..) ..
@[simp] theorem quiet_loseArea (k : Nat) : Quiet s₀ (loseArea s k) := by simp [loseArea, h]
@[simp] theorem quiet_modDie (d : Nat) (f : Die → Die) : Quiet s₀ (modDie s d f) := by simp [modDie, h]
@[simp] theorem quiet_resetPages (p : Nat → Bool) (keep : Nat → W32) : Quiet s₀ (resetPages s p keep) := by
  simp [resetPages, h]
@[simp] theorem quiet_verifyFail (kind slot reason : Nat) : Quiet s₀ (verifyFail s kind slot reason) := by
    exact quiet_ev (quiet_count (quiet_rset h ..) ..) ..
@[simp] theorem quiet_verify (x : Signed) : Quiet s₀ (verify s x).2 := by simp [verify, h]

@[simp] theorem quiet_tryImage (x : Image) (ucode : Bool) : Quiet s₀ (tryImage s x ucode).2 := by
  unfold tryImage
  (repeat' split) <;> simp [h]

@[simp] theorem quiet_modSlot (k : Nat) (f : Slot → Slot) : Quiet s₀ (modSlot s k f) := by simp [modSlot, h]
@[simp] theorem quiet_endReq (id code : Nat) : Quiet s₀ (endReq s id code) := by simp [endReq, h]
@[simp] theorem quiet_storeCode (p : ProgEnt) (b : Nat) : Quiet s₀ (storeCode s p b) := by simp [storeCode, h]

@[simp] theorem quiet_endActivate (k code : Nat) : Quiet s₀ (endActivate s k code) := by
  unfold endActivate
  split <;> simp [h]

@[simp] theorem quiet_newQSlots (m : Manifest) (k : Nat) : Quiet s₀ (newQSlots s m k) := by simp [newQSlots, h]
@[simp] theorem quiet_setDests : Quiet s₀ (setDests s) := by simp [setDests, h]
@[simp] theorem quiet_dropStaging (k : Nat) : Quiet s₀ (dropStaging s k) := by simp [dropStaging, h]
@[simp] theorem quiet_dropJobs (k : Nat) : Quiet s₀ (dropJobs s k) := by simp [dropJobs, h]
@[simp] theorem quiet_freeReplicas (k : Nat) (p : Nat → Bool) : Quiet s₀ (freeReplicas s k p) := by simp [freeReplicas, h]
@[simp] theorem quiet_emptySlot (k : Nat) : Quiet s₀ (emptySlot s k) := by
    exact quiet_putSlot (quiet_update (quiet_freeReplicas (quiet_dropJobs (quiet_dropStaging h k) k) k fun _ => true) ..) ..
@[simp] theorem quiet_abortSession (k : Nat) : Quiet s₀ (abortSession s k) := by simp [abortSession, h]

@[simp] theorem quiet_abortSessions : Quiet s₀ (abortSessions s) := by
  refine quiet_foldl _ _ (fun t k => ?_) h
  exact quiet_of_ite (quiet_ev (quiet_abortSession (.refl t) k) ..) (.refl t)

@[simp] theorem quiet_recordDrift (k : Nat) : Quiet s₀ (recordDrift s k) := by simp [recordDrift, h]
@[simp] theorem quiet_recordLoad (k : Nat) : Quiet s₀ (recordLoad s k) := by
    exact quiet_recordDrift (quiet_newQSlots (quiet_foldl _ _ (fun t e => quiet_storeCode (.refl t) ..) h) ..) k

@[simp] theorem quiet_recordSlots : Quiet s₀ (recordSlots s) := by
  unfold recordSlots
  refine quiet_setDests (quiet_foldl _ _ (fun t k => quiet_recordLoad (.refl t) k) (quiet_update
    (quiet_foldl _ _ (fun t k => quiet_putSlot (quiet_foldl _ _ (fun u e => ?_) (.refl t)) ..)
      (quiet_foldl _ _ (fun t k => quiet_freeReplicas (.refl t) ..) h)) ..))
  exact quiet_of_ite (quiet_putPlate (.refl u) ..) (.refl u)

@[simp] theorem quiet_modPwr (f : Pwr → Pwr) : Quiet s₀ (modPwr s f) := by simp [modPwr, h]
@[simp] theorem quiet_setPState (t : PState) : Quiet s₀ (setPState s t) := by simp [setPState, h]
@[simp] theorem quiet_keepStored (old : Tab Slot) (keep : Bool) : Quiet s₀ (keepStored s old keep) := by simp [keepStored, h]
@[simp] theorem quiet_setProfile (v : Nat) : Quiet s₀ (setProfile s v) := by simp [setProfile, h]

@[simp] theorem quiet_endExit : Quiet s₀ (endExit s) := by
  unfold endExit
  split <;> simp [h]

@[simp] theorem quiet_storedCoefs (d : Nat) : Quiet s₀ (storedCoefs s d) := by
  have hl := quiet_foldl (liveEngines s d ++ (s.slc.filter fun x => engDie x.1 == d).map fun x => x.1).dedup
    (fun s k => modEng s k fun e => { e.load (tget Saved.zero s.slc k) with calFrom := s.belv.tb })
    (fun t k => quiet_modEng (.refl t) ..) h
  exact quiet_foldl _ _ (fun t k => quiet_of_ite (quiet_dueBringUp (.refl t) ..) (.refl t)) (quiet_ev (quiet_mapEngines hl ..) ..)

end

end

theorem Quiet.modBoot {s t : State} (h : Quiet s t) (f : Boot → Boot) : Quiet (modBoot s f) (modBoot t f) :=
  ⟨h.belv, h.bus, h.otp, congrArg f h.boot, h.nv, h.rings, h.idle⟩

theorem Quiet.modNv {s t : State} (h : Quiet s t) (f : Nv → Nv) : Quiet (modNv s f) (modNv t f) :=
  ⟨h.belv, h.bus, h.otp, h.boot, congrArg f h.nv, h.rings, h.idle⟩

/-! ### A start -/

theorem coldState_from (s : State) (keepTb keepMem : Bool) : ∃ t, Quiet t (coldState s keepTb keepMem) ∧
    held (coldState s keepTb keepMem) = held t ∧ t.rings = [] ∧ t.reqs = [] ∧ t.otp = s.otp ∧ t.nv = s.nv ∧
    t.weights = s.weights ∧ t.belv.tb = (if keepTb then s.belv.tb else 0) ∧ t.pkgMem = (if keepMem then s.pkgMem else []) := by
  have hq : Quiet s (cutTouches s s.engines) := quiet_cutTouches (.refl s) _
  have hh : held (cutTouches s s.engines) = held s := held_cutTouches s _
  have hp : (cutTouches s s.engines).pkgMem = s.pkgMem := congrArg Held.pkgMem hh
  refine ⟨_, quiet_keepStored (quiet_recordSlots (quiet_setProfile (quiet_of_ite (quiet_rset (.refl _) ..) (.refl _)) ..)) .., ?_⟩
  refine ⟨?_, rfl, rfl, hq.otp, hq.nv, congrArg Held.weights hh, ?_, ?_⟩
  · unfold coldState
    dsimp only
    rw [held_keepStored, held_recordSlots, held_setProfile]
    exact held_of_ite (held_rset ..) rfl
  · rw [← congrArg Belv.tb hq.belv]
    cases keepTb <;> rfl
  · cases keepTb <;> rw [← hp]

theorem otherPath_quiet (s : State) : ∃ n, Quiet { s with nv := n } (otherPath s).1 := by
  unfold otherPath
  dsimp only
  split
  · exact ⟨s.nv, .refl s⟩
  split
  · exact ⟨_, quiet_ev (.refl (modNv s _)) ..⟩
  split
  · exact ⟨_, quiet_ev (.refl (modNv s _)) ..⟩
  split
  · exact ⟨_, quiet_ev (.refl s) ..⟩
  split
  · exact ⟨_, quiet_ev (.refl (modNv s _)) ..⟩
  · exact ⟨_, .refl s⟩

/-- Where the start before failed, another path is taken (R412). -/
theorem startPath_quiet (s : State) (f : Nv → Nv) :
    ∃ n, Quiet { s with nv := n } (if startFailed s then otherPath (if startFailed s then modNv s f else s)
      else (if startFailed s then modNv s f else s, false)).1 := by
  split
  · obtain ⟨n, h⟩ := otherPath_quiet (modNv s f)
    exact ⟨n, h⟩
  · exact ⟨_, .refl s⟩

/-- The start itself, with the NV record and the start-up's own state as it leaves them. -/
theorem beginStart_from (s : State) (cause first : Nat) : ∃ n b, Quiet { s with nv := n, boot := b } (beginStart s cause first) ∧
    b.active = true ∧ b.begun = first ∧ b.cause = cause ∧ b.safe = false ∧ b.rstLast = s.boot.rstLast ∧
    b.rstCount = s.boot.rstCount ∧ n.begun = first := by
  obtain ⟨n, hn⟩ := startPath_quiet s fun n => { n with failRun := min (n.failRun + 1) 3 }
  have hf : ∃ f g, Quiet (modNv (modBoot { s with nv := n } f) g) (beginStart s cause first) ∧
      (∀ b, (f b).active = true ∧ (f b).begun = first ∧ (f b).cause = cause ∧ (f b).safe = false ∧ (f b).rstLast = b.rstLast ∧
        (f b).rstCount = b.rstCount) ∧ ∀ n, (g n).begun = first := by
    unfold beginStart
    dsimp only
    generalize (if startFailed s = true then _ else _ : State × Bool) = r at hn ⊢
    refine ⟨_, _, Quiet.modNv (.modBoot (quiet_foldl _ _ (fun t d => quiet_ev (quiet_modDie (.refl t) ..) ..)
      (quiet_foldl _ _ (fun t d => quiet_modDie (.refl t) ..) hn)) _) _, ?_, ?_⟩
    · exact fun b => ⟨rfl, rfl, rfl, rfl, rfl, rfl⟩
    · exact fun n => rfl
  obtain ⟨f, g, h, hb, hg⟩ := hf
  obtain ⟨ha, hf, hc, hs, hl, hr⟩ := hb s.boot
  exact ⟨_, _, h, ha, hf, hc, hs, hl, hr, hg n⟩

/-- Step 0x01 of a start with a cause has begun: no ring and no request is left, and the fuses and weights are as they were. -/
structure Started (s t : State) (cause : Nat) : Prop where
  active : t.boot.active = true
  begun : t.boot.begun = 1
  noted : t.nv.begun = 1
  cause : t.boot.cause = cause
  safe : t.boot.safe = false
  rings : t.rings = []
  reqs : t.reqs = []
  otp : t.otp = s.otp
  weights : t.weights = s.weights

theorem Started.settle {s t : State} {cause : Nat} (h : Started s t cause) : Started s (settle t) cause := by
  obtain ⟨ha, hb, hn, hc, hs, hr, hq, ho, hw⟩ := h
  constructor <;> simpa

/-- A start at step 0x01 from a state that a reset has made cold (`coldState_from`), whatever else has been noted in it. -/
theorem beginStart_started {s u : State} {cause : Nat} (hr : u.rings = []) (hq : u.reqs = []) (ho : u.otp = s.otp)
    (hw : u.weights = s.weights) : Started s (beginStart u cause 1) cause := by
  obtain ⟨n, b, h, ha, hf, hc, hs, -, -, hn⟩ := beginStart_from u cause 1
  exact ⟨h.boot ▸ ha, h.boot ▸ hf, h.nv ▸ hn, h.boot ▸ hc, h.boot ▸ hs, h.rings.trans hr, h.idle hq, h.otp.trans ho,
    (congrArg Held.weights (held_beginStart u cause 1)).trans hw⟩

theorem beginStart_belv (s : State) (cause first : Nat) : (beginStart s cause first).belv = s.belv := by
  obtain ⟨n, b, h, -⟩ := beginStart_from s cause first
  exact h.belv

theorem beginStart_rstLast (s : State) (cause first : Nat) : (beginStart s cause first).boot.rstLast = s.boot.rstLast := by
  obtain ⟨n, b, h, -, -, -, -, hl, -⟩ := beginStart_from s cause first
  rw [h.boot, hl]

theorem beginStart_rstCount (s : State) (cause first : Nat) : (beginStart s cause first).boot.rstCount = s.boot.rstCount := by
  obtain ⟨n, b, h, -, -, -, -, -, hc, -⟩ := beginStart_from s cause first
  rw [h.boot, hc]

theorem powerOn_started (s : State) (cause : Nat) : Started s (powerOn s cause) cause := by
  obtain ⟨t, h, hh, hr, hq, ho, -, hw, -⟩ := coldState_from s false false
  unfold powerOn
  generalize coldState s false false = u at h hh
  exact beginStart_started (h.rings.trans hr) (h.idle hq) (h.otp.trans ho) ((congrArg Held.weights hh).trans hw)

theorem powerOn_tb (s : State) (cause : Nat) : (powerOn s cause).belv.tb = 0 := by
  obtain ⟨t, h, -, -, -, -, -, -, htb, -⟩ := coldState_from s false false
  unfold powerOn
  generalize coldState s false false = u at h
  rw [beginStart_belv]
  exact (congrArg Belv.tb h.belv).trans htb

theorem powerOn_rst (s : State) (cause : Nat) : (powerOn s cause).boot.rstLast = 1 ∧ (powerOn s cause).boot.rstCount = 0 :=
  ⟨beginStart_rstLast .., beginStart_rstCount ..⟩

/-! ### SYS_RST# and the resets from the host -/

theorem sysRstOp_running {s : State} (h : s.pwr.held = false) :
    sysRstOp s = beginStart (noteReset (coldState s true (s.pwr.st != .vigil)) 2) 0 1 := by
  simp [sysRstOp, h]

theorem sysRst_started {s : State} (h : s.pwr.held = false) : Started s (sysRstOp s) 0 := by
  obtain ⟨t, k, hh, hr, hq, ho, -, hw, -⟩ := coldState_from s true (s.pwr.st != .vigil)
  rw [sysRstOp_running h]
  exact beginStart_started (k.rings.trans hr) (k.idle hq) (k.otp.trans ho) ((congrArg Held.weights hh).trans hw)

theorem sysRst_tb {s : State} (h : s.pwr.held = false) : (sysRstOp s).belv.tb = s.belv.tb := by
  obtain ⟨t, k, -, -, -, -, -, -, htb, -⟩ := coldState_from s true (s.pwr.st != .vigil)
  rw [sysRstOp_running h, beginStart_belv]
  exact (congrArg Belv.tb k.belv).trans htb

theorem sysRst_rstLast {s : State} (h : s.pwr.held = false) : (sysRstOp s).boot.rstLast = 2 := by
  rw [sysRstOp_running h, beginStart_rstLast]
  rfl

theorem sysRst_pkgMem {s : State} (h : s.pwr.held = false) (hv : s.pwr.st ≠ .vigil) : (sysRstOp s).pkgMem = s.pkgMem := by
  obtain ⟨t, -, hh, -, -, -, -, -, -, hp⟩ := coldState_from s true (s.pwr.st != .vigil)
  rw [sysRstOp_running h]
  have hb : (beginStart (noteReset (coldState s true (s.pwr.st != .vigil)) 2) 0 1).pkgMem = t.pkgMem :=
    congrArg Held.pkgMem ((held_beginStart _ 0 1).trans ((held_noteReset ..).trans hh))
  rw [hb, hp, if_pos (by simpa using hv)]

/-- What a reset from the host leaves of the host's side. -/
structure HostSide (s t : State) (last : Nat) : Prop where
  rings : t.rings = []
  reqs : t.reqs = []
  rstLast : t.boot.rstLast = BitVec.ofNat 4 last
  belv : t.belv = s.belv
  otp : t.otp = s.otp
  weights : t.weights = s.weights

theorem hostReset_quiet (s : State) : Quiet { s with rings := [], reqs := [] } (hostReset s) := by
  have h : Quiet s (imageWritten (resetPages ((keysOf s.reqs).foldl dropWork s) hostPage fun _ => 0) 5 0) :=
    quiet_imageWritten (quiet_resetPages (quiet_foldl _ _ (fun t k => quiet_dropWork (.refl t) k) (.refl s)) ..) ..
  exact quiet_abortSessions ⟨h.belv, h.bus, h.otp, h.boot, h.nv, rfl, fun _ => rfl⟩

theorem noteReset_hostReset (s : State) (last : Nat) : HostSide s (noteReset (hostReset s) last) last :=
  have h := hostReset_quiet s
  ⟨h.rings, h.idle rfl, rfl, h.belv, h.otp, congrArg Held.weights (held_hostReset s)⟩

theorem HostSide.settle {s t : State} {last : Nat} (h : HostSide s t last) : HostSide s (settle t) last := by
  obtain ⟨hr, hq, hl, hb, ho, hw⟩ := h
  constructor <;> simpa

theorem HostSide.beginRelink {s t : State} {last : Nat} (h : HostSide s t last) : HostSide s (beginRelink t) last := by
  obtain ⟨hr, hq, hl, hb, ho, hw⟩ := h
  unfold Machine.beginRelink
  dsimp only
  split <;> exact ⟨hr, hq, hl, hb, ho, hw⟩

theorem beginRelink_bus (s : State) : (beginRelink s).bus = s.bus := by
  unfold beginRelink
  dsimp only
  split <;> rfl

theorem flrReset_hostSide (s : State) : HostSide s (flrReset s) 5 := by
  obtain ⟨hr, hq, hl, hb, ho, hw⟩ := noteReset_hostReset s 5
  exact ⟨hr, hq, hl, hb, ho, hw⟩

theorem flrReset_linkUp (s : State) : (flrReset s).bus.linkUp = s.bus.linkUp :=
  have h : (hostReset s).bus.linkUp = s.bus.linkUp := congrArg Bus.linkUp (hostReset_quiet s).bus
  h

theorem linkReset_hostSide (s : State) (last : Nat) : HostSide s (linkReset s last) last := by
  obtain ⟨hr, hq, hl, hb, ho, hw⟩ := noteReset_hostReset s last
  unfold linkReset
  generalize noteReset (hostReset s) last = u at hr hq hl hb ho hw
  dsimp only
  split
  · exact ⟨hr, hq, hl, hb, ho, hw⟩
  · exact HostSide.beginRelink ⟨hr, hq, hl, hb, ho, hw⟩

theorem linkReset_bus (s : State) (last : Nat) :
    (linkReset s last).bus.linkUp = false ∧ (linkReset s last).bus.perst = s.bus.perst := by
  have hb : (noteReset (hostReset s) last).bus.perst = s.bus.perst := congrArg Bus.perst (hostReset_quiet s).bus
  unfold linkReset
  generalize noteReset (hostReset s) last = u at hb
  dsimp only
  split
  · exact ⟨rfl, hb⟩
  · rw [beginRelink_bus]
    exact ⟨rfl, hb⟩

/-- In RUN, READY and DOZE a reset from the host acts at once. -/
theorem hostResetOp_awake {s : State} (hh : s.pwr.held = false) (h : s.pwr.st = .run ∨ s.pwr.st = .ready ∨ s.pwr.st = .doze)
    (last : Nat) :
    hostResetOp s last = busReset s last := by
  unfold hostResetOp
  rcases h with h | h | h <;> simp [hh, h]

theorem perstAssertOp_awake {s : State} (hh : s.pwr.held = false) (h : s.pwr.st = .run ∨ s.pwr.st = .ready ∨ s.pwr.st = .doze)
    (he : s.pwr.entry ≠ some .vigil) : perstAssertOp s = linkReset { s with bus := { s.bus with perst := true } } 3 := by
  unfold perstAssertOp
  dsimp only
  rw [if_neg he]
  exact hostResetOp_awake (s := { s with bus := { s.bus with perst := true } }) hh h 3

/-- PERST# released ends no exit but one from VIGIL. -/
theorem perstDeassertOp_awake {s : State} (h : s.pwr.st ≠ .vigil) :
    ∃ n b, perstDeassertOp s =
      { s with bus := { s.bus with perst := false, perstAt := s.belv.tb }, nv := n, boot := b } := by
  have hx : ∀ u : State, u.pwr = s.pwr → exitOp u .perstDeassert = u := by
    intro u hu
    refine if_neg fun ⟨_, ht, _⟩ => ?_
    unfold triggers at ht
    rw [hu] at ht
    cases hs : s.pwr.st <;> simp_all
  unfold perstDeassertOp beginRelink
  dsimp only
  split
  · exact ⟨_, _, hx _ rfl⟩
  · split
    · exact ⟨_, _, hx _ rfl⟩
    · exact ⟨_, _, hx _ rfl⟩

/-! ### The steps of the start-up (R410, R412) -/

/-- What the order of the steps depends on. -/
structure SameCourse (s t : State) : Prop where
  active : t.boot.active = s.boot.active
  calStored : t.boot.calStored = s.boot.calStored
  failRun : t.nv.failRun = s.nv.failRun
  noImage : t.nv.noImage = s.nv.noImage

theorem Quiet.sameCourse {s t : State} (h : Quiet s t) : SameCourse s t :=
  ⟨congrArg Boot.active h.boot, congrArg Boot.calStored h.boot, congrArg Nv.failRun h.nv, congrArg Nv.noImage h.nv⟩

theorem SameCourse.trans {s t u : State} (h : SameCourse s t) (k : SameCourse t u) : SameCourse s u :=
  ⟨k.active.trans h.active, k.calStored.trans h.calStored, k.failRun.trans h.failRun, k.noImage.trans h.noImage⟩

theorem SameCourse.safeStart {s t : State} (h : SameCourse s t) : safeStart t = safeStart s := by
  rw [Machine.safeStart, h.failRun, h.noImage, Machine.safeStart]

theorem SameCourse.stepAfter {s t : State} (h : SameCourse s t) (n : Nat) : stepAfter t n = stepAfter s n := by
  rw [Machine.stepAfter, h.safeStart, h.calStored, Machine.stepAfter]

/-- Step 0x03 takes the preferred image if it verifies. -/
theorem chooseImage_sameCourse {s : State} (h : (tryImage s (imageOf s s.nv.prefer) false).1 = true) :
    SameCourse s (chooseImage s) := by
  have hq : Quiet s (tryImage s (imageOf s s.nv.prefer) false).2 := quiet_tryImage (.refl s) ..
  unfold chooseImage
  dsimp only
  rw [if_pos h]
  obtain ⟨ha, hc, hf, hn⟩ := hq.sameCourse
  exact ⟨ha, hc, hf, hn⟩

theorem endStep_sameCourse {s : State} {n : Nat} (hn : n ≠ 0x0C)
    (h3 : n = 3 → (tryImage s (imageOf s s.nv.prefer) false).1 = true) : SameCourse s (endStep s n) := by
  unfold endStep
  split
  · exact chooseImage_sameCourse (h3 rfl)
  · have hl : SameCourse s { s with bus := { s.bus with linkUp := true } } := ⟨rfl, rfl, rfl, rfl⟩
    dsimp only
    split
    · exact hl.trans (quiet_endExit (.refl _)).sameCourse
    · exact hl
  · exact (quiet_foldl _ _ (fun t d => quiet_trainLinks (.refl t) ..) (.refl s)).sameCourse
  · exact (quiet_foldl _ _ (fun t d => quiet_modDie (.refl t) ..) (.refl s)).sameCourse
  · exact (quiet_foldl _ _ (fun t d => quiet_loadCoefs (.refl t) ..) (.refl s)).sameCourse
  · exact ⟨rfl, rfl, rfl, rfl⟩
  · have hm : SameCourse s (modBoot s fun b => { b with mapUp := true }) := ⟨rfl, rfl, rfl, rfl⟩
    have hq : Quiet (modBoot s fun b => { b with mapUp := true }) (abortSessions ((startDies s).foldl restorePlates
      (modBoot s fun b => { b with mapUp := true }))) :=
      quiet_abortSessions (quiet_foldl _ _ (fun t d => quiet_restorePlates (.refl t) d) (.refl _))
    dsimp only
    split
    · exact hm.trans (quiet_foldl _ _ (fun t d => quiet_storedCoefs (.refl t) d) hq).sameCourse
    · exact hm.trans (quiet_foldl _ _ (fun t d => quiet_implicitWindow (.refl t) ..) hq).sameCourse
  · exact absurd rfl hn
  · exact ⟨rfl, rfl, rfl, rfl⟩

/-- A step ends and the next one begins. -/
theorem bootNext_mid {s : State} {n : Nat} (hn : n ≠ 0x0C) (hs : safeStart s = false) :
    (bootNext s n).boot.ended = n ∧ (bootNext s n).nv.ended = n ∧ (bootNext s n).boot.begun = stepAfter s n ∧
      (bootNext s n).nv.begun = stepAfter s n ∧ (bootNext s n).boot.active = s.boot.active := by
  have hc : SameCourse s (modNv (modBoot s fun b => { b with ended := n }) fun v => { v with ended := n }) := ⟨rfl, rfl, rfl, rfl⟩
  obtain ⟨u, hu, hq⟩ : ∃ u, bootNext s n = (if n = 9 ∧ safeStart u = true then enterSafe u true else beginStep u (stepAfter u n)) ∧
      Quiet (modNv (modBoot s fun b => { b with ended := n }) fun v => { v with ended := n }) u := by
    unfold bootNext
    dsimp only
    rw [if_neg hn]
    exact ⟨_, rfl, quiet_of_ite (quiet_count (.refl _) ..) (.refl _)⟩
  have hk := hc.trans hq.sameCourse
  rw [hu, if_neg fun h => by simp [hk.safeStart, hs] at h]
  exact ⟨congrArg Boot.ended hq.boot, congrArg Nv.ended hq.nv, hk.stepAfter n, hk.stepAfter n, hk.active⟩

theorem bootNext_last (s : State) : (bootNext s 0x0C).boot.ended = 0x0C ∧ (bootNext s 0x0C).nv.ended = 0x0C ∧
    (bootNext s 0x0C).boot.ready = s.boot.ready ∧ (bootNext s 0x0C).boot.active = s.boot.active ∧
    (bootNext s 0x0C).nv.failRun = s.nv.failRun :=
  ⟨rfl, rfl, rfl, rfl, rfl⟩

/-- The end of the last step makes the module ready. -/
theorem endStep_last (s : State) : (endStep s 0x0C).boot.ready = true ∧ (endStep s 0x0C).boot.active = false ∧
    (endStep s 0x0C).nv.failRun = 0 :=
  ⟨rfl, rfl, rfl⟩

/-! ### What the work of the dies keeps of them -/

/-- From `s` to `t` a canonical table of dies stays one, and each die keeps its standing and whether it is up. -/
structure SameStanding (s t : State) : Prop where
  keeps : tabOk (fun _ => Die.zero) s.dies = true → tabOk (fun _ => Die.zero) t.dies = true ∧
    ∀ e, (dieAt t e).st = (dieAt s e).st ∧ (dieAt t e).up = (dieAt s e).up

@[simp, refl] theorem SameStanding.refl (s : State) : SameStanding s s := ⟨fun h => ⟨h, fun _ => ⟨rfl, rfl⟩⟩⟩

theorem SameStanding.trans {s t u : State} (h : SameStanding s t) (k : SameStanding t u) : SameStanding s u := by
  refine ⟨fun hs => ?_⟩
  obtain ⟨ht, hst⟩ := h.keeps hs
  obtain ⟨hu, htu⟩ := k.keeps ht
  exact ⟨hu, fun e => ⟨(htu e).1.trans (hst e).1, (htu e).2.trans (hst e).2⟩⟩

theorem SameStanding.of_dies {s t : State} (h : t.dies = s.dies) : SameStanding s t :=
  ⟨fun hs => ⟨h ▸ hs, fun e => by simp [dieAt, h]⟩⟩

/-- An update of any fields but the dies: a pattern for the `{ s with … }` of the model. -/
@[simp] theorem standing_update {s₀ s : State} (h : SameStanding s₀ s) (part regs hiShadow loStage evq bus belv entries groups wins
    nextWin streams lp11 ingest rings rr reqs nextReq launches taskRuns sums hostMem slots prov epoch suspended applied staging
    engines plates weights banks slc retain cores coreMem progs qslots ctrs runs nextRun feeds slow links xfers nextXfer flows
    landing flitAt pkgMem poison scrubAt units tpls isu pwr otp nv sec boot tap free pending) :
    SameStanding s₀ ⟨part, regs, hiShadow, loStage, evq, bus, belv, entries, groups, wins, nextWin, streams, lp11, ingest, rings,
      rr, reqs, nextReq, launches, taskRuns, sums, hostMem, slots, prov, epoch, suspended, applied, staging, engines, plates,
      weights, banks, slc, retain, s.dies, cores, coreMem, progs, qslots, ctrs, runs, nextRun, feeds, slow, links, xfers,
      nextXfer, flows, landing, flitAt, pkgMem, poison, scrubAt, units, tpls, isu, pwr, otp, nv, sec, boot, tap, free,
      pending⟩ :=
  h.trans (.of_dies rfl)

/-- A function applied to every entry of a table: the first entry, if it is still one, and the rest. -/
theorem tmapi_cons {α : Type} [DecidableEq α] (d : α) (f : Nat → α → α) (k : Nat) (v : α) (t : Tab α) :
    tmapi d f ((k, v) :: t) = if f k v = d then tmapi d f t else (k, f k v) :: tmapi d f t := by
  by_cases h : f k v = d <;> simp [tmapi, h]

theorem exists_of_mem_tmapi {α : Type} [DecidableEq α] {d : α} {f : Nat → α → α} {t : Tab α} {e : Nat × α}
    (h : e ∈ tmapi d f t) : ∃ x ∈ t, x.1 = e.1 := by
  obtain ⟨x, hx, rfl⟩ := List.mem_map.1 (List.mem_filter.1 h).1
  exact ⟨x, hx, rfl⟩

theorem tabOk_tmapi {α : Type} [DecidableEq α] {d : α} {f : Nat → α → α} {t : Tab α} (h : tabOk (fun _ => d) t = true) :
    tabOk (fun _ => d) (tmapi d f t) = true := by
  induction t with
  | nil => rfl
  | cons e t ih =>
    obtain ⟨k, v⟩ := e
    obtain ⟨-, hk, ht⟩ := tabOk_cons.1 h
    rw [tmapi_cons]
    split
    · exact ih ht
    · next hv =>
      refine tabOk_cons.2 ⟨hv, fun e he => ?_, ih ht⟩
      obtain ⟨x, hx, hxe⟩ := exists_of_mem_tmapi he
      exact hxe ▸ hk x hx

/-- A key below every listed one is not listed. -/
theorem tget_of_lt {α : Type} (d : α) {t : Tab α} {k : Nat} (h : ∀ e ∈ t, k < e.1) : tget d t k = d := by
  induction t with
  | nil => rfl
  | cons e t ih =>
    rw [tget, if_neg (h e List.mem_cons_self).ne', ih fun x hx => h x (List.mem_cons_of_mem _ hx)]

/-- What a function applied to the entries of a canonical table keeps of each of them. -/
theorem tget_tmapi_congr {α β : Type} [DecidableEq α] (π : α → β) {d : α} {f : Nat → α → α} (hf : ∀ k v, π (f k v) = π v)
    {t : Tab α} (h : tabOk (fun _ => d) t = true) (k : Nat) : π (tget d (tmapi d f t) k) = π (tget d t k) := by
  induction t with
  | nil => rfl
  | cons e t ih =>
    obtain ⟨j, v⟩ := e
    obtain ⟨-, hk, ht⟩ := tabOk_cons.1 h
    rw [tmapi_cons]
    split
    · next hv =>
      rw [ih ht, tget]
      split
      · next hj => rw [tget_of_lt d fun e he => hj ▸ hk e he, ← hf j v, hv]
      · rfl
    · rw [tget, tget]
      split
      · exact hf j v
      · exact ih ht

theorem SameStanding.of_tmapi {s t : State} (f : Nat → Die → Die) (hd : t.dies = tmapi Die.zero f s.dies)
    (hs : ∀ k x, (f k x).st = x.st) (hu : ∀ k x, (f k x).up = x.up) : SameStanding s t := by
  refine ⟨fun h => ⟨hd ▸ tabOk_tmapi h, fun e => ?_⟩⟩
  rw [dieAt, hd]
  exact ⟨tget_tmapi_congr Die.st hs h e, tget_tmapi_congr Die.up hu h e⟩

section

variable {s₀ : State}

@[simp] theorem standing_ite {c : Prop} [Decidable c] {s t : State} :
    SameStanding s₀ (if c then s else t) ↔ (c → SameStanding s₀ s) ∧ (¬ c → SameStanding s₀ t) := by
  split <;> simp [*]

theorem standing_of_ite {c : Prop} [Decidable c] {s t : State} (hs : SameStanding s₀ s) (ht : SameStanding s₀ t) :
    SameStanding s₀ (if c then s else t) := by
  split <;> assumption

@[simp] theorem standing_foldl {α : Type} (l : List α) (f : State → α → State) (h : ∀ s x, SameStanding s (f s x)) {s : State}
    (hs : SameStanding s₀ s) : SameStanding s₀ (l.foldl f s) := by
  induction l generalizing s with
  | nil => exact hs
  | cons x l ih => exact ih (hs.trans (h s x))

/-- A die put back with the same standing. -/
theorem standing_putDie {s : State} (h : SameStanding s₀ s) {d : Nat} {v : Die} (hv : v.st = (dieAt s d).st)
    (hu : v.up = (dieAt s d).up) :
    SameStanding s₀ (putDie s d v) := by
  refine h.trans ⟨fun hs => ⟨tabOk_tset rfl hs, fun e => ?_⟩⟩
  by_cases he : e = d
  · subst he
    simp [dieAt, putDie, tget_tset_self, hv, hu]
  · simp [dieAt, putDie, tget_tset_other _ _ _ _ (Ne.symm he)]

section
variable {s : State} (h : SameStanding s₀ s)
include h
@[simp] theorem standing_rset (p off : Nat) (v : W32) : SameStanding s₀ (rset s p off v) := by simp [rset, h]
@[simp] theorem standing_count (p off n : Nat) : SameStanding s₀ (count s p off n) := by simp [count, h]
@[simp] theorem standing_putEng (e : Nat) (v : Engine) : SameStanding s₀ (putEng s e v) := by simp [putEng, h]

@[simp] theorem standing_mapEngines (p : Nat → Bool) (f : Engine → Engine) : SameStanding s₀ (mapEngines s p f) := by
  refine h.trans (.of_tmapi (fun k d => if p k then { d with proto := f d.proto } else d) rfl ?_ ?_) <;>
    exact fun k x => by split <;> rfl

@[simp] theorem standing_imageWritten (space die : Nat) : SameStanding s₀ (imageWritten s space die) := by
  simp [imageWritten, h]
@[simp] theorem standing_putPlate (p : Nat) (v : Plate) : SameStanding s₀ (putPlate s p v) := by simp [putPlate, h]
@[simp] theorem standing_putCtr (k : Nat) (v : Ctr) : SameStanding s₀ (putCtr s k v) := by simp [putCtr, h]
@[simp] theorem standing_putRun (r : Nat) (v : Option Run) : SameStanding s₀ (putRun s r v) := by simp [putRun, h]
@[simp] theorem standing_putReq (r : Nat) (v : Option Req) : SameStanding s₀ (putReq s r v) := by simp [putReq, h]
@[simp] theorem standing_mapReqs (f : Req → Req) : SameStanding s₀ (mapReqs s f) := by simp [mapReqs, h]
@[simp] theorem standing_putSlot (k : Nat) (v : Slot) : SameStanding s₀ (putSlot s k v) := by simp [putSlot, h]
@[simp] theorem standing_putLink (l : Nat) (v : Link) : SameStanding s₀ (putLink s l v) := by simp [putLink, h]

@[simp] theorem standing_modReq (id : Nat) (f : Req → Req) : SameStanding s₀ (modReq s id f) := by
  unfold modReq
  split <;> simp [h]

@[simp] theorem standing_finishReq (id : Nat) : SameStanding s₀ (finishReq s id) := by simp [finishReq, h]
@[simp] theorem standing_setStatus (id code : Nat) : SameStanding s₀ (setStatus s id code) := by simp [setStatus, h]
@[simp] theorem standing_setLink (d port : Nat) (f : Link → Link) : SameStanding s₀ (setLink s d port f) := by
  simp [setLink, h]
@[simp] theorem standing_dropLinks (d : Nat) : SameStanding s₀ (dropLinks s d) := by simp [dropLinks, h]
@[simp] theorem standing_pruneLanding : SameStanding s₀ (pruneLanding s) := by simp [pruneLanding, h]
@[simp] theorem standing_reroute : SameStanding s₀ (reroute s) := by simp [reroute, h]
@[simp] theorem standing_dropFlows (d : Nat) : SameStanding s₀ (dropFlows s d) := by simp [dropFlows, h]
@[simp] theorem standing_slowReady (r mb : Nat) : SameStanding s₀ (slowReady s r mb) := by simp [slowReady, h]

@[simp] theorem standing_landTo (w : Run) (mb n : Nat) : SameStanding s₀ (landTo s w mb n) := by
  refine standing_of_ite (standing_foldl _ _ (fun t a => ?_) h) h
  exact standing_of_ite (standing_slowReady (standing_putRun (.refl t) ..) ..) (standing_putRun (.refl t) ..)

@[simp] theorem standing_takeFeed (f : Feed) (id : Nat) : SameStanding s₀ (takeFeed s f id) := by
  unfold takeFeed
  dsimp only
  (repeat' split) <;> simp [h]

@[simp] theorem standing_newFeed (f : Feed) : SameStanding s₀ (newFeed s f) := by
  unfold newFeed
  dsimp only
  (repeat' split) <;> simp [h]

@[simp] theorem standing_freeTilesOf (ids : List Nat) : SameStanding s₀ (freeTilesOf s ids) := by simp [freeTilesOf, h]

@[simp] theorem standing_exhaustCtrs (id : Nat) : SameStanding s₀ (exhaustCtrs s id) := by
  unfold exhaustCtrs
  split
  · exact h
  · refine standing_foldl _ _ (fun t a => ?_) h
    split <;> simp

@[simp] theorem standing_dropWork (id : Nat) : SameStanding s₀ (dropWork s id) := by
  have hf := standing_mapEngines (standing_exhaustCtrs (standing_freeTilesOf h ((reqRuns s id).map fun e => e.1)) id)
    (fun _ => true) fun e => e.forget ((reqRuns s id).map fun e => e.1)
  exact hf.trans (.of_tmapi (fun _ d => { d with sweep := { d.sweep with reqs := d.sweep.reqs.filter fun i => i != id } }) rfl
    (fun _ _ => rfl) fun _ _ => rfl)

@[simp] theorem standing_failReq (id code : Nat) : SameStanding s₀ (failReq s id code) := by
  unfold failReq
  split
  · exact h
  · exact standing_of_ite h (standing_finishReq (standing_setStatus (standing_dropWork h id) ..) ..)

@[simp] theorem standing_loseFeed (slot layer src key : Nat) : SameStanding s₀ (loseFeed s slot layer src key) := by
  unfold loseFeed
  dsimp only
  (repeat' split) <;> simp [h]

@[simp] theorem standing_loseCargo (c : Cargo) : SameStanding s₀ (loseCargo s c) := by
  unfold loseCargo
  split <;> simp [h]

@[simp] theorem standing_modEng (e : Nat) (f : Engine → Engine) : SameStanding s₀ (modEng s e f) := by simp [modEng, h]
@[simp] theorem standing_modShard (slot shard : Nat) (f : ShardSt → ShardSt) : SameStanding s₀ (modShard s slot shard f) := by
  simp [modShard, h]
@[simp] theorem standing_setTodo (d : Nat) (l again : List Nat) : SameStanding s₀ (setTodo s d l again) := by
    exact standing_putDie (standing_foldl _ _ (fun t k => by split <;> simp) h) rfl rfl
@[simp] theorem standing_modSweep (d : Nat) (f : Sweep → Sweep) : SameStanding s₀ (modSweep s d f) := by
    exact standing_putDie h rfl rfl

@[simp] theorem standing_sweepServe (d : Nat) : SameStanding s₀ (sweepServe s d) := by
  unfold sweepServe
  refine standing_foldl _ _ (fun t a => ?_) (standing_mapReqs h _)
  split <;> simp

@[simp] theorem standing_cutTouches (l : List (Nat × Engine)) : SameStanding s₀ (cutTouches s l) := by
  unfold cutTouches
  refine standing_foldl _ _ (fun t a => ?_) h
  split <;> simp

@[simp] theorem standing_cutPass (d : Nat) : SameStanding s₀ (cutPass s d) := by
    exact standing_sweepServe (standing_modSweep (standing_setTodo h ..) ..) d
@[simp] theorem standing_resetPages (p : Nat → Bool) (keep : Nat → W32) : SameStanding s₀ (resetPages s p keep) := by
  simp [resetPages, h]
@[simp] theorem standing_resetDiePages (d : Nat) : SameStanding s₀ (resetDiePages s d) := by simp [resetDiePages, h]
@[simp] theorem standing_failWork (d code : Nat) : SameStanding s₀ (failWork s d code) := by
    exact standing_update (standing_foldl _ _ (fun t id => standing_failReq (.refl t) ..) h) ..
@[simp] theorem standing_dropUnwritten (d : Nat) : SameStanding s₀ (dropUnwritten s d) := by simp [dropUnwritten, h]

/-- The work of a die is dropped with its engines and cores; its standing is not touched. -/
@[simp] theorem standing_clearDie (d : Nat) : SameStanding s₀ (clearDie s d) := by
  have hw := standing_dropUnwritten (standing_cutTouches (standing_cutPass h d) (dieEngines s d)) d
  exact (standing_putDie (v := { dieAt _ d with proto := Engine.zero }) hw rfl rfl).trans (.of_dies rfl)

end
end

/-! ### A die's reset -/

/-- A die that is taken off: it stands as told, it is down, and no other die's standing changes. -/
theorem dieOff_standing {s : State} (hok : tabOk (fun _ => Die.zero) s.dies = true) (d code : Nat) (st : DieSt) :
    (dieAt (dieOff s d code st) d).st = st ∧ (dieAt (dieOff s d code st) d).up = false ∧
      ∀ e, e ≠ d → (dieAt (dieOff s d code st) e).st = (dieAt s e).st ∧ (dieAt (dieOff s d code st) e).up = (dieAt s e).up := by
  have hw : SameStanding s (resetDiePages (rset (clearDie (failWork s d code) d) pgPwr (0x80 + 4 * d)
      (put16 (dieAt (clearDie (failWork s d code) d) d).lastTemp)) d) :=
    standing_resetDiePages (standing_rset (standing_clearDie (standing_failWork (.refl s) d code) d) ..) d
  have hx : ∃ v : Die, v.st = st ∧ v.up = false ∧ SameStanding
    (putDie (resetDiePages (rset (clearDie (failWork s d code) d) pgPwr (0x80 + 4 * d)
      (put16 (dieAt (clearDie (failWork s d code) d) d).lastTemp)) d) d v) (dieOff s d code st) :=
    ⟨_, rfl, rfl, standing_foldl _ _ (fun t c => standing_loseCargo (.refl t) c)
      (standing_dropFlows (standing_dropLinks (.refl _) d) d)⟩
  obtain ⟨v, hs, hu, hv⟩ := hx
  generalize resetDiePages _ d = w at hw hv
  obtain ⟨hwok, hsw⟩ := hw.keeps hok
  obtain ⟨-, hsame⟩ := hv.keeps (tabOk_tset rfl hwok)
  have hd := hsame d
  simp only [dieAt, putDie, tget_tset_self] at hd
  refine ⟨hd.1.trans hs, hd.2.trans hu, fun e he => ?_⟩
  have h := hsame e
  simp only [dieAt, putDie, tget_tset_other _ _ _ _ (Ne.symm he)] at h
  exact ⟨h.1.trans (hsw e).1, h.2.trans (hsw e).2⟩

theorem weights_of_held {s t : State} (h : held s = held t) : s.weights = t.weights := congrArg Held.weights h

theorem clearDie_weights (s : State) (d : Nat) : (clearDie s d).weights = s.weights := by
  have h : held (dropUnwritten (cutTouches (cutPass s d) (dieEngines s d)) d) = held s := by simp
  exact congrArg Held.weights h

theorem dieOff_weights (s : State) (d code : Nat) (st : DieSt) : (dieOff s d code st).weights = s.weights := by
  have h : held (dieOff s d code st) = held (clearDie (failWork s d code) d) := by simp [dieOff]
  rw [weights_of_held h, clearDie_weights]
  exact weights_of_held (held_failWork s d code)

theorem writeDw_bootRetry (s : State) : writeDw s pgBoot 0x54 (whole 1) = retryOp s := by
  rw [writeDw_block (k := .boot0) (i := 0) (r := ⟨0x54, 0, 1, 0, 0, 0, false, false⟩) (by rfl) (by decide) (by decide)
    (by decide) (by decide) (by rfl),
    blockWrite_whole (.inr rfl) rfl rfl rfl (by decide)]
  rfl

theorem writeDw_bootDieReset (s : State) (w : W32) : writeDw s pgBoot 0x58 (whole w) = bootDieReset s (w &&& 0xFFFF) := by
  rw [writeDw_block (k := .boot0) (i := 0) (r := ⟨0x58, 0, 1, 0, 0, 0, false, false⟩) (by rfl) (by decide) (by decide)
    (by decide) (by decide) (by rfl),
    blockWrite_whole (.inr rfl) rfl rfl rfl (by decide)]
  rfl

/-- The dies that one bit of BOOT_DIE_RESET names. -/
theorem bitsOf_put_one : ∀ d < 16, bitsOf (BitVec.ofNat 16 (fld (put d d 1 &&& 0xFFFF) 15 0)) = [d] := by decide

theorem bootDieReset_one {s : State} (hr : s.boot.ready = true) {d : Nat} (hd : d < 16) (hu : dieUp s d = true) :
    bootDieReset s (put d d 1 &&& 0xFFFF) = dieOff s d 0x7F .on := by
  unfold bootDieReset
  rw [if_pos hr, bitsOf_put_one d hd]
  exact if_pos hu

/-! ### The statement -/

theorem powerOnReset_noClk {s : State} (hs : Settled s) (h : s.pwr.noClk = true) :
    exec .powerOnReset s = .next { s with pwr := { s.pwr with resetBy := none } } := by
  have hp : powerOnResetOp s = { s with pwr := { s.pwr with resetBy := none } } := if_pos h
  exact (congrArg done hp).trans (done_quiet hs)

theorem powerOnReset_clk {s : State} (h : s.pwr.noClk = false) :
    exec .powerOnReset s = .next (settle (powerOn s (if s.pwr.held then 2 else 1))) :=
  congrArg done (if_neg (by simp [h]))

theorem stepEndOp_held {s : State} (hl : s.boot.relink = none) (hs : safeStart s = false) : stepEndOp s ⟨false, []⟩ = s := by
  simp [stepEndOp, hl, hs]

/-- A step that ends with no failed part is recorded and the next one begins. -/
theorem stepEndOp_ok {s : State} (ha : s.boot.active = true) (hl : s.boot.relink = none) (hh : s.pwr.held = false)
    (hr : stepReady s s.boot.begun = true) (h7 : s.boot.begun ≠ 7 ∨ (tryImage s (running s) true).1 = true) :
    stepEndOp s ⟨true, []⟩ = bootNext (endStep s s.boot.begun) s.boot.begun := by
  have h : ¬ (s.boot.begun = 7 ∧ (tryImage s (running s) true).1 = false) := by
    rintro ⟨h, hf⟩
    exact h7.elim (· h) fun ht => by simp [ht] at hf
  simp [stepEndOp, ha, hl, hh, hr, h]

/-- Of two failed dies the lower is recorded. -/
theorem stepEndOp_bad {s : State} (ha : s.boot.active = true) (hl : s.boot.relink = none) (hh : s.pwr.held = false)
    (hr : stepReady s s.boot.begun = true) (h56 : s.boot.begun = 5 ∨ s.boot.begun = 6) {d e : Nat} (hde : d < e)
    (he : e < s.part.member.dies) (hd : (dieAt s d).st = .on) (hn : (dieAt s e).st = .on) :
    stepEndOp s ⟨true, [e, d]⟩ = { s with nv := { s.nv with die := some d } } := by
  have hm : [e, d].min? = some d := by simp [List.min?, Nat.min_eq_right hde.le]
  have hdm : d < s.part.member.dies := by omega
  rcases h56 with h | h <;> rw [h] at hr <;> simp [stepEndOp, ha, hl, hh, hr, h, he, hd, hn, hdm, hm, modNv]

theorem watchdogOp_late {s : State} (ha : s.boot.active = true) (hh : s.pwr.held = false) (h4 : s.boot.begun ≠ 4)
    (hl : s.boot.stepAt + stepLimit s.boot.begun * 1000000 ≤ s.belv.tb) : watchdogOp s = powerOn s 3 := by
  simp [watchdogOp, ha, hh, h4, hl]

/-- What the end of a step without a failed part leaves of the start-up's course. -/
theorem stepEnd_course {s : State} (ha : s.boot.active = true) (hl : s.boot.relink = none) (hh : s.pwr.held = false)
    (hr : stepReady s s.boot.begun = true) (hs : safeStart s = false)
    (h3 : s.boot.begun ≠ 3 ∨ (tryImage s (imageOf s s.nv.prefer) false).1 = true)
    (h7 : s.boot.begun ≠ 7 ∨ (tryImage s (running s) true).1 = true) :
    ∃ t, exec (.bootStepEnd ⟨true, []⟩) s = .next t ∧ t.boot.ended = s.boot.begun ∧ t.nv.ended = s.boot.begun ∧
      (s.boot.begun = 0x0C → t.boot.ready = true ∧ t.boot.active = false ∧ t.nv.failRun = 0) ∧
      (s.boot.begun ≠ 0x0C → t.boot.begun = stepAfter s s.boot.begun ∧ t.nv.begun = t.boot.begun ∧ t.boot.active = true) := by
  refine ⟨_, congrArg done (stepEndOp_ok ha hl hh hr h7), ?_⟩
  rw [settle_boot, settle_nv]
  generalize s.boot.begun = n at h3 ⊢
  by_cases hn : n = 0x0C
  · subst hn
    obtain ⟨hbe, hne, hr, hac, hf⟩ := bootNext_last (endStep s 0x0C)
    obtain ⟨hr', hac', hf'⟩ := endStep_last s
    exact ⟨hbe, hne, fun _ => ⟨hr.trans hr', hac.trans hac', hf.trans hf'⟩, fun h => absurd rfl h⟩
  · have hc : SameCourse s (endStep s n) := endStep_sameCourse hn fun h => h3.resolve_left (absurd h)
    obtain ⟨hbe, hne, hb, hnb, hac⟩ := bootNext_mid hn (hc.safeStart.trans hs)
    exact ⟨hbe, hne, fun h => absurd h hn,
      fun _ => ⟨hb.trans (hc.stepAfter n), hnb.trans hb.symm, hac.trans (hc.active.trans ha)⟩⟩

theorem HostSide.facts {s t : State} {last : Nat} (h : HostSide s t last) (hl : last < 16) :
    t.rings = [] ∧ t.reqs = [] ∧ t.boot.rstLast.toNat = last ∧ t.belv.tb = s.belv.tb ∧ t.weights = s.weights ∧ t.otp = s.otp :=
  ⟨h.rings, h.reqs, by rw [h.rstLast, BitVec.toNat_ofNat, Nat.mod_eq_of_lt hl], congrArg Belv.tb h.belv, h.weights, h.otp⟩

/-- The resets from the host, where the module is in RUN, READY or DOZE. -/
theorem hostResets {s : State} (hh : s.pwr.held = false) (ha : s.pwr.st = .run ∨ s.pwr.st = .ready ∨ s.pwr.st = .doze) :
    (s.pwr.entry ≠ some .vigil → ∃ t, exec .perstAssert s = .next t ∧ HostSide s t 3 ∧ t.bus.perst = true ∧ t.bus.linkUp = false) ∧
    (∃ t, exec .hotReset s = .next t ∧ HostSide s t 4 ∧ t.bus.perst = s.bus.perst ∧ t.bus.linkUp = false) ∧
    (∃ t, exec .flr s = .next t ∧ HostSide s t 5 ∧ t.bus.linkUp = s.bus.linkUp ∧ t.bus.flr = true) := by
  refine ⟨fun he => ⟨_, congrArg done (perstAssertOp_awake hh ha he), ?_⟩, ⟨_, congrArg done (hostResetOp_awake hh ha 4), ?_⟩,
    ⟨_, congrArg done (hostResetOp_awake hh ha 5), ?_⟩⟩
  · obtain ⟨hl, hp⟩ := linkReset_bus { s with bus := { s.bus with perst := true } } 3
    obtain ⟨hr, hq, hx, hb, ho, hw⟩ := (linkReset_hostSide { s with bus := { s.bus with perst := true } } 3).settle
    rw [settle_bus]
    exact ⟨⟨hr, hq, hx, hb, ho, hw⟩, hp, hl⟩
  · obtain ⟨hl, hp⟩ := linkReset_bus s 4
    rw [settle_bus]
    exact ⟨(linkReset_hostSide s 4).settle, hp, hl⟩
  · rw [settle_bus]
    exact ⟨(flrReset_hostSide s).settle, flrReset_linkUp s, rfl⟩

theorem bootDieReset_exec {s : State} {d : Nat} (ha : answers s pgBoot = true) (hr : s.boot.ready = true) (hd : d < 16)
    (hu : dieUp s d = true) (hok : tabOk (fun _ => Die.zero) s.dies = true) :
    ∃ t, exec (.bootDieReset (whole (put d d 1))) s = .next t ∧ (dieAt t d).st = .on ∧ (dieAt t d).up = false ∧
      t.weights = s.weights ∧ ∀ e, e ≠ d → (dieAt t e).st = (dieAt s e).st ∧ (dieAt t e).up = (dieAt s e).up := by
  obtain ⟨hst, hup, hothers⟩ := dieOff_standing hok d 0x7F .on
  have hw := dieOff_weights s d 0x7F .on
  have he : exec (.bootDieReset (whole (put d d 1))) s = .next (answer (settle (dieOff s d 0x7F .on)) .posted []) := by
    rw [← bootDieReset_one hr hd hu, ← writeDw_bootDieReset]
    exact done_regWrite _ ha (by omega) rfl
  generalize dieOff s d 0x7F .on = u at hst hup hothers hw he
  have hdie e : dieAt (answer (settle u) .posted []) e = dieAt u e := by simp [dieAt]
  refine ⟨_, he, ?_⟩
  simp only [hdie]
  exact ⟨hst, hup, (answer_weights ..).trans ((settle_weights u).trans hw), hothers⟩

theorem bootRetry_exec {s : State} (ha : answers s pgBoot = true) (hs : s.boot.safe = true) :
    ∃ t, exec (.bootRetry (whole 1)) s = .next t ∧ Started s t 5 := by
  have hr : retryOp s = powerOn (modNv s fun v => { v with failRun := 0 }) 5 := if_pos hs
  obtain ⟨ha', hb, hn, hc, hf, hg, hq, ho, hw⟩ := (powerOn_started (modNv s fun v => { v with failRun := 0 }) 5).settle
  have he : exec (.bootRetry (whole 1)) s = .next
    (answer (settle (powerOn (modNv s fun v => { v with failRun := 0 }) 5)) .posted []) := by
    rw [← hr, ← writeDw_bootRetry]
    exact done_regWrite _ ha (by omega) rfl
  exact ⟨_, he, ⟨ha', hb, hn, hc, hf, hg, hq, ho, hw⟩⟩

/-- Settles O46, clause by clause: the starts (`powerOn_started`, `sysRst_started`), the resets from the host (`hostResets`), the
steps (`stepEnd_course`) and a die's reset (`bootDieReset_exec`). -/
theorem bootAndResets : Obligations.BootAndResets := by
  intro s hs
  refine ⟨powerOnReset_noClk hs, fun hc => ⟨_, powerOnReset_clk hc, ?_⟩, fun hh => ⟨_, rfl, ?_⟩, fun hh ha => ?_, fun hv => ?_,
    done_quiet hs, fun ha hl hh hr hss _ => ⟨stepEnd_course ha hl hh hr hss, ?_, fun d e h56 hde he hd hn => ?_⟩,
      fun ha hh h4 hl => ?_,
    fun ha hf => ?_, fun d ha hr hd hu hok => bootDieReset_exec ha hr hd hu hok⟩
  · obtain ⟨ha, hb, hn, hcs, -, hr, hq, ho, hw⟩ := (powerOn_started s (if s.pwr.held then 2 else 1)).settle
    obtain ⟨hl, hct⟩ := powerOn_rst s (if s.pwr.held then 2 else 1)
    have htb := powerOn_tb s (if s.pwr.held then 2 else 1)
    rw [← settle_boot] at hl hct
    rw [← settle_belv] at htb
    exact ⟨ha, hb, hn, hcs, hl, hct, htb, hr, hq, hw, ho⟩
  · obtain ⟨ha, hb, -, hcs, -, hr, hq, ho, hw⟩ := (sysRst_started hh).settle
    have hl := sysRst_rstLast hh
    have htb := sysRst_tb hh
    have hp := sysRst_pkgMem hh
    rw [← settle_boot] at hl
    rw [← settle_belv] at htb
    rw [← settle_pkgMem] at hp
    exact ⟨ha, hb, hcs, hl, htb, hr, hq, hw, ho, hp⟩
  · obtain ⟨hp, ⟨t, ht, h4, htb⟩, u, hu, h5, hub⟩ := hostResets hh ha
    refine ⟨fun he => ?_, ⟨t, ht, h4.facts (by omega), htb⟩, u, hu, h5.facts (by omega), hub⟩
    obtain ⟨v, hv, h3, hvb⟩ := hp he
    exact ⟨v, hv, h3.facts (by omega), hvb⟩
  · obtain ⟨n, b, h⟩ := perstDeassertOp_awake hv
    exact ⟨_, (congrArg done h).trans (done_quiet hs), rfl, rfl, rfl, rfl⟩
  · exact (congrArg done (stepEndOp_held hl hss)).trans (done_quiet hs)
  · exact (congrArg done (stepEndOp_bad ha hl hh hr h56 hde he hd hn)).trans (done_quiet hs)
  · obtain ⟨hac, hb, -, hcs, -, -, -, ho, hw⟩ := (powerOn_started s 3).settle
    exact ⟨_, congrArg done (watchdogOp_late ha hh h4 hl), hac, hb, hcs, (congrArg Belv.tb (settle_belv _)).trans
      (powerOn_tb s 3), hw, ho⟩
  · obtain ⟨t, ht, hst⟩ := bootRetry_exec ha hf
    exact ⟨t, ht, hst.active, hst.begun, hst.cause, hst.safe, hst.weights⟩

end Sys2Proof.Laws
end

section
/-! The answer to the host is only written by the accesses: one rule for each function that a write of a register can reach, and the
write itself (R35). A start of the module over leaves no answer, whatever it was before. -/

namespace Sys2Proof.Laws

open Sys2Proof Sys2Proof.Machine

/-- A branch on the same condition commutes with an answer if both sides do. -/
theorem ite_answer {P : Prop} {_ : Decidable P} {a b a' b' : State} {c : Cpl} {l : List W32} (ha : a = answer a' c l)
    (hb : b = answer b' c l) : (if P then a else b) = answer (if P then a' else b') c l := by
  rw [ha, hb, answer_ite]

theorem ite_answer_pair {P : Prop} {_ : Decidable P} {a b a' b' : State × Bool} {c : Cpl} {l : List W32}
    (ha : a = (answer a'.1 c l, a'.2)) (hb : b = (answer b'.1 c l, b'.2)) :
    (if P then a else b) = (answer (if P then a' else b').1 c l, (if P then a' else b').2) := by
  rw [ha, hb]
  split <;> rfl

@[simp] theorem foldl_answer {α : Type} {c : Cpl} {l : List W32} (xs : List α) (f : State → α → State)
    (h : ∀ s x, f (answer s c l) x = answer (f s x) c l) (s : State) :
    xs.foldl f (answer s c l) = answer (xs.foldl f s) c l := by
  induction xs generalizing s with
  | nil => rfl
  | cons x xs ih => rw [List.foldl_cons, h, ih, List.foldl_cons]

section

variable (s : State) (c : Cpl) (l : List W32)

/-! ### What is read -/

@[simp] theorem rget64_answer (p off : Nat) : rget64 (answer s c l) p off = rget64 s p off := rfl
@[simp] theorem plateAt_answer (p : Nat) : plateAt (answer s c l) p = plateAt s p := rfl
@[simp] theorem entryAt_answer (n : Nat) : entryAt (answer s c l) n = entryAt s n := rfl
@[simp] theorem rfld_answer (p off hi lo : Nat) : rfld (answer s c l) p off hi lo = rfld s p off hi lo := rfl
@[simp] theorem ringAt_answer (n : Nat) : ringAt (answer s c l) n = ringAt s n := rfl
@[simp] theorem reqAt_answer (r : Nat) : reqAt (answer s c l) r = reqAt s r := rfl
@[simp] theorem linkAt_answer (n : Nat) : linkAt (answer s c l) n = linkAt s n := rfl
@[simp] theorem ctrAt_answer (k : Nat) : ctrAt (answer s c l) k = ctrAt s k := rfl
@[simp] theorem reqRuns_answer (id : Nat) : reqRuns (answer s c l) id = reqRuns s id := rfl
@[simp] theorem slotAt_answer (k : Nat) : slotAt (answer s c l) k = slotAt s k := rfl
@[simp] theorem dieAt_answer (d : Nat) : dieAt (answer s c l) d = dieAt s d := rfl
@[simp] theorem engAt_answer (e : Nat) : engAt (answer s c l) e = engAt s e := rfl
@[simp] theorem calPlateOf_answer (k : Nat) : calPlateOf (answer s c l) k = calPlateOf s k := rfl
@[simp] theorem storedEngines_answer (d : Nat) (t : Tab Saved) : storedEngines (answer s c l) d t = storedEngines s d t := rfl
@[simp] theorem rbit_answer (p off b : Nat) : rbit (answer s c l) p off b = rbit s p off b := rfl
@[simp] theorem dieUp_answer (d : Nat) : dieUp (answer s c l) d = dieUp s d := rfl

@[simp] theorem component_answer (xs : List Byte) (a : Nat) (ucode : Bool) :
    component (answer s c l) xs a ucode = component s xs a ucode := rfl

@[simp] theorem cmdBytes_answer : cmdBytes (answer s c l) = cmdBytes s := rfl

@[simp] theorem cmdObject_answer (kinds : List Nat) (xs : List Byte) :
    cmdObject (answer s c l) kinds xs = cmdObject s kinds xs := rfl

@[simp] theorem manOf_answer (slot : Nat) : manOf (answer s c l) slot = manOf s slot := rfl
@[simp] theorem doneShards_answer (k : Nat) : doneShards (answer s c l) k = doneShards s k := rfl
@[simp] theorem slotInflight_answer (k : Nat) : slotInflight (answer s c l) k = slotInflight s k := rfl
@[simp] theorem startFailed_answer : startFailed (answer s c l) = startFailed s := rfl
@[simp] theorem convAt_answer (k : Nat) : convAt (answer s c l) k = convAt s k := rfl
@[simp] theorem seqCfg_answer (q : Nat) : seqCfg (answer s c l) q = seqCfg s q := rfl
@[simp] theorem histFrom_answer (core : Nat) (q : QSlot) : histFrom (answer s c l) core q = histFrom s core q := rfl

@[simp] theorem otherMembers_answer (slot core : Nat) (g : QSlotEnt) :
    otherMembers (answer s c l) slot core g = otherMembers s slot core g := rfl

@[simp] theorem shownSlot_answer (core n : Nat) : shownSlot (answer s c l) core n = shownSlot s core n := rfl
@[simp] theorem mapLoaded_answer : mapLoaded (answer s c l) = mapLoaded s := rfl

/-! ### One rule for each function -/

@[simp] theorem rset64_answer (p off v : Nat) : rset64 (answer s c l) p off v = answer (rset64 s p off v) c l := rfl
@[simp] theorem count_answer (p off n : Nat) : count (answer s c l) p off n = answer (count s p off n) c l := rfl

@[simp] theorem count64_answer (p off n : Nat) : count64 (answer s c l) p off n = answer (count64 s p off n) c l := by
  rw [count64, rget64_answer, rset64_answer, count64]

@[simp] theorem ev_answer (p b code : Nat) : ev (answer s c l) p b code = answer (ev s p b code) c l := rfl
@[simp] theorem putDie_answer (d : Nat) (v : Die) : putDie (answer s c l) d v = answer (putDie s d v) c l := rfl
@[simp] theorem putEng_answer (e : Nat) (v : Engine) : putEng (answer s c l) e v = answer (putEng s e v) c l := rfl

@[simp] theorem mapEngines_answer (p : Nat → Bool) (f : Engine → Engine) :
    mapEngines (answer s c l) p f = answer (mapEngines s p f) c l := rfl

@[simp] theorem putUnit_answer (u : Nat) (v : SilUnit) : putUnit (answer s c l) u v = answer (putUnit s u v) c l := rfl

@[simp] theorem imageWritten_answer (space die : Nat) :
    imageWritten (answer s c l) space die = answer (imageWritten s space die) c l := rfl

@[simp] theorem putPlate_answer (p : Nat) (v : Plate) : putPlate (answer s c l) p v = answer (putPlate s p v) c l := by
  have h : (if v.image = (plateAt (answer s c l) p).image then answer s c l else imageWritten (answer s c l) 6 (p / 4194304)) =
    answer (if v.image = (plateAt s p).image then s else imageWritten s 6 (p / 4194304)) c l := ite_answer rfl rfl
  unfold putPlate
  dsimp only
  rw [h]
  rfl

@[simp] theorem putCore_answer (core : Nat) (v : Core) : putCore (answer s c l) core v = answer (putCore s core v) c l := rfl
@[simp] theorem putQSlot_answer (k : Nat) (v : Option QSlot) : putQSlot (answer s c l) k v = answer (putQSlot s k v) c l := rfl
@[simp] theorem putCtr_answer (k : Nat) (v : Ctr) : putCtr (answer s c l) k v = answer (putCtr s k v) c l := rfl
@[simp] theorem putRun_answer (r : Nat) (v : Option Run) : putRun (answer s c l) r v = answer (putRun s r v) c l := rfl
@[simp] theorem putRing_answer (n : Nat) (v : Ring) : putRing (answer s c l) n v = answer (putRing s n v) c l := rfl
@[simp] theorem putReq_answer (r : Nat) (v : Option Req) : putReq (answer s c l) r v = answer (putReq s r v) c l := rfl
@[simp] theorem mapReqs_answer (f : Req → Req) : mapReqs (answer s c l) f = answer (mapReqs s f) c l := rfl
@[simp] theorem putSlot_answer (k : Nat) (v : Slot) : putSlot (answer s c l) k v = answer (putSlot s k v) c l := rfl
@[simp] theorem putEntry_answer (n : Nat) (v : Entry) : putEntry (answer s c l) n v = answer (putEntry s n v) c l := rfl
@[simp] theorem putGroup_answer (g : Nat) (v : Group) : putGroup (answer s c l) g v = answer (putGroup s g v) c l := rfl
@[simp] theorem putStream_answer (n : Nat) (v : Stream) : putStream (answer s c l) n v = answer (putStream s n v) c l := rfl
@[simp] theorem putLink_answer (n : Nat) (v : Link) : putLink (answer s c l) n v = answer (putLink s n v) c l := rfl
@[simp] theorem putTpl_answer (n : Nat) (v : Tpl) : putTpl (answer s c l) n v = answer (putTpl s n v) c l := rfl
@[simp] theorem modBelv_answer (f : Belv → Belv) : modBelv (answer s c l) f = answer (modBelv s f) c l := rfl

@[simp] theorem moveInstants_answer (m : Nat → Nat) (b : Int → Int) :
    moveInstants (answer s c l) m b = answer (moveInstants s m b) c l := rfl

@[simp] theorem restartIntervals_answer : restartIntervals (answer s c l) = answer (restartIntervals s) c l := rfl
@[simp] theorem loadTb_answer (v : Nat) : loadTb (answer s c l) v = answer (loadTb s v) c l := ite_answer rfl rfl

@[simp] theorem tbSet_answer (v : Nat) : tbSet (answer s c l) v = answer (tbSet s v) c l :=
  ite_answer (ite_answer rfl rfl) rfl

@[simp] theorem srcChanged_answer (src : Nat) : srcChanged (answer s c l) src = answer (srcChanged s src) c l := rfl

@[simp] theorem fireEntry_answer (n t : Nat) : fireEntry (answer s c l) n t = answer (fireEntry s n t) c l := by
  cases h : (entryAt s n).pend <;> simp [fireEntry, h]

@[simp] theorem fireWhere_answer (p : Entry → Bool) (t : Nat) :
    fireWhere (answer s c l) p t = answer (fireWhere s p t) c l := by
  simp [fireWhere, ← answer_ite]
  rfl

@[simp] theorem triggerStrobe_answer (out : Nat) (falling : Bool) (t : Nat) :
    triggerStrobe (answer s c l) out falling t = answer (triggerStrobe s out falling t) c l := by
  simp [triggerStrobe]

@[simp] theorem discardAll_answer : discardAll (answer s c l) = answer (discardAll s) c l := rfl

@[simp] theorem ltEnChanged_answer (old new : Bool) :
    ltEnChanged (answer s c l) old new = answer (ltEnChanged s old new) c l :=
  ite_answer rfl (ite_answer rfl rfl)

@[simp] theorem ltSnapshot_answer : ltSnapshot (answer s c l) = answer (ltSnapshot s) c l := by simp [ltSnapshot]

@[simp] theorem discardPend_answer (n : Nat) : discardPend (answer s c l) n = answer (discardPend s n) c l :=
  ite_answer rfl rfl

@[simp] theorem ltWrite_answer : ltWrite (answer s c l) = answer (ltWrite s) c l := by
  simp [ltWrite, ← answer_ite]
  rfl

@[simp] theorem ltCmd_answer (w : W32) : ltCmd (answer s c l) w = answer (ltCmd s w) c l := by
  unfold ltCmd
  dsimp only
  (repeat' split) <;> simp

@[simp] theorem resumeLaunch_answer : resumeLaunch (answer s c l) = answer (resumeLaunch s) c l := rfl

@[simp] theorem hskSelect_answer (v : Nat) : hskSelect (answer s c l) v = answer (hskSelect s v) c l :=
  ite_answer (ite_answer rfl rfl) rfl

@[simp] theorem hskFeat_answer (sel : Nat) : hskFeat (answer s c l) sel = answer (hskFeat s sel) c l :=
  ite_answer rfl (ite_answer rfl rfl)

@[simp] theorem rgSet_answer (n o : Nat) (v : W32) : rgSet (answer s c l) n o v = answer (rgSet s n o v) c l := by
  unfold rgSet
  split <;> simp

@[simp] theorem hostPut_answer (a : Nat) (xs : List Byte) : hostPut (answer s c l) a xs = answer (hostPut s a xs) c l := rfl
@[simp] theorem ringStart_answer (n : Nat) (w : W32) : ringStart (answer s c l) n w = answer (ringStart s n w) c l := rfl

@[simp] theorem ringCtrl_answer (n : Nat) (w : W32) : ringCtrl (answer s c l) n w = answer (ringCtrl s n w) c l := by
  unfold ringCtrl
  dsimp only
  rw [ringAt_answer]
  split
  · exact ite_answer (ite_answer rfl rfl) rfl
  · exact ite_answer rfl (ite_answer rfl rfl)
  all_goals
    refine ite_answer (ite_answer rfl rfl) ?_
    refine (congrArg (putRing · n { ringAt s n with st := .draining, posted := [] }) ?_).trans (putRing_answer ..)
    exact ite_answer rfl rfl

@[simp] theorem ringCfgWrite_answer (n o : Nat) (w : W32) :
    ringCfgWrite (answer s c l) n o w = answer (ringCfgWrite s n o w) c l := by
  unfold ringCfgWrite
  (repeat' apply ite_answer) <;> simp

@[simp] theorem ringCfgWrite64_answer (n o v : Nat) :
    ringCfgWrite64 (answer s c l) n o v = answer (ringCfgWrite64 s n o v) c l :=
  ite_answer rfl (ite_answer rfl rfl)

@[simp] theorem modReq_answer (id : Nat) (f : Req → Req) : modReq (answer s c l) id f = answer (modReq s id f) c l := by
  cases h : reqAt s id <;> simp [modReq, h]

@[simp] theorem finishReq_answer (id : Nat) : finishReq (answer s c l) id = answer (finishReq s id) c l := by simp [finishReq]

@[simp] theorem setStatus_answer (id code : Nat) : setStatus (answer s c l) id code = answer (setStatus s id code) c l := by
  simp [setStatus]

@[simp] theorem sumWrite_answer (g : Nat) : sumWrite (answer s c l) g = answer (sumWrite s g) c l := rfl
@[simp] theorem sumBase_answer (v : Nat) : sumBase (answer s c l) v = answer (sumBase s v) c l := ite_answer rfl rfl
@[simp] theorem sumClr_answer (v : Nat) : sumClr (answer s c l) v = answer (sumClr s v) c l := ite_answer rfl rfl

@[simp] theorem setLink_answer (d port : Nat) (f : Link → Link) :
    setLink (answer s c l) d port f = answer (setLink s d port f) c l := by
  simp [setLink, ← answer_ite]

@[simp] theorem trainLinks_answer (there : Nat → Bool) (d : Nat) :
    trainLinks (answer s c l) there d = answer (trainLinks s there d) c l := by
  refine ite_answer ((congrArg (setLink · d 4 _) ?_).trans (setLink_answer ..)) ?_ <;>
    exact foldl_answer _ _ (fun t p => by exact ite_answer (setLink_answer ..) rfl) s

@[simp] theorem dropLinks_answer (d : Nat) : dropLinks (answer s c l) d = answer (dropLinks s d) c l := by simp [dropLinks]
@[simp] theorem pruneLanding_answer : pruneLanding (answer s c l) = answer (pruneLanding s) c l := rfl
@[simp] theorem reroute_answer : reroute (answer s c l) = answer (reroute s) c l := rfl
@[simp] theorem dropFlows_answer (d : Nat) : dropFlows (answer s c l) d = answer (dropFlows s d) c l := rfl

@[simp] theorem trlSnapshot_answer : trlSnapshot (answer s c l) = answer (trlSnapshot s) c l := by
  rw [trlSnapshot, rfld_answer, linkAt_answer, rset_answer, rset_answer, rset_answer, rset_answer, trlSnapshot]

@[simp] theorem modCore_answer (core : Nat) (f : Core → Core) :
    modCore (answer s c l) core f = answer (modCore s core f) c l := rfl

@[simp] theorem slowReady_answer (r mb : Nat) : slowReady (answer s c l) r mb = answer (slowReady s r mb) c l :=
  ite_answer rfl rfl

@[simp] theorem landTo_answer (w : Run) (mb n : Nat) : landTo (answer s c l) w mb n = answer (landTo s w mb n) c l := by
  refine ite_answer (foldl_answer _ _ (fun t x => ?_) s) rfl
  dsimp only
  rw [putRun_answer]
  exact ite_answer (slowReady_answer ..) rfl

@[simp] theorem takeFeed_answer (f : Feed) (id : Nat) : takeFeed (answer s c l) f id = answer (takeFeed s f id) c l := by
  refine ite_answer ?_ rfl
  dsimp only
  split
  · next e he =>
    split
    · next e' he' =>
      cases he.symm.trans he'
      symm
      exact (foldl_answer _ _ (fun t x => landTo_answer ..) _).symm
    · next he' => cases he.symm.trans he'
  · next he =>
    split
    · next e' he' => cases he.symm.trans he'
    · rfl

@[simp] theorem newFeed_answer (f : Feed) : newFeed (answer s c l) f = answer (newFeed s f) c l := by
  unfold newFeed
  dsimp only
  split
  · next e he =>
    split
    · next e' he' =>
      cases he.symm.trans he'
      symm
      exact (takeFeed_answer ..).symm
    · next he' => cases he.symm.trans he'
  · next he =>
    split
    · next e' he' => cases he.symm.trans he'
    · rfl

@[simp] theorem freeTilesOf_answer (ids : List Nat) : freeTilesOf (answer s c l) ids = answer (freeTilesOf s ids) c l := by
  simp [freeTilesOf, ← answer_ite]

@[simp] theorem exhaustCtrs_answer (id : Nat) : exhaustCtrs (answer s c l) id = answer (exhaustCtrs s id) c l := by
  simp only [exhaustCtrs, reqAt_answer, reqRuns_answer]
  split
  · rfl
  · refine foldl_answer _ _ (fun t x => ?_) s
    simp only [slotAt_answer, ctrAt_answer, putCtr_answer]
    split
    · rfl
    · exact (answer_ite ..).symm

@[simp] theorem dropWork_answer (id : Nat) : dropWork (answer s c l) id = answer (dropWork s id) c l := by
  simp [dropWork]
  rfl

@[simp] theorem failReq_answer (id code : Nat) : failReq (answer s c l) id code = answer (failReq s id code) c l := by
  simp only [failReq, reqAt_answer, dropWork_answer, setStatus_answer, finishReq_answer]
  split
  · rfl
  · exact (answer_ite ..).symm

@[simp] theorem loseFeed_answer (slot layer src key : Nat) :
    loseFeed (answer s c l) slot layer src key = answer (loseFeed s slot layer src key) c l := by
  have h1 (p : Feed → Bool) (f : Feed) : (if src = 32 ∧ s.feeds.any p = false then newFeed (answer s c l) f else answer s c l) =
      answer (if src = 32 ∧ s.feeds.any p = false then newFeed s f else s) c l := ite_answer (newFeed_answer ..) rfl
  unfold loseFeed
  dsimp only
  rw [answer_feeds, h1]
  generalize (if src = 32 ∧ (s.feeds.any fun f => f.slot == slot && f.layer == layer && f.src == src && f.key == key) = false then
    newFeed s ⟨slot, layer, 32, key, [], [], none, false⟩ else s) = u
  rw [answer_feeds]
  split
  · rfl
  · split
    · exact failReq_answer ..
    · rfl

@[simp] theorem loseCargo_answer (core : Cargo) : loseCargo (answer s c l) core = answer (loseCargo s core) c l := by
  unfold loseCargo
  split <;> simp [answer_ite]

@[simp] theorem modEng_answer (e : Nat) (f : Engine → Engine) : modEng (answer s c l) e f = answer (modEng s e f) c l := rfl

@[simp] theorem judgeStale_answer (k : Nat) : judgeStale (answer s c l) k = answer (judgeStale s k) c l :=
  ite_answer rfl rfl

@[simp] theorem chargeCal_answer (k : Nat) : chargeCal (answer s c l) k = answer (chargeCal s k) c l := by
  unfold chargeCal
  dsimp only
  rw [engAt_answer]
  split
  · rfl
  · rw [putEng_answer, count64_answer]
    rfl

@[simp] theorem beginCal_answer (k : Nat) : beginCal (answer s c l) k = answer (beginCal s k) c l := by
  cases h : calPlateOf s k <;> simp [beginCal, h]

@[simp] theorem dueBringUp_answer (k : Nat) (never : Bool) :
    dueBringUp (answer s c l) k never = answer (dueBringUp s k never) c l := by
  simp [dueBringUp]

@[simp] theorem loadCoefs_answer (d : Nat) (t : Tab Saved) : loadCoefs (answer s c l) d t = answer (loadCoefs s d t) c l :=
  foldl_answer _ _ (fun _ _ => modEng_answer ..) s

@[simp] theorem implicitWindow_answer (d : Nat) (t : Tab Saved) :
    implicitWindow (answer s c l) d t = answer (implicitWindow s d t) c l := by
  simp [implicitWindow, ← answer_ite]

@[simp] theorem calSnapshot_answer (d : Nat) : calSnapshot (answer s c l) d = answer (calSnapshot s d) c l := by
  rw [calSnapshot, rfld_answer, engAt_answer, rset_answer, rset64_answer, rset_answer, foldl_answer _ _ fun t x => ?_, calSnapshot]
  dsimp only
  rw [rset_answer, rset_answer, rset_answer]

@[simp] theorem modShard_answer (slot shard : Nat) (f : ShardSt → ShardSt) :
    modShard (answer s c l) slot shard f = answer (modShard s slot shard f) c l := rfl

@[simp] theorem setTodo_answer (d : Nat) (xs again : List Nat) :
    setTodo (answer s c l) d xs again = answer (setTodo s d xs again) c l := by
  simp [setTodo, ← answer_ite]
  rfl

@[simp] theorem modSweep_answer (d : Nat) (f : Sweep → Sweep) : modSweep (answer s c l) d f = answer (modSweep s d f) c l := rfl

@[simp] theorem sweepServe_answer (d : Nat) : sweepServe (answer s c l) d = answer (sweepServe s d) c l := by
  unfold sweepServe
  rw [mapReqs_answer]
  refine foldl_answer _ _ (fun t x => ?_) _
  simp only [reqAt_answer, finishReq_answer]
  split
  · exact (answer_ite ..).symm
  · rfl

@[simp] theorem endPass_answer (d : Nat) : endPass (answer s c l) d = answer (endPass s d) c l := by simp [endPass]

@[simp] theorem leaveSweep_answer (d slot shard : Nat) (ks : List Nat) :
    leaveSweep (answer s c l) d slot shard ks = answer (leaveSweep s d slot shard ks) c l := by
  simp [leaveSweep, ← answer_ite]

@[simp] theorem cutTouches_answer (xs : List (Nat × Engine)) : cutTouches (answer s c l) xs = answer (cutTouches s xs) c l := by
  refine foldl_answer _ _ (fun t x => ?_) s
  simp only [plateAt_answer, putPlate_answer]
  split
  · exact (answer_ite ..).symm
  · rfl

@[simp] theorem restorePlates_answer (d : Nat) : restorePlates (answer s c l) d = answer (restorePlates s d) c l := by
  simp [restorePlates, ← answer_ite]

@[simp] theorem wearSnapshot_answer (d : Nat) : wearSnapshot (answer s c l) d = answer (wearSnapshot s d) c l := rfl

@[simp] theorem plmSnapshot_answer (d : Nat) : plmSnapshot (answer s c l) d = answer (plmSnapshot s d) c l := by
  rw [plmSnapshot, rfld_answer, plateAt_answer, foldl_answer _ _ fun _ _ => rset_answer .., rset64_answer, rset_answer, plmSnapshot]

@[simp] theorem cutPass_answer (d : Nat) : cutPass (answer s c l) d = answer (cutPass s d) c l := by simp [cutPass]

@[simp] theorem startPass_answer (d cause : Nat) : startPass (answer s c l) d cause = answer (startPass s d cause) c l := by
  simp [startPass, ← answer_ite]
  rfl

@[simp] theorem freeReplica_answer (d slot shard : Nat) :
    freeReplica (answer s c l) d slot shard = answer (freeReplica s d slot shard) c l := by
  simp [freeReplica]

@[simp] theorem driftSnapshot_answer (d : Nat) : driftSnapshot (answer s c l) d = answer (driftSnapshot s d) c l := by
  rw [driftSnapshot, rfld_answer, dieAt_answer, driftSnapshot]
  split <;> exact rset_answer ..

@[simp] theorem loseArea_answer (k : Nat) : loseArea (answer s c l) k = answer (loseArea s k) c l := by
  simp [loseArea, ← answer_ite]

@[simp] theorem memSlowSize_answer (v : Nat) : memSlowSize (answer s c l) v = answer (memSlowSize s v) c l :=
  ite_answer rfl rfl

@[simp] theorem modDie_answer (d : Nat) (f : Die → Die) : modDie (answer s c l) d f = answer (modDie s d f) c l := rfl

@[simp] theorem resetPages_answer (p : Nat → Bool) (keep : Nat → W32) :
    resetPages (answer s c l) p keep = answer (resetPages s p keep) c l := rfl

@[simp] theorem resetDiePages_answer (d : Nat) : resetDiePages (answer s c l) d = answer (resetDiePages s d) c l := rfl

@[simp] theorem failWork_answer (d code : Nat) : failWork (answer s c l) d code = answer (failWork s d code) c l := by
  simp [failWork]
  rfl

@[simp] theorem dropUnwritten_answer (d : Nat) : dropUnwritten (answer s c l) d = answer (dropUnwritten s d) c l :=
  foldl_answer _ _ (fun _ _ => modShard_answer ..) s

@[simp] theorem clearDie_answer (d : Nat) : clearDie (answer s c l) d = answer (clearDie s d) c l := by
  simp [clearDie]
  rfl

@[simp] theorem dieOff_answer (d code : Nat) (st : DieSt) :
    dieOff (answer s c l) d code st = answer (dieOff s d code st) c l := by
  simp [dieOff]

@[simp] theorem uncover_answer (d : Nat) : uncover (answer s c l) d = answer (uncover s d) c l := rfl

@[simp] theorem bringUp_answer (d : Nat) (store : Tab Saved) :
    bringUp (answer s c l) d store = answer (bringUp s d store) c l := by
  simp [bringUp]
  rfl

@[simp] theorem bootDieReset_answer (w : W32) : bootDieReset (answer s c l) w = answer (bootDieReset s w) c l := by
  simp [bootDieReset, ← answer_ite]

@[simp] theorem modStream_answer (n : Nat) (f : Stream → Stream) :
    modStream (answer s c l) n f = answer (modStream s n f) c l := rfl

@[simp] theorem cfgRefused_answer (n : Nat) : cfgRefused (answer s c l) n = answer (cfgRefused s n) c l := rfl

@[simp] theorem scfgWrite_answer (n : Nat) (w : W32) : scfgWrite (answer s c l) n w = answer (scfgWrite s n w) c l := by
  unfold scfgWrite
  (repeat' apply ite_answer) <;> rfl

@[simp] theorem camCfgWrite_answer (n off : Nat) (w : W32) :
    camCfgWrite (answer s c l) n off w = answer (camCfgWrite s n off w) c l :=
  ite_answer rfl rfl

@[simp] theorem portCtrl_answer (p : Nat) (w : W32) : portCtrl (answer s c l) p w = answer (portCtrl s p w) c l := by
  refine (congrArg (fun t => rset t (pgCam0 p) 0x40 w) (ite_answer ?_ rfl)).trans (rset_answer ..)
  rfl

@[simp] theorem modUnit_answer (u : Nat) (f : SilUnit → SilUnit) :
    modUnit (answer s c l) u f = answer (modUnit s u f) c l := rfl

@[simp] theorem submitJob_answer (u t : Nat) : submitJob (answer s c l) u t = answer (submitJob s u t) c l :=
  ite_answer rfl rfl

@[simp] theorem tplWrite_answer : tplWrite (answer s c l) = answer (tplWrite s) c l :=
  ite_answer rfl (ite_answer rfl rfl)

@[simp] theorem tplSnapshot_answer : tplSnapshot (answer s c l) = answer (tplSnapshot s) c l := rfl
@[simp] theorem setKey_answer (k : Nat) (v : KeySlot) : setKey (answer s c l) k v = answer (setKey s k v) c l := rfl

@[simp] theorem verifyFail_answer (kind slot reason : Nat) :
    verifyFail (answer s c l) kind slot reason = answer (verifyFail s kind slot reason) c l := by
  rw [verifyFail, rset_answer, count_answer, ev_answer, verifyFail]

theorem verify_answer_fst (x : Signed) : (verify (answer s c l) x).1 = (verify s x).1 := rfl

@[simp] theorem verify_answer (x : Signed) :
    (verify (answer s c l) x).2 = answer (verify s x).2 c l := ite_answer rfl (verifyFail_answer ..)

theorem verifyImage_answer_fst (b : List Byte) : (verifyImage (answer s c l) b).1 = (verifyImage s b).1 := by
  simp only [verifyImage, component_answer, verify_answer_fst, verify_answer]
  split <;> rfl

@[simp] theorem verifyImage_answer (b : List Byte) : (verifyImage (answer s c l) b).2 = answer (verifyImage s b).2 c l := by
  simp only [verifyImage, component_answer, verify_answer_fst, verify_answer]
  split
  · exact verify_answer ..
  · exact verify_answer ..

@[simp] theorem cmdEnd_answer (reason : Nat) : cmdEnd (answer s c l) reason = answer (cmdEnd s reason) c l := rfl

theorem cmdRun_answer (kinds : List Nat) (accept : Signed → Bool) (effect : State → Signed → State)
    (he : ∀ s x, effect (answer s c l) x = answer (effect s x) c l) :
    cmdRun (answer s c l) kinds accept effect = answer (cmdRun s kinds accept effect) c l := by
  simp only [cmdRun, cmdBytes_answer, cmdObject_answer, verify_answer_fst, verify_answer, he, cmdEnd_answer, ← answer_ite]

@[simp] theorem fwStageOp_answer (arg : Nat) : fwStageOp (answer s c l) arg = answer (fwStageOp s arg) c l := by
  unfold fwStageOp
  dsimp only
  rw [cmdBytes_answer, verifyImage_answer_fst, verifyImage_answer]
  generalize verifyImage s (cmdBytes s) = r
  refine ite_answer (cmdEnd_answer ..) (ite_answer (cmdEnd_answer ..) (Eq.symm ?_))
  exact (cmdEnd_answer ..).symm

@[simp] theorem rollbackOp_answer (arg : Nat) : rollbackOp (answer s c l) arg = answer (rollbackOp s arg) c l :=
  ite_answer rfl rfl

@[simp] theorem ownerEnrolOp_answer : ownerEnrolOp (answer s c l) = answer (ownerEnrolOp s) c l :=
  cmdRun_answer s c l _ _ _ fun _ _ => setKey_answer ..

@[simp] theorem ownerRevokeOp_answer : ownerRevokeOp (answer s c l) = answer (ownerRevokeOp s) c l :=
  cmdRun_answer s c l _ _ _ fun _ _ => setKey_answer ..

@[simp] theorem odfenRevokeOp_answer : odfenRevokeOp (answer s c l) = answer (odfenRevokeOp s) c l :=
  cmdRun_answer s c l _ _ _ fun _ _ => setKey_answer ..

@[simp] theorem dbgUnlockOp_answer : dbgUnlockOp (answer s c l) = answer (dbgUnlockOp s) c l :=
  cmdRun_answer s c l _ _ _ fun _ _ => rfl

@[simp] theorem cmdRunOp_answer (op arg : Nat) : cmdRunOp (answer s c l) op arg = answer (cmdRunOp s op arg) c l := by
  simp [cmdRunOp, ← answer_ite]

@[simp] theorem cmdGo_answer (w : W32) : cmdGo (answer s c l) w = answer (cmdGo s w) c l :=
  ite_answer rfl (ite_answer (ev_answer ..) (cmdRunOp_answer { s with sec := { s.sec with busy := true } } ..))

@[simp] theorem newChallenge_answer : newChallenge (answer s c l) = answer (newChallenge s) c l := rfl

@[simp] theorem relockAll_answer : relockAll (answer s c l) = answer (relockAll s) c l := by
  refine foldl_answer _ _ (fun t k => ?_) { s with sec := { s.sec with level := 0, chal := none } }
  exact ite_answer (rset_answer ..) rfl

@[simp] theorem dbgCtrl_answer (w : W32) : dbgCtrl (answer s c l) w = answer (dbgCtrl s w) c l := by
  simp [dbgCtrl, ← answer_ite]

@[simp] theorem cdbgCtrl_answer (k : Nat) (w : W32) : cdbgCtrl (answer s c l) k w = answer (cdbgCtrl s k w) c l := by
  refine (congrArg (fun t => rset t (pgCdbg k) 0x40 (w &&& 1)) (ite_answer (modCore_answer ..) rfl)).trans (rset_answer ..)

@[simp] theorem storeCode_answer (p : ProgEnt) (b : Nat) : storeCode (answer s c l) p b = answer (storeCode s p b) c l := rfl

@[simp] theorem newQSlots_answer (m : Manifest) (k : Nat) : newQSlots (answer s c l) m k = answer (newQSlots s m k) c l :=
  foldl_answer _ _ (fun _ _ => putQSlot_answer ..) s

@[simp] theorem setDests_answer : setDests (answer s c l) = answer (setDests s) c l :=
  foldl_answer _ _ (fun _ _ => rset_answer ..) s

@[simp] theorem freeReplicas_answer (k : Nat) (p : Nat → Bool) :
    freeReplicas (answer s c l) k p = answer (freeReplicas s k p) c l := by
  simp [freeReplicas]

@[simp] theorem recordDrift_answer (k : Nat) : recordDrift (answer s c l) k = answer (recordDrift s k) c l :=
  foldl_answer _ _ (fun _ _ => modShard_answer ..) s

@[simp] theorem recordLoad_answer (k : Nat) : recordLoad (answer s c l) k = answer (recordLoad s k) c l := by
  unfold recordLoad
  dsimp only
  rw [manOf_answer, slotAt_answer, foldl_answer _ _ fun _ _ => storeCode_answer .., newQSlots_answer, recordDrift_answer]

@[simp] theorem recordSlots_answer : recordSlots (answer s c l) = answer (recordSlots s) c l := by
  have h1 (ks : List Nat) : ks.foldl (fun s k => freeReplicas s k fun _ => true) (answer s c l) =
      answer (ks.foldl (fun s k => freeReplicas s k fun _ => true) s) c l :=
    foldl_answer _ _ (fun t k => freeReplicas_answer ..) s
  unfold recordSlots
  dsimp only
  rw [answer_nv, answer_slots, h1]
  simp only [slotAt_answer]
  generalize List.foldl (fun s k => freeReplicas s k fun _ => true) s _ = u
  rw [foldl_answer _ _ fun t k => ?h]
  case h =>
    refine (congrArg (putSlot · k _) (foldl_answer _ _ (fun v e => ?_) t)).trans (putSlot_answer ..)
    exact ite_answer (putPlate_answer ..) rfl
  generalize List.foldl _ u _ = v
  refine Eq.symm ((setDests_answer _ c l).symm.trans (congrArg setDests ?_))
  exact (foldl_answer _ _ (fun t k => recordLoad_answer ..) _).symm

@[simp] theorem flcSnapshot_answer : flcSnapshot (answer s c l) = answer (flcSnapshot s) c l := by
  unfold flcSnapshot
  dsimp only
  rw [rfld_answer, slotAt_answer]
  generalize (if rfld s pgFlc1 0x40 3 0 = 0 then Slot.zero else slotAt s (rfld s pgFlc1 0x40 3 0)) = x
  iterate 4 rw [rset_answer]
  rw [slotInflight_answer]
  iterate 2 rw [rset_answer]
  rw [doneShards_answer, rset_answer, rset_answer, rset64_answer]

@[simp] theorem modPwr_answer (f : Pwr → Pwr) : modPwr (answer s c l) f = answer (modPwr s f) c l := rfl

@[simp] theorem keepStored_answer (old : Tab Slot) (keep : Bool) :
    keepStored (answer s c l) old keep = answer (keepStored s old keep) c l := by
  refine ite_answer rfl (Eq.symm ?_)
  exact (foldl_answer _ _ (fun t k => loseArea_answer ..) _).symm

@[simp] theorem setProfile_answer (v : Nat) : setProfile (answer s c l) v = answer (setProfile s v) c l := rfl

@[simp] theorem dieRestart_answer (w : W32) : dieRestart (answer s c l) w = answer (dieRestart s w) c l := by
  refine foldl_answer _ _ (fun t d => ?_) s
  exact ite_answer (modDie_answer ..) rfl

@[simp] theorem pwrLogSnapshot_answer : pwrLogSnapshot (answer s c l) = answer (pwrLogSnapshot s) c l := by
  rw [pwrLogSnapshot, rfld_answer, answer_nv, rset64_answer, rset_answer, rset_answer, pwrLogSnapshot]

@[simp] theorem modBoot_answer (f : Boot → Boot) : modBoot (answer s c l) f = answer (modBoot s f) c l := rfl
@[simp] theorem modNv_answer (f : Nv → Nv) : modNv (answer s c l) f = answer (modNv s f) c l := rfl

/-- Where the start before failed, the other path taken is the same. -/
@[simp] theorem otherPath_answer : otherPath (answer s c l) = (answer (otherPath s).1 c l, (otherPath s).2) :=
  ite_answer_pair rfl (ite_answer_pair rfl (ite_answer_pair rfl (ite_answer_pair rfl (ite_answer_pair rfl rfl))))

@[simp] theorem beginStart_answer (cause first : Nat) :
    beginStart (answer s c l) cause first = answer (beginStart s cause first) c l := by
  have h1 (f : Nv → Nv) : (if startFailed s then modNv (answer s c l) f else answer s c l) =
      answer (if startFailed s then modNv s f else s) c l := ite_answer rfl rfl
  have h2 (u : State) : (if startFailed s then otherPath (answer u c l) else (answer u c l, false)) =
      (answer (if startFailed s then otherPath u else (u, false)).1 c l, (if startFailed s then otherPath u else (u, false)).2) := by
    split
    · exact otherPath_answer ..
    · rfl
  unfold beginStart
  dsimp only
  rw [startFailed_answer, h1, h2]
  generalize (if startFailed s then otherPath _ else _ : State × Bool) = r
  simp only [answer_part, dieAt_answer, answer_nv]
  rw [foldl_answer _ _ fun _ _ => modDie_answer .., foldl_answer _ _ fun t d => ?h]
  case h => rw [modDie_answer, ev_answer]
  rfl

@[simp] theorem wakeDie_answer (d : Nat) : wakeDie (answer s c l) d = answer (wakeDie s d) c l := by
  refine ite_answer rfl (ite_answer (modDie_answer ..) ?_)
  refine ite_answer ?_ ?_
  · exact bringUp_answer (modDie { s with free := s.free + 1 } d fun x => { x with retained := false }) ..
  · rfl

@[simp] theorem recordStep_answer (begun ended : Nat) :
    recordStep (answer s c l) begun ended = answer (recordStep s begun ended) c l := rfl

@[simp] theorem wakeDies_answer : wakeDies (answer s c l) = answer (wakeDies s) c l := by simp [wakeDies, ← answer_ite]
@[simp] theorem leaveSleep_answer : leaveSleep (answer s c l) = answer (leaveSleep s) c l := rfl

@[simp] theorem leaveVigil_answer : leaveVigil (answer s c l) = answer (leaveVigil s) c l := by
  unfold leaveVigil
  dsimp only
  rw [answer_slots, keepStored_answer]
  refine Eq.symm ((beginStart_answer _ c l _ _).symm.trans (congrArg (beginStart · _ 2) ?_))
  exact (setDests_answer _ c l).symm

@[simp] theorem startExit_answer (st : PState) : startExit (answer s c l) st = answer (startExit s st) c l := by
  have h1 : (if s.pwr.exitTo.isSome then answer s c l else count (answer s c l) pgPwr 0x68 1) =
      answer (if s.pwr.exitTo.isSome then s else count s pgPwr 0x68 1) c l := ite_answer rfl rfl
  unfold startExit
  dsimp only
  rw [answer_pwr, h1, rset_answer, modPwr_answer]
  generalize modPwr _ _ = u
  split
  · exact leaveVigil_answer ..
  · rw [leaveSleep_answer]
    exact ite_answer (wakeDies_answer ..) rfl
  · exact ite_answer (wakeDies_answer ..) rfl
  all_goals rfl

@[simp] theorem pwrReq_answer (w : W32) : pwrReq (answer s c l) w = answer (pwrReq s w) c l := by
  simp [pwrReq, ← answer_ite]
  rfl

@[simp] theorem skipClr_answer (w : W32) : skipClr (answer s c l) w = answer (skipClr s w) c l := rfl
@[simp] theorem modIsu_answer (f : Isu → Isu) : modIsu (answer s c l) f = answer (modIsu s f) c l := rfl
@[simp] theorem putStb_answer (n : Nat) (v : Strobe) : putStb (answer s c l) n v = answer (putStb s n v) c l := rfl
@[simp] theorem putDac_answer (n : Nat) (v : Dac) : putDac (answer s c l) n v = answer (putDac s n v) c l := rfl
@[simp] theorem putConv_answer (k : Nat) (v : Conv) : putConv (answer s c l) k v = answer (putConv s k v) c l := rfl

@[simp] theorem seqTrigger_answer (k : Nat) (inj : Bool) (q : Nat) :
    seqTrigger (answer s c l) k inj q = answer (seqTrigger s k inj q) c l := by
  refine ite_answer (ev_answer ..) (ite_answer ?_ ?_) <;>
  · rw [convAt_answer]
    dsimp only
    split <;> rfl

@[simp] theorem strobeSeqs_answer (out : Nat) (falling : Bool) :
    strobeSeqs (answer s c l) out falling = answer (strobeSeqs s out falling) c l := by
  simp [strobeSeqs, ← answer_ite]

@[simp] theorem strobeEdge_answer (out : Nat) (falling : Bool) :
    strobeEdge (answer s c l) out falling = answer (strobeEdge s out falling) c l := by
  simp [strobeEdge]

@[simp] theorem strobeFall_answer (out : Nat) : strobeFall (answer s c l) out = answer (strobeFall s out) c l := by
  simp [strobeFall, ← answer_ite]
  rfl

@[simp] theorem strobeEnables_answer : strobeEnables (answer s c l) = answer (strobeEnables s) c l := by
  simp [strobeEnables, ← answer_ite]

@[simp] theorem dacLoad1_answer (n : Nat) : dacLoad1 (answer s c l) n = answer (dacLoad1 s n) c l :=
  ite_answer rfl (ite_answer rfl (ite_answer rfl rfl))

@[simp] theorem dacLoad_answer (mask : Nat) : dacLoad (answer s c l) mask = answer (dacLoad s mask) c l := by
  simp [dacLoad, ← answer_ite]

@[simp] theorem dacToZero_answer (n : Nat) : dacToZero (answer s c l) n = answer (dacToZero s n) c l := rfl

@[simp] theorem dacCfg_answer (n : Nat) (w : W32) : dacCfg (answer s c l) n w = answer (dacCfg s n w) c l :=
  ite_answer (ite_answer rfl rfl) (ite_answer rfl rfl)

@[simp] theorem ilkRelease_answer : ilkRelease (answer s c l) = answer (ilkRelease s) c l := ite_answer rfl rfl
@[simp] theorem calClear_answer (key : Nat) : calClear (answer s c l) key = answer (calClear s key) c l := rfl

@[simp] theorem isuCal_answer (w : W32) : isuCal (answer s c l) w = answer (isuCal s w) c l := by
  simp [isuCal, ← answer_ite]
  rfl

@[simp] theorem isuCalSnapshot_answer : isuCalSnapshot (answer s c l) = answer (isuCalSnapshot s) c l := rfl
@[simp] theorem clearHist_answer (core : Nat) : clearHist (answer s c l) core = answer (clearHist s core) c l := rfl

@[simp] theorem vecSnapshot_answer (k : Nat) : vecSnapshot (answer s c l) k = answer (vecSnapshot s k) c l := by
  rw [vecSnapshot, rfld_answer, shownSlot_answer, vecSnapshot]
  split
  · rw [rset_answer, rset_answer]
  · dsimp only
    rw [histFrom_answer, otherMembers_answer, rset_answer, rset_answer]

@[simp] theorem stageLo_answer (k : Kind) (p off : Nat) (w m : W32) :
    stageLo (answer s c l) k p off w m = answer (stageLo s k p off w m) c l := rfl

@[simp] theorem unstage_answer (p lo : Nat) : unstage (answer s c l) p lo = answer (unstage s p lo) c l := rfl

@[simp] theorem accessErr_answer (p kind off : Nat) :
    accessErr (answer s c l) p kind off = answer (accessErr s p kind off) c l := by
  unfold accessErr
  split <;> simp

@[simp] theorem joinGroup_answer (g p : Nat) : joinGroup (answer s c l) g p = answer (joinGroup s g p) c l := rfl

@[simp] theorem commitWrite_answer (p : Nat) (w : W32) : commitWrite (answer s c l) p w = answer (commitWrite s p w) c l :=
  ite_answer rfl (ite_answer rfl rfl)

@[simp] theorem clrWrite_answer (k : Kind) (p : Nat) (w : W32) :
    clrWrite (answer s c l) k p w = answer (clrWrite s k p w) c l :=
  ite_answer rfl (ite_answer rfl rfl)

@[simp] theorem headerWrite_answer (k : Kind) (p off : Nat) (dw : Dw) :
    headerWrite (answer s c l) k p off dw = answer (headerWrite s k p off dw) c l := by
  simp [headerWrite, ← answer_ite]

@[simp] theorem pairCommit_answer (k : Kind) (p lo v : Nat) :
    pairCommit (answer s c l) k p lo v = answer (pairCommit s k p lo v) c l := by
  simp [pairCommit, ← answer_ite]

@[simp] theorem blvCtrl_answer (new : W32) : blvCtrl (answer s c l) new = answer (blvCtrl s new) c l := by
  simp [blvCtrl, ← answer_ite]
  rfl

@[simp] theorem tbSrcWrite_answer (new : W32) : tbSrcWrite (answer s c l) new = answer (tbSrcWrite s new) c l :=
  ite_answer rfl rfl

@[simp] theorem shadowWrite_answer (k : Kind) (p off : Nat) (w m : W32) :
    shadowWrite (answer s c l) k p off w m = answer (shadowWrite s k p off w m) c l :=
  ite_answer rfl rfl

@[simp] theorem slotWrite_answer (n o : Nat) (new : W32) :
    slotWrite (answer s c l) n o new = answer (slotWrite s n o new) c l := by
  simp [slotWrite, ← answer_ite]

@[simp] theorem ringWrite_answer (p off : Nat) (r : RegRow) (dw : Dw) :
    ringWrite (answer s c l) p off r dw = answer (ringWrite s p off r dw) c l := by
  simp [ringWrite, ← answer_ite]
  rfl

/-! ### A write of a register -/

/-- A reset that starts the module over does not read the last answer, and leaves none. -/
theorem coldState_answer (keepTb keepMem : Bool) : coldState (answer s c l) keepTb keepMem = coldState s keepTb keepMem := by
  unfold coldState
  rw [answer_engines, cutTouches_answer]
  rfl

theorem powerOn_answer (cause : Nat) : powerOn (answer s c l) cause = powerOn s cause := by
  unfold powerOn
  rw [coldState_answer]
  rfl

theorem retryOp_answer : answer (retryOp (answer s c l)) c l = answer (retryOp s) c l := by
  unfold retryOp
  rw [answer_boot, modNv_answer, powerOn_answer]
  split <;> rfl

/-- A write of a block's register that is not BOOT_RETRY. -/
theorem blockAct_answer {k : Kind} {off : Nat} (h : k = .boot0 → off ≠ 0x54) (i p : Nat) (new eff : W32) :
    blockAct (answer s c l) k i p off new eff = answer (blockAct s k i p off new eff) c l := by
  cases k
  case boot0 =>
    have hb (t : State) : blockAct t .boot0 i p off new eff =
        if off = 0x50 then skipClr t eff else if off = 0x58 then bootDieReset t eff else rset t p off new :=
      ite_congr rfl (fun _ => rfl) fun _ => if_neg (h rfl)
    rw [hb, hb]
    exact ite_answer (skipClr_answer ..) (ite_answer (bootDieReset_answer ..) rfl)
  case cam0 =>
    refine ite_answer (portCtrl_answer ..) (ite_answer rfl ?_)
    dsimp only
    rw [scfgWrite_answer, camCfgWrite_answer, rset_answer]
    split <;> rfl
  case isu0 =>
    have hr : (if releaseOk (answer s c l) then rset (answer s c l) p off new else answer s c l) =
      answer (if releaseOk s then rset s p off new else s) c l := ite_answer rfl rfl
    unfold blockAct
    dsimp only
    rw [hr, ilkRelease_answer, rset_answer, strobeEnables_answer]
    exact ite_answer rfl (ite_answer (ite_answer rfl rfl) rfl)
  all_goals simp [blockAct, ← answer_ite]

/-- Whether the answer before a write of a block's register is one or another does not show once it is answered: only BOOT_RETRY
starts the module over, and that leaves no answer. -/
theorem answer_blockAct (k : Kind) (i p off : Nat) (new eff : W32) :
    answer (blockAct (answer s c l) k i p off new eff) c l = answer (blockAct s k i p off new eff) c l := by
  by_cases h : k = .boot0 ∧ off = 0x54
  · obtain ⟨rfl, rfl⟩ := h
    have hb (t : State) : blockAct t .boot0 i p 0x54 new eff = if bit eff 0 then retryOp t else t := rfl
    rw [hb, hb, answer_ite, answer_ite, retryOp_answer]
    rfl
  · rw [blockAct_answer s c l fun hk ho => h ⟨hk, ho⟩]
    rfl

theorem answer_of_ite {P : Prop} {_ : Decidable P} {a b a' b' : State} {c : Cpl} {l : List W32}
    (ha : answer a c l = answer a' c l) (hb : answer b c l = answer b' c l) :
    answer (if P then a else b) c l = answer (if P then a' else b') c l := by
  rw [answer_ite, answer_ite, ha, hb]

/-- What leaves the answer before it alone does not show it once it is answered. -/
theorem answer_of_eq {a b : State} {c : Cpl} {l : List W32} (h : a = answer b c l) : answer a c l = answer b c l := by
  rw [h]
  rfl

theorem answer_blockWrite (k : Kind) (i p off : Nat) (r : RegRow) (dw : Dw) :
    answer (blockWrite (answer s c l) k i p off r dw) c l = answer (blockWrite s k i p off r dw) c l := by
  have h1 (P : Prop) [Decidable P] (n : Nat) : (if P then ev (answer s c l) p 30 n else answer s c l) =
      answer (if P then ev s p 30 n else s) c l := ite_answer rfl rfl
  unfold blockWrite
  dsimp only
  rw [rget_answer, h1]
  generalize (if bit (rget s p 0x0C) 0 = true ∧ beMask dw.be &&& r.lm ≠ 0 then ev s p 30 (0x5000 + off) else s) = u
  refine answer_of_ite (answer_of_eq (shadowWrite_answer ..)) (answer_of_ite rfl (answer_of_ite ?_ (answer_of_ite ?_ ?_)))
  · exact answer_of_ite rfl (answer_of_eq (stageLo_answer ..))
  · exact answer_of_ite (answer_of_eq ((congrArg (unstage · p (off - 4)) (pairCommit_answer ..)).trans (unstage_answer ..)))
      (answer_of_eq (pairCommit_answer ..))
  · exact answer_blockAct ..

/-- A write of one DW to a page commutes with the answer to it. -/
theorem answer_writeDw (p off : Nat) (dw : Dw) :
    answer (writeDw (answer s c l) p off dw) c l = answer (writeDw s p off dw) c l := by
  unfold writeDw
  split
  · rfl
  · refine answer_of_ite (answer_of_eq (accessErr_answer ..)) (answer_of_ite (answer_of_eq (headerWrite_answer ..))
      (answer_of_ite rfl (answer_of_ite rfl ?_)))
    split
    · rfl
    · exact answer_of_ite (answer_of_eq (ringWrite_answer ..)) (answer_blockWrite ..)

end

/-! ### Two accesses in one write -/

theorem ite_ne_of_ne {α : Type} {P : Prop} {_ : Decidable P} {a b x : α} (ha : a ≠ x) (hb : b ≠ x) : (if P then a else b) ≠ x := by
  split <;> assumption

/-- The pages of rings are those from 0x100 to 0x17F. -/
theorem kindOf_rng_range {p i : Nat} (h : kindOf p = some (.rng, i)) : 0x100 ≤ p ∧ p < 0x180 := by
  by_contra hr
  revert h
  unfold kindOf
  rw [if_neg hr]
  refine ite_ne_of_ne ?_ (ite_ne_of_ne (ite_ne_of_ne ?_ ?_) nofun)
  · iterate 11 refine ite_ne_of_ne nofun ?_
    refine ite_ne_of_ne (fun h => ?_) ?_
    · split at h <;> cases h
    · iterate 11 refine ite_ne_of_ne nofun ?_
      exact nofun
  · split <;> exact nofun
  · dsimp only
    split <;> exact nofun

/-- The page in which an error of an access to a page shows: HDMA for a page of rings. -/
abbrev errPage (p : Nat) : Nat := if 0x100 ≤ p ∧ p < 0x180 then 0x90 else p

theorem accessErr_errPage {s : State} {p : Nat} (hp : (kindOf p).isSome) (n off : Nat) :
    accessErr s p n off = ev s (errPage p) 31 (n * 4096 + off) := by
  obtain ⟨⟨k, i⟩, hk⟩ := Option.isSome_iff_exists.1 hp
  by_cases hr : 0x100 ≤ p ∧ p < 0x180
  · rw [errPage, if_pos hr, accessErr, kindOf_rng hr.1 hr.2]
    rfl
  · rw [errPage, if_neg hr]
    refine accessErr_page hk (fun h => hr ?_) n off
    subst h
    exact kindOf_rng_range hk

theorem pageReach_errPage {s : State} {p : Nat} (h : pageReach s p = .ok) : pageReach s (errPage p) = .ok := by
  unfold errPage
  split
  · exact pageReach_hdma s
  · exact h

/-- A write to a page that answers. -/
theorem exec_registerWrite {s : State} {p off : Nat} (h : answers s p = true) (ho : off < 4096) (l : List Dw) :
    exec (.registerWrite (p * 4096 + off) l) s = done (answer (bar0Write s (p * 4096 + off) l) .posted []) := by
  obtain ⟨hl, hp, -⟩ := answers_open h
  exact congrArg done (hostWrite_open hl (inBar_page hp ho) (answers_awake h ho) l)

theorem bar0Write_ok {s : State} {p off : Nat} (h : answers s p = true) (ho : off < 4096) (h4 : off % 4 = 0) (l : List Dw) :
    bar0Write s (p * 4096 + off) l =
      if 2 < l.length then accessErr s p 2 off else if 4096 < off + 4 * l.length then accessErr s p 4 off else writeDws s p off l := by
  obtain ⟨-, -, hr⟩ := answers_open h
  have e1 : (p * 4096 + off) / 4096 = p := by omega
  have e2 : (p * 4096 + off) % 4096 / 4 * 4 = off := by omega
  unfold bar0Write
  rw [e1, e2]
  dsimp only
  rw [hr]

/-- A write that an error drops whole. -/
theorem exec_registerWrite_err {s : State} {p off n code : Nat} {l : List Dw} (hc : n * 4096 + off = code) (hs : Settled s)
    (h : answers s p = true) (ho : off < 4096)
    (hp : (kindOf p).isSome) (hw : bar0Write s (p * 4096 + off) l = accessErr s p n off) :
    exec (.registerWrite (p * 4096 + off) l) s = .next (answer (noted s (errPage p) 31 code) .posted []) := by
  subst hc
  obtain ⟨-, -, hr⟩ := answers_open h
  rw [exec_registerWrite h ho, hw, accessErr_errPage hp]
  exact done_answer_ev hs (pageReach_errPage hr) ..

/-- A write of two DW is one of the first, and then one of the second. -/
theorem exec_registerWrite_two {s : State} {p off : Nat} (h : answers s p = true) (ho : off + 8 ≤ 4096) (h4 : off % 4 = 0)
    (a b : Dw) : exec (.registerWrite (p * 4096 + off) [a, b]) s =
      .next (answer (settle (writeDw (settle (writeDw s p off a)) p (off + 4) b)) .posted []) := by
  have h2 : ¬ 2 < [a, b].length := Nat.lt_irrefl 2
  have h8 : ¬ 4096 < off + 4 * [a, b].length := by simp; omega
  rw [exec_registerWrite h (by omega), bar0Write_ok h (by omega) h4, if_neg h2, if_neg h8, done_eq, settle_answer]
  rw [writeDws, writeDws, writeDws, settle_of_nil (settle_evq _)]

/-- Settles O16: a write of one DW commutes with the answer to the one before it (`answer_writeDw`). -/
theorem twoDwWriteIsTwoAccesses : Obligations.TwoDwWriteIsTwoAccesses := by
  intro s p off hs ha ho h4
  refine ⟨fun a b t h8 ht hat => ?_, fun a b h8 hp => ?_, fun l hl hp => ?_⟩
  · have ht' : answer (settle (writeDw s p off a)) .posted [] = t :=
      Host.Outcome.next.inj ((done_regWrite a ha ho h4).symm.trans ht)
    subst ht'
    refine ⟨_, done_regWrite b hat (by omega) (by omega), (exec_registerWrite_two ha h8 h4 a b).trans ?_⟩
    rw [← settle_answer, ← settle_answer, answer_writeDw]
  · have h2 : ¬ 2 < [a, b].length := Nat.lt_irrefl 2
    exact exec_registerWrite_err (n := 4) rfl hs ha ho hp (by rw [bar0Write_ok ha ho h4, if_neg h2, if_pos (by simp; omega)])
  · exact exec_registerWrite_err (n := 2) rfl hs ha ho hp (by rw [bar0Write_ok ha ho h4, if_pos hl])

end Sys2Proof.Laws
end

section
/-! Engines and their reads (R69 to R88): what an update of an engine leaves and sets, what goes on beside the engines while one of
them works, and each of its commands as one equation for each case. -/

namespace Sys2Proof.Laws

open Sys2Proof Sys2Proof.Machine

/-! ### Engines and dies -/

theorem engAt_congr {s t : State} (he : t.engines = s.engines) (hd : t.dies = s.dies) (k : Nat) : engAt t k = engAt s k := by
  simp only [engAt, dieAt, he, hd]

@[simp] theorem engAt_putEng_self (s : State) (k : Nat) (v : Engine) : engAt (putEng s k v) k = v := tget_tset_self ..

theorem engAt_putEng_other (s : State) {k j : Nat} (v : Engine) (h : k ≠ j) : engAt (putEng s k v) j = engAt s j :=
  tget_tset_other _ _ _ v h

@[simp] theorem engAt_modEng_self (s : State) (k : Nat) (f : Engine → Engine) : engAt (modEng s k f) k = f (engAt s k) :=
  engAt_putEng_self ..

@[simp] theorem dieAt_putDie_self (s : State) (d : Nat) (v : Die) : dieAt (putDie s d v) d = v := tget_tset_self ..

theorem dieAt_putDie_other (s : State) {d c : Nat} (v : Die) (h : d ≠ c) : dieAt (putDie s d v) c = dieAt s c :=
  tget_tset_other _ _ _ v h

/-- A write of a die's own state reaches no engine of it. -/
theorem engAt_putDie (s : State) {d : Nat} {v : Die} (h : v.proto = (dieAt s d).proto) (k : Nat) :
    engAt (putDie s d v) k = engAt s k := by
  have hp : (dieAt (putDie s d v) (k / 8192)).proto = (dieAt s (k / 8192)).proto := by
    by_cases hk : d = k / 8192
    · rw [← hk, dieAt_putDie_self, h]
    · rw [dieAt_putDie_other s v hk]
  unfold engAt
  rw [hp]
  rfl

@[simp] theorem engAt_count (s : State) (p o n k : Nat) : engAt (count s p o n) k = engAt s k := rfl
@[simp] theorem engAt_count64 (s : State) (p o n k : Nat) : engAt (count64 s p o n) k = engAt s k :=
  engAt_congr (count64_engines ..) (count64_dies ..) k

@[simp] theorem engAt_ev (s : State) (p b c k : Nat) : engAt (ev s p b c) k = engAt s k := rfl
@[simp] theorem dieAt_count64 (s : State) (p o n d : Nat) : dieAt (count64 s p o n) d = dieAt s d := by
  rw [dieAt, count64_dies, dieAt]

@[simp] theorem dieAt_putEng (s : State) (k : Nat) (v : Engine) (d : Nat) : dieAt (putEng s k v) d = dieAt s d := rfl
@[simp] theorem rget_putEng (s : State) (k : Nat) (v : Engine) (p o : Nat) : rget (putEng s k v) p o = rget s p o := rfl
@[simp] theorem rget64_putEng (s : State) (k : Nat) (v : Engine) (p o : Nat) : rget64 (putEng s k v) p o = rget64 s p o := rfl

@[simp] theorem govAt_proto (us : Nat) (x : Die) : (x.govAt us).proto = x.proto := by
  unfold Die.govAt
  split <;> rfl

/-! ### Pages -/

theorem pgCstat_ne_pgVec (c b : Nat) : pgCstat c ≠ pgVec b := by
  unfold pgCstat pgVec corePage
  omega

theorem pgCstat_ne_pgDie (c d : Nat) : pgCstat c ≠ pgDie d := by
  unfold pgCstat pgDie corePage diePage
  omega

theorem pgCstat_ne_pgCal0 (c d : Nat) : pgCstat c ≠ pgCal0 d := by
  unfold pgCstat pgCal0 corePage diePage
  omega

theorem pgCal0_ne_pgVec (d c : Nat) : pgCal0 d ≠ pgVec c := by
  unfold pgCal0 pgVec diePage corePage
  omega

theorem pgCal0_ne_pgDie (d c : Nat) : pgCal0 d ≠ pgDie c := by
  unfold pgCal0 pgDie diePage
  omega

theorem rget_count_page (s : State) {p q a o : Nat} (n : Nat) (h : q ≠ p) (ha : a < 4096) (ho : o < 4096) :
    rget (count s p a n) q o = rget s q o :=
  rget_count_other s n fun e => h ((dwAddr_inj ha ho).mp e).1.symm

theorem rget_count64_page (s : State) {p q a o : Nat} (n : Nat) (h : q ≠ p) (ha : a + 4 < 4096) (ho : o < 4096) :
    rget (count64 s p a n) q o = rget s q o :=
  rget_rset64_other s _ (fun e => h ((dwAddr_inj (by omega) ho).mp e).1.symm) fun e => h ((dwAddr_inj ha ho).mp e).1.symm

/-- A 64-bit counter of a page counts. -/
theorem rget64_count64 (s : State) (p o n : Nat) : rget64 (count64 s p o n) p o = (rget64 s p o + n) % 2 ^ 64 := rget64_rset64 ..

theorem rget64_count64_page (s : State) {p q a o : Nat} (n : Nat) (h : q ≠ p) (ha : a + 4 < 4096) (ho : o + 4 < 4096) :
    rget64 (count64 s p a n) q o = rget64 s q o := by
  rw [rget64, rget_count64_page s n h ha (by omega), rget_count64_page s n h ha ho, rget64]

/-! ### Beside the engines -/

/-- From `s` to `t` neither the timebase, a die nor an engine changes, and of the registers from 0x48 up only those of vector units
do: what requests, STEP and the taking of events do. -/
structure Beside (s t : State) : Prop where
  engines : t.engines = s.engines
  dies : t.dies = s.dies
  belv : t.belv = s.belv
  regs : ∀ p o, o < 4096 → 0x48 ≤ o → (∀ c, p ≠ pgVec c) → rget t p o = rget s p o

theorem Beside.refl (s : State) : Beside s s := ⟨rfl, rfl, rfl, fun _ _ _ _ _ => rfl⟩

theorem Beside.trans {s t u : State} (h : Beside s t) (k : Beside t u) : Beside s u :=
  ⟨k.engines.trans h.engines, k.dies.trans h.dies, k.belv.trans h.belv,
    fun p o h1 h2 h3 => (k.regs p o h1 h2 h3).trans (h.regs p o h1 h2 h3)⟩

/-- An update of other tables. -/
theorem Beside.update {s t : State} (he : t.engines = s.engines) (hd : t.dies = s.dies) (hb : t.belv = s.belv)
    (hr : t.regs = s.regs) : Beside s t :=
  ⟨he, hd, hb, fun p o _ _ _ => rget_of_regs hr p o⟩

theorem Beside.engAt {s t : State} (h : Beside s t) (k : Nat) : engAt t k = engAt s k := engAt_congr h.engines h.dies k

theorem Beside.dieAt {s t : State} (h : Beside s t) (d : Nat) : dieAt t d = dieAt s d := by
  rw [Machine.dieAt, h.dies, Machine.dieAt]

theorem Beside.cstat {s t : State} (h : Beside s t) (c : Nat) {o : Nat} (ho : o < 4096) (h48 : 0x48 ≤ o) :
    rget t (pgCstat c) o = rget s (pgCstat c) o := h.regs _ _ ho h48 (pgCstat_ne_pgVec c)

theorem Beside.cal0 {s t : State} (h : Beside s t) (d : Nat) {o : Nat} (ho : o < 4096) (h48 : 0x48 ≤ o) :
    rget t (pgCal0 d) o = rget s (pgCal0 d) o := h.regs _ _ ho h48 (pgCal0_ne_pgVec d)

theorem Beside.cstat64 {s t : State} (h : Beside s t) (c : Nat) {o : Nat} (ho : o + 4 < 4096) (h48 : 0x48 ≤ o) :
    rget64 t (pgCstat c) o = rget64 s (pgCstat c) o := by
  rw [rget64, h.cstat c (by omega) h48, h.cstat c ho (by omega), rget64]

theorem Beside.ite {c : Prop} [Decidable c] {s t u : State} (ht : Beside s t) (hu : Beside s u) :
    Beside s (if c then t else u) := by
  split <;> assumption

theorem Beside.foldl {α : Type} {f : State → α → State} (h : ∀ s x, Beside s (f s x)) (l : List α) (s : State) :
    Beside s (l.foldl f s) := by
  induction l generalizing s with
  | nil => exact .refl s
  | cons x l ih => exact (h s x).trans (ih _)

theorem beside_settle (s : State) : Beside s (settle s) :=
  ⟨settle_engines s, settle_dies s, settle_belv s, fun p o h1 h2 _ =>
    rget_settle s h1 (by omega) (by omega) (by omega) (by omega) (by omega)⟩

/-! ### Requests -/

theorem beside_modReq (s : State) (id : Nat) (f : Req → Req) : Beside s (modReq s id f) := by
  unfold modReq
  split
  · exact .refl s
  · exact .update rfl rfl rfl rfl

theorem beside_finishReq (s : State) (id : Nat) : Beside s (finishReq s id) := beside_modReq ..
theorem beside_setQual (s : State) (id b : Nat) : Beside s (setQual s id b) := beside_modReq ..
theorem beside_addSat (s : State) (id n : Nat) : Beside s (addSat s id n) := beside_modReq ..
theorem beside_addRepeat (s : State) (id n : Nat) : Beside s (addRepeat s id n) := beside_modReq ..

theorem beside_dieFlags (s : State) (id d : Nat) : Beside s (dieFlags s id d) := by
  have hw : Beside s (if (dieAt s d).warn = 0 then s else setQual s id qLowsup) := .ite (.refl s) (beside_setQual ..)
  exact .ite (hw.trans (beside_setQual ..)) hw

theorem beside_onReq {f : State → Nat → State} (h : ∀ s q, Beside s (f s q)) (s : State) (r : Option Nat) :
    Beside s (onReq s r f) := by
  cases r with
  | none => exact .refl s
  | some q => exact h s q

/-! ### STEP -/

theorem beside_ev (s : State) (p b code : Nat) : Beside s (ev s p b code) := .update rfl rfl rfl rfl
theorem beside_corePut (s : State) (c a : Nat) (l : List Byte) : Beside s (corePut s c a l) := .update rfl rfl rfl rfl
theorem beside_modCore (s : State) (c : Nat) (f : Core → Core) : Beside s (modCore s c f) := .update rfl rfl rfl rfl
theorem beside_putRun (s : State) (r : Nat) (v : Option Run) : Beside s (putRun s r v) := .update rfl rfl rfl rfl

theorem beside_count_vec (s : State) (c n : Nat) : Beside s (count s (pgVec c) 0x68 n) :=
  ⟨rfl, rfl, rfl, fun _ _ ho _ hp => rget_count_page s n (hp c) (by omega) ho⟩

theorem beside_count64_steps (s : State) (c n : Nat) : Beside s (count64 s (pgCstat c) 0x40 n) := by
  refine ⟨count64_engines .., count64_dies .., count64_belv .., fun p o ho h48 _ =>
    rget_rset64_other s _ (fun e => ?_) fun e => ?_⟩ <;>
  · have := (dwAddr_inj (by omega) ho).mp e
    omega

theorem beside_addPart (s : State) (c tile row cols : Nat) (vals : List Int) : Beside s (addPart s c tile row cols vals) := by
  refine Beside.foldl (fun t x => ?_) _ s
  dsimp only
  generalize satAdd32 _ _ = v
  exact .ite ((beside_corePut ..).trans ((beside_count_vec ..).trans (beside_ev ..))) (beside_corePut ..)

theorem beside_freeSlot (s : State) (w : Run) (mb : Nat) : Beside s (freeSlot s w mb) :=
  (Beside.foldl (fun t e => beside_putRun t e.1 (some { e.2 with landed := tdel e.2.landed mb })) (siblings s w) s).trans
    (.update rfl rfl rfl rfl)

theorem beside_passStep (s : State) (c : Nat) (x : Step) (vals : List (List Int)) : Beside s (passStep s c x vals) := by
  unfold passStep
  split
  · exact .refl s
  · next w hw =>
    dsimp only
    split
    · next t tile _ =>
      have hadd := Beside.foldl (fun u v => beside_addPart u c t x.row ((w.rc s).cols x.nt) v) vals s
      refine .ite (Beside.trans ?_ (beside_freeSlot ..)) ?_ <;>
        exact hadd.trans ((beside_count64_steps ..).trans ((beside_modCore ..).trans (beside_putRun ..)))
    · exact .refl s

/-! ### The parts of a step -/

/-- A part that is not its step's last contributes to it. -/
theorem partDone_left {s : State} {k id : Nat} {r : StepRun} (h : tget none (engAt s k).steps id = some r) (hl : 1 < r.left)
    (pid : Nat) (p : PartSt) (vals : List Int) (sats : List Bool) :
    partDone s k id pid p vals sats = putEng s k { engAt s k with
      parts := tdel (engAt s k).parts pid
      pend := (engAt s k).pend.filter fun x => x.1 != pid
      steps := tset none (engAt s k).steps id (some { r with left := r.left - 1, done := tins r.done p.lo (vals, sats) }) } := by
  unfold partDone
  dsimp only
  rw [h]
  dsimp only
  rw [if_neg (by omega)]

/-- A step's last part ends it; what its result does then goes on beside the engines. -/
theorem partDone_last {s : State} {k id : Nat} {r : StepRun} (h : tget none (engAt s k).steps id = some r) (hl : r.left ≤ 1)
    (pid : Nat) (p : PartSt) (vals : List Int) (sats : List Bool) :
    Beside (putEng s k { engAt s k with
      parts := tdel (engAt s k).parts pid
      pend := (engAt s k).pend.filter fun x => x.1 != pid
      steps := tdel (engAt s k).steps id }) (partDone s k id pid p vals sats) := by
  unfold partDone
  dsimp only
  rw [h]
  dsimp only
  rw [if_pos (by omega)]
  exact (beside_onReq (fun s q => beside_addSat s q _) _ _).trans (beside_passStep ..)

/-! ### A staged step begins, or is skipped -/

/-- The part that a staged step begins with: all of its rows. -/
def wholePart (s : State) (x : Step) (id : Nat) : PartSt := ⟨id, 0, 64, (stepRec s x).rg, 0, 1, []⟩

/-- The engine with a staged step begun. -/
def opened (s : State) (e : Engine) (x : Step) : Engine :=
  { e with
    staged := e.staged.tail
    nextId := e.nextId + 2
    steps := tset none e.steps e.nextId (some ⟨x, 1, []⟩)
    parts := tset none e.parts (e.nextId + 1) (some (wholePart s x e.nextId)) }

theorem opened_steps (s : State) (e : Engine) (x : Step) :
    (opened s e x).steps = tset none e.steps e.nextId (some ⟨x, 1, []⟩) := rfl

/-- What an engine does with a step staged and no read pending (R70, R71, R88, R373). -/
theorem readIntegrateOp_staged {s : State} {k : Nat} {x : Step} {l : List Step} (hx : (engAt s k).staged = x :: l)
    (hp : (engAt s k).pend = []) (hw : wantsRead s k (engAt s k) = true) (hu : (dieAt s (k / 8192)).up = true) :
    readIntegrateOp s k =
      if allZero (stepRec s x).inFmt (x.x.take 64) then
        skipPart (putEng s k (opened s (engAt s k) x)) k ((engAt s k).nextId + 1) (wholePart s x (engAt s k).nextId)
      else if (engAt s k).sel ≠ x.plate then
        count (putEng s k { engAt s k with sel := x.plate, freeAt := s.belv.tb + 192 }) (pgCstat (k / 512)) 0x64 1
      else if granted s k then
        beginRead (putEng s k (opened s (engAt s k) x)) k ((engAt s k).nextId + 1) (wholePart s x (engAt s k).nextId) x
      else noteWait s (k / 8192) := by
  have hn : nextRead s (engAt s k) = some (.inr x) := by simp [nextRead, hp, hx]
  have hd : ¬ (wantsRead s k (engAt s k) = false ∨ (dieAt s (engDie k)).up = false) := by simp [hw, engDie, hu]
  unfold readIntegrateOp
  rw [if_neg hd, hn]
  rfl

/-- A skipped part keeps the engine busy for 16 ns, is counted, and contributes (R88). -/
theorem skipPart_last {s : State} {k : Nat} {p : PartSt} {r : StepRun} (h : tget none (engAt s k).steps p.step = some r)
    (hl : r.left ≤ 1) (pid : Nat) :
    (engAt (skipPart s k pid p) k).freeAt = s.belv.tb + 16 ∧ (engAt (skipPart s k pid p) k).flights = (engAt s k).flights ∧
    rget64 (skipPart s k pid p) (pgCstat (k / 512)) 0x50 = (rget64 s (pgCstat (k / 512)) 0x50 + 1) % 2 ^ 64 := by
  obtain ⟨u, hu⟩ : ∃ u, u = count64 (modEng s k fun e => { e with freeAt := s.belv.tb + 16 }) (pgCstat (k / 512)) 0x50 1 :=
    ⟨_, rfl⟩
  have he : engAt u k = { engAt s k with freeAt := s.belv.tb + 16 } := by rw [hu, engAt_count64, engAt_modEng_self]
  have hc : rget64 u (pgCstat (k / 512)) 0x50 = (rget64 s (pgCstat (k / 512)) 0x50 + 1) % 2 ^ 64 := by
    rw [hu, rget64_count64, modEng, rget64_putEng]
  have hd : skipPart s k pid p = partDone u k p.step pid p (List.replicate 64 0) (List.replicate 64 false) := by
    rw [hu, skipPart, engCore]
  have hb := partDone_last (s := u) (by rw [he]; exact h) hl pid p (List.replicate 64 0) (List.replicate 64 false)
  rw [hd, hb.engAt, engAt_putEng_self, he, hb.cstat64 _ (by omega) (by omega), rget64_putEng, hc]
  exact ⟨rfl, rfl, rfl⟩

/-! ### A read begins -/

@[simp] theorem engAt_takeSlot (s : State) (d k : Nat) : engAt (takeSlot s d) k = engAt s k := by
  unfold takeSlot
  rw [engAt_count64, engAt_putDie s (by simp)]

theorem rget64_takeSlot (s : State) (d c : Nat) {o : Nat} (ho : o + 4 < 4096) :
    rget64 (takeSlot s d) (pgCstat c) o = rget64 s (pgCstat c) o := by
  unfold takeSlot
  exact rget64_count64_page _ 1 (pgCstat_ne_pgDie c d) (by omega) ho

/-- A read that begins is in flight with what is in force, and is counted (R69, R75, R106). -/
theorem beginRead_flight (s : State) (k pid : Nat) (p : PartSt) (x : Step) :
    ∃ f q, engAt (beginRead s k pid p x) k =
        { engAt s k with flights := (engAt s k).flights ++ [f], freeAt := s.belv.tb + 128, pend := q } ∧
      f.start = (s.belv.tb : Int) ∧ f.refs = none ∧
      f.charge = charges s (k * 512 + x.plate) (partDriven (stepRec s x).inFmt x.x p) ∧
      f.remap = (plateAt s (k * 512 + x.plate)).remap ∧ f.lim = rfld s (pgCal0 (k / 8192)) 0x44 15 8 ∧
      f.tol = rfld s (pgCal0 (k / 8192)) 0x44 3 0 ∧ (f.offs = (engAt s k).coef.map fun c => c.off) ∧
      (f.gains = (engAt s k).coef.map fun c => c.gain) ∧
      rget64 (beginRead s k pid p x) (pgCstat (k / 512)) 0x48 = (rget64 s (pgCstat (k / 512)) 0x48 + 1) % 2 ^ 64 := by
  unfold beginRead
  dsimp only
  generalize hr : (fun (s : State) (q : Nat) => dieFlags _ q _) = mark
  have hm : ∀ t q, Beside t (mark t q) := fun t q => by
    subst hr
    exact (Beside.ite (beside_addRepeat ..) (.refl t)).trans ((Beside.ite (beside_setQual ..) (.refl _)).trans
      ((Beside.ite (beside_setQual ..) (.refl _)).trans (beside_dieFlags ..)))
  have hb := beside_onReq hm
  refine ⟨_, _, ((hb _ _).engAt k).trans ((engAt_count64 ..).trans ((engAt_takeSlot ..).trans (engAt_putEng_self ..))),
    rfl, rfl, rfl, rfl, rfl, rfl, rfl, rfl, ((hb _ _).cstat64 _ (by omega) (by omega)).trans ?_⟩
  exact (rget64_count64 ..).trans (by rw [rget64_takeSlot _ _ _ (by omega), rget64_putEng]; rfl)

/-! ### The checks of an engine -/

/-- From `s` to `t` the reads in flight of engine k stay, and no CSTAT register changes: what the counting of checks does. -/
structure Checked (k : Nat) (s t : State) : Prop where
  flights : (engAt t k).flights = (engAt s k).flights
  cstat : ∀ c o, o < 4096 → rget t (pgCstat c) o = rget s (pgCstat c) o

theorem Checked.refl (k : Nat) (s : State) : Checked k s s := ⟨rfl, fun _ _ _ => rfl⟩

theorem Checked.trans {k : Nat} {s t u : State} (h : Checked k s t) (j : Checked k t u) : Checked k s u :=
  ⟨j.flights.trans h.flights, fun c o ho => (j.cstat c o ho).trans (h.cstat c o ho)⟩

theorem Checked.ite {k : Nat} {c : Prop} [Decidable c] {s t u : State} (ht : Checked k s t) (hu : Checked k s u) :
    Checked k s (if c then t else u) := by
  split <;> assumption

section

variable {k : Nat} {s t : State} (h : Checked k s t)

include h

theorem checked_putEng {v : Engine} (hv : v.flights = (engAt t k).flights) : Checked k s (putEng t k v) :=
  h.trans ⟨by rw [engAt_putEng_self, hv], fun _ _ _ => rfl⟩

theorem checked_ev (p b code : Nat) : Checked k s (ev t p b code) := h.trans ⟨rfl, fun _ _ _ => rfl⟩

theorem checked_count (d : Nat) {a : Nat} (ha : a < 4096) (n : Nat) : Checked k s (count t (pgCal0 d) a n) :=
  h.trans ⟨rfl, fun c _ ho => rget_count_page t n (pgCstat_ne_pgCal0 c d) ha ho⟩

theorem checked_judgeStale : Checked k s (judgeStale t k) :=
  .ite (checked_ev (checked_putEng h (by rfl)) ..) (checked_putEng h (by rfl))

theorem checked_markDue (c : Cause) : Checked k s (markDue t k c) :=
  .ite h (.ite (.ite (checked_putEng h (by rfl)) h) (checked_judgeStale (checked_putEng h (by rfl))))

theorem checked_blockEnd (j lim : Nat) : Checked k s (blockEnd t k j lim) := by
  have hc := checked_count h (engDie k) (a := 0x6C) (by omega) 1
  refine .ite (.ite (checked_ev (checked_putEng hc (by rfl)) ..) ?_) (.ite (checked_putEng h (by rfl)) (checked_putEng h (by rfl)))
  exact checked_putEng (checked_markDue (checked_putEng hc (by rfl)) .confidence) (by dsimp only; split <;> rfl)

end

theorem checked_countChecks (s : State) (k lim : Nat) (fails : List Bool) : Checked k s (countChecks s k lim fails) := by
  unfold countChecks
  generalize fails.zipIdx = l
  induction l generalizing s with
  | nil => exact .refl k s
  | cons f l ih =>
    refine .trans ?_ (ih _)
    exact .ite (checked_blockEnd (checked_putEng (.refl k s) (by rfl)) ..) (checked_putEng (.refl k s) (by rfl))

/-! ### The confidence decision -/

@[simp] theorem stepRec_putEng (s : State) (k : Nat) (v : Engine) (x : Step) : stepRec (putEng s k v) x = stepRec s x := rfl
@[simp] theorem stepReq_putEng (s : State) (k : Nat) (v : Engine) (x : Step) : stepReq (putEng s k v) x = stepReq s x := rfl
@[simp] theorem stepClass_putEng (s : State) (k : Nat) (v : Engine) (x : Step) : stepClass (putEng s k v) x = stepClass s x := rfl

section

variable {s : State} {k : Nat} {f : Flight} {l : List Flight} {p : PartSt} {r : StepRun} (hf : (engAt s k).flights = f :: l)
  (hp : tget none (engAt s k).parts f.part = some p) (hr : tget none (engAt s k).steps p.step = some r)

include hf hp hr

/-- The check of the head read, once its reference pairs are converted (R74, R75). -/
theorem confidenceOp_head (hn : f.refs = none) (ht : f.start + 145 ≤ s.belv.tb) (errs : List Int) :
    confidenceOp s k errs =
      let refs := refCodes p.range f.charge errs
      let er := expectedRef (stepRec s r.step).inFmt (partRows r.step.x p)
      let fails := failGroups f.tol p.range er [(refs, f.offs, f.gains)]
      let checked := fun (bad : Bool) => putEng s k { engAt s k with flights := { f with refs := some refs, failed := bad } :: l }
      if refInRange p.range er then
        let u := if fails.any id then count (checked true) (pgCstat (k / 512)) 0x58 1 else checked false
        if f.first then countChecks u k f.lim fails else u
      else count (checked false) (pgCstat (k / 512)) 0x5C 1 := by
  have hfind : (engAt s k).flights.find? (fun f => f.refs.isNone) = some f := by simp [hf, hn]
  have hput (refs : List Meas) (bad : Bool) : modEng s k (fun e => { e with
      flights := modFirst (fun g => g.refs.isNone) (fun g => { g with refs := some refs, failed := bad }) e.flights }) =
      putEng s k { engAt s k with flights := { f with refs := some refs, failed := bad } :: l } := by
    simp [modEng, hf, modFirst, hn]
  unfold confidenceOp
  dsimp only
  rw [hfind]
  dsimp only
  rw [if_neg (by omega), hp]
  dsimp only
  rw [hr]
  dsimp only
  simp only [hput, engCore]
  cases (failGroups _ _ _ _).any id <;> rfl

/-! ### The saturation decision -/

/-- A part whose first read saturates is replaced by its halves (R82, R83). -/
theorem saturationOp_split {refs : List Meas} (hn : f.refs = some refs) (ht : f.start + 256 ≤ s.belv.tb) (errs : List Int)
    (h1 : f.first = true) (hs : (dataCodes p.range f.remap f.charge errs).any (fun c => c.sat) = true)
    (hpol : (stepRec s r.step).satPol = 0) (hd : p.depth < 2) :
    ∃ u, Beside (putEng s k { engAt s k with flights := l }) u ∧
      saturationOp s k errs =
        let q : PartSt := { p with reads := p.reads ++ [⟨dataCodes p.range f.remap f.charge errs, refs, f.offs, f.gains⟩] }
        let half := fun (lo : Nat) => { q with lo := lo, cnt := p.cnt / 2, depth := p.depth + 1, reads := [] }
        replacePart (count u (pgCstat (k / 512)) 0x68 1) k f.part q [half p.lo, half (p.lo + p.cnt / 2)] := by
  simp only [saturationOp, hf, hn, hp, hr, if_neg (not_lt.mpr ht), stepRec_putEng, stepReq_putEng, h1, hs, hpol, hd,
    and_self, if_true]
  exact ⟨_, (beside_onReq (fun _ _ => beside_setQual ..) ..).trans (beside_onReq (fun _ _ => beside_setQual ..) ..), rfl⟩

/-- The further reads of a part whose first read does not saturate are placed (R76, R86). -/
theorem saturationOp_further {refs : List Meas} (hn : f.refs = some refs) (ht : f.start + 256 ≤ s.belv.tb) (errs : List Int)
    (h1 : f.first = true) (hs : (dataCodes p.range f.remap f.charge errs).any (fun c => c.sat) = false)
    (hmore : furtherReads (stepClass s r.step) f.failed ≠ 0) :
    ∃ u, Beside (putEng s k { engAt s k with flights := l }) u ∧
      saturationOp s k errs =
        let n := furtherReads (stepClass s r.step) f.failed
        let q : PartSt := { p with
          reads := p.reads ++ [⟨dataCodes p.range f.remap f.charge errs, refs, f.offs, f.gains⟩], want := 1 + n }
        modEng (modEng u k fun e => { e with parts := tset none e.parts f.part (some q) }) k fun e =>
          { e with pend := e.pend ++ List.replicate n (f.part, u.belv.tb + 2) } := by
  simp only [saturationOp, hf, hn, hp, hr, if_neg (not_lt.mpr ht), stepRec_putEng, stepReq_putEng, stepClass_putEng,
    h1, hs, Bool.false_eq_true, false_and, and_false, if_false, if_true]
  exact ⟨_, .ite (beside_onReq (fun _ _ => beside_setQual ..) ..) (.refl _), if_neg hmore⟩

/-- A part whose last read is taken is finished (R78, R79). -/
theorem saturationOp_finish {refs : List Meas} (hn : f.refs = some refs) (ht : f.start + 256 ≤ s.belv.tb) (errs : List Int)
    (h1 : f.first = false) (hw : p.reads.length + 1 = p.want) :
    ∃ u, Beside (putEng s k { engAt s k with flights := l }) u ∧
      saturationOp s k errs = finishPart u k f.part
        { p with reads := p.reads ++ [⟨dataCodes p.range f.remap f.charge errs, refs, f.offs, f.gains⟩] } r f.tol := by
  simp only [saturationOp, hf, hn, hp, hr, if_neg (not_lt.mpr ht), stepRec_putEng, stepReq_putEng, h1,
    Bool.false_eq_true, false_and, if_false, List.length_append, List.length_singleton, hw, if_true]
  exact ⟨_, .ite (beside_onReq (fun _ _ => beside_setQual ..) ..) (.refl _), rfl⟩

end

/-- Two parts in the place of one (R83, R86). -/
theorem replacePart_two (s : State) (k pid : Nat) (p a b : PartSt) :
    ∃ st, engAt (replacePart s k pid p [a, b]) k = { engAt s k with
      nextId := (engAt s k).nextId + 2
      parts := tset none (tset none (tdel (engAt s k).parts pid) (engAt s k).nextId (some a)) ((engAt s k).nextId + 1) (some b)
      pend := ((engAt s k).pend.filter fun x => x.1 != pid) ++
        [((engAt s k).nextId, s.belv.tb + 2), ((engAt s k).nextId + 1, s.belv.tb + 2)]
      steps := st } :=
  ⟨_, engAt_putEng_self ..⟩

theorem rget_replacePart (s : State) (k pid : Nat) (p : PartSt) (new : List PartSt) (q o : Nat) :
    rget (replacePart s k pid p new) q o = rget s q o := rfl

/-- A part whose reads are all taken contributes to a step that has others left (R79, R170). -/
theorem finishPart_left {s : State} {k : Nat} {p : PartSt} {r : StepRun} (h : tget none (engAt s k).steps p.step = some r)
    (hl : 1 < r.left) (pid tol : Nat) : engAt (finishPart s k pid p r tol) k = { engAt s k with
      parts := tdel (engAt s k).parts pid
      pend := (engAt s k).pend.filter fun x => x.1 != pid
      steps := tset none (engAt s k).steps p.step (some { r with
        left := r.left - 1
        done := tins r.done p.lo ((List.range 64).map fun o => contribution p.range p.reads o,
          (List.range 64).map fun o => p.reads.any fun z => (z.codes.getD o ⟨0, false⟩).sat) }) } := by
  unfold finishPart
  dsimp only
  have hc (c : Prop) [Decidable c] (t : State) (p o : Nat) : engAt (if c then count t p o 1 else t) k = engAt t k := by
    split <;> rfl
  rw [partDone_left (by rw [hc, hc]; exact h) hl, engAt_putEng_self, hc, hc]

/-! ### READ_INTEGRATE with a step staged and no read pending -/

theorem exec_readIntegrate (s : State) (k : Nat) : exec (.readIntegrate k) s = .next (settle (readIntegrateOp s k)) := rfl

theorem noteWait_evq (s : State) (d : Nat) : (noteWait s d).evq = s.evq := by
  unfold noteWait
  dsimp only
  split <;> rfl

section

variable {s : State} {k : Nat} {x : Step} {l : List Step} (hx : (engAt s k).staged = x :: l) (hp : (engAt s k).pend = [])
  (hw : wantsRead s k (engAt s k) = true) (hu : (dieAt s (k / 8192)).up = true)

include hx hp hw hu

/-- An all-zero step is skipped in 16 ns (R88). -/
theorem readIntegrate_skip (hz : allZero (stepRec s x).inFmt (x.x.take 64) = true) :
    ∃ t, exec (.readIntegrate k) s = .next t ∧ (engAt t k).freeAt = s.belv.tb + 16 ∧
      (engAt t k).flights = (engAt s k).flights ∧
      rget64 t (pgCstat (k / 512)) 0x50 = (rget64 s (pgCstat (k / 512)) 0x50 + 1) % 2 ^ 64 := by
  have hstep : tget none (opened s (engAt s k) x).steps (engAt s k).nextId = some (⟨x, 1, []⟩ : StepRun) := by
    rw [opened_steps, tget_tset_self]
  obtain ⟨hfree, hfl, hc⟩ := skipPart_last (s := putEng s k (opened s (engAt s k) x)) (p := wholePart s x (engAt s k).nextId)
    (by rw [engAt_putEng_self]; exact hstep) (Nat.le_refl 1) ((engAt s k).nextId + 1)
  refine ⟨_, exec_readIntegrate s k, ?_⟩
  rw [readIntegrateOp_staged hx hp hw hu, if_pos hz, (beside_settle _).engAt, (beside_settle _).cstat64 _ (by omega) (by omega),
    hfree, hfl, hc, engAt_putEng_self, rget64_putEng]
  exact ⟨rfl, rfl, rfl⟩

section

variable (hz : allZero (stepRec s x).inFmt (x.x.take 64) = false)

include hz

/-- The plate is changed in 192 ns (R71). -/
theorem readIntegrate_change (hs : Settled s) (hsel : (engAt s k).sel ≠ x.plate) : exec (.readIntegrate k) s =
    .next (count (putEng s k { engAt s k with sel := x.plate, freeAt := s.belv.tb + 192 }) (pgCstat (k / 512)) 0x64 1) := by
  rw [exec_readIntegrate, readIntegrateOp_staged hx hp hw hu, if_neg (by simp [hz]), if_pos hsel, settle_of_nil (by simpa using hs)]

/-- The first read of the step begins (R69, R75, R106, R372). -/
theorem readIntegrate_begin (hsel : (engAt s k).sel = x.plate) (hg : granted s k = true) :
    ∃ t, ∃ f : Flight, exec (.readIntegrate k) s = .next t ∧ (engAt t k).flights = (engAt s k).flights ++ [f] ∧
      f.start = (s.belv.tb : Int) ∧ f.refs = none ∧
      f.charge = charges s (k * 512 + x.plate) (((x.x.take 64).zipIdx).map fun y => (y.2, driven (stepRec s x).inFmt y.1)) ∧
      f.remap = (plateAt s (k * 512 + x.plate)).remap ∧ f.lim = rfld s (pgCal0 (k / 8192)) 0x44 15 8 ∧
      f.tol = rfld s (pgCal0 (k / 8192)) 0x44 3 0 ∧ (f.offs = (engAt s k).coef.map fun c => c.off) ∧
      (f.gains = (engAt s k).coef.map fun c => c.gain) ∧ (engAt t k).freeAt = s.belv.tb + 128 ∧ (engAt t k).staged = l ∧
      rget64 t (pgCstat (k / 512)) 0x48 = (rget64 s (pgCstat (k / 512)) 0x48 + 1) % 2 ^ 64 := by
  obtain ⟨f, q, he, hstart, hrefs, hcharge, hremap, hlim, htol, hoffs, hgains, hcount⟩ :=
    beginRead_flight (putEng s k (opened s (engAt s k) x)) k ((engAt s k).nextId + 1) (wholePart s x (engAt s k).nextId) x
  rw [engAt_putEng_self] at he hoffs hgains
  have hrows : partDriven (stepRec s x).inFmt x.x (wholePart s x (engAt s k).nextId) =
      ((x.x.take 64).zipIdx).map fun y => (y.2, driven (stepRec s x).inFmt y.1) := by
    simp [partDriven, partRows, wholePart]
  refine ⟨_, f, exec_readIntegrate s k, ?_, hstart, hrefs,
    hcharge.trans (congrArg (charges s (k * 512 + x.plate)) hrows), hremap, hlim, htol, hoffs, hgains, ?_⟩
  all_goals
    rw [readIntegrateOp_staged hx hp hw hu, if_neg (by simp [hz]), if_neg (not_not.mpr hsel), if_pos hg,
      (beside_settle _).engAt, he]
  · rfl
  · rw [(beside_settle _).cstat64 _ (by omega) (by omega), hcount, rget64_putEng]
    exact ⟨rfl, congrArg List.tail hx, rfl⟩

/-- The engine waits for the budget (R373). -/
theorem readIntegrate_wait (hs : Settled s) (hsel : (engAt s k).sel = x.plate) (hg : granted s k = false) :
    exec (.readIntegrate k) s = .next (noteWait s (k / 8192)) := by
  rw [exec_readIntegrate, readIntegrateOp_staged hx hp hw hu, if_neg (by simp [hz]), if_neg (not_not.mpr hsel),
    if_neg (by simp [hg]), settle_of_nil ((noteWait_evq ..).trans hs)]

end

end

/-! ### The decisions on the oldest read -/

theorem exec_confidenceDecision (s : State) (k : Nat) (errs : List Int) :
    exec (.confidenceDecision k errs) s = .next (settle (confidenceOp s k errs)) := rfl

theorem exec_saturationDecision (s : State) (k : Nat) (errs : List Int) :
    exec (.saturationDecision k errs) s = .next (settle (saturationOp s k errs)) := rfl

/-- The read is taken before anything else is done of the part. -/
theorem engAt_taken {s : State} {k : Nat} {l : List Flight} {u : State}
    (hu : Beside (putEng s k { engAt s k with flights := l }) u) :
    engAt u k = { engAt s k with flights := l } := by
  rw [hu.engAt, engAt_putEng_self]

section

variable {s : State} {k : Nat} {f : Flight} {l : List Flight} {p : PartSt} {r : StepRun} (hf : (engAt s k).flights = f :: l)
  (hp : tget none (engAt s k).parts f.part = some p) (hr : tget none (engAt s k).steps p.step = some r)

include hf hp hr

/-- The check is decided by R75 where E is in range. -/
theorem confidenceDecision_inRange (errs : List Int) (hn : f.refs = none) (ht : f.start + 145 ≤ s.belv.tb)
    (hin : refInRange p.range (expectedRef (stepRec s r.step).inFmt (partRows r.step.x p)) = true) :
    let refs := refCodes p.range f.charge errs
    let bad := (failGroups f.tol p.range (expectedRef (stepRec s r.step).inFmt (partRows r.step.x p))
      [(refs, f.offs, f.gains)]).any id
    ∃ t, exec (.confidenceDecision k errs) s = .next t ∧
      (engAt t k).flights = { f with refs := some refs, failed := bad } :: l ∧
      (rget t (pgCstat (k / 512)) 0x58).toNat = (if bad then min ((rget s (pgCstat (k / 512)) 0x58).toNat + 1) 0xFFFFFFFF
        else (rget s (pgCstat (k / 512)) 0x58).toNat) := by
  intro refs bad
  have hop := confidenceOp_head hf hp hr hn ht errs
  rw [if_pos hin] at hop
  obtain ⟨u, hu⟩ : ∃ u, u = (if bad then count (putEng s k { engAt s k with
      flights := { f with refs := some refs, failed := true } :: l }) (pgCstat (k / 512)) 0x58 1
    else putEng s k { engAt s k with flights := { f with refs := some refs, failed := false } :: l }) := ⟨_, rfl⟩
  have hchecked : Checked k u (confidenceOp s k errs) := by
    rw [hop, hu]
    exact .ite (checked_countChecks ..) (.refl ..)
  refine ⟨_, exec_confidenceDecision s k errs, ?_⟩
  rw [(beside_settle _).engAt, (beside_settle _).cstat _ (by omega) (by omega), hchecked.flights,
    hchecked.cstat _ _ (by omega), hu]
  cases bad with
  | false => exact ⟨congrArg Engine.flights (engAt_putEng_self ..), rfl⟩
  | true =>
    rw [if_pos rfl, if_pos rfl, engAt_count, engAt_putEng_self, rget_count_self]
    exact ⟨rfl, rfl⟩

/-- The check is counted as not made where E is out of range. -/
theorem confidenceDecision_outOfRange (hs : Settled s) (errs : List Int) (hn : f.refs = none) (ht : f.start + 145 ≤ s.belv.tb)
    (hout : refInRange p.range (expectedRef (stepRec s r.step).inFmt (partRows r.step.x p)) = false) :
    exec (.confidenceDecision k errs) s = .next (count (putEng s k { engAt s k with
      flights := { f with refs := some (refCodes p.range f.charge errs), failed := false } :: l }) (pgCstat (k / 512)) 0x5C 1) := by
  have hop := confidenceOp_head hf hp hr hn ht errs
  rw [if_neg (by simp [hout])] at hop
  rw [exec_confidenceDecision, hop, settle_of_nil (by simpa using hs)]

section

variable (refs : List Meas) (errs : List Int) (hn : f.refs = some refs) (ht : f.start + 256 ≤ s.belv.tb)

include hn ht

/-- A saturated part is replaced by its two halves (R82, R83, R86). -/
theorem saturationDecision_split (h1 : f.first = true)
    (h2 : ((dataCodes p.range f.remap f.charge errs).any fun c => c.sat) = true) (hpol : (stepRec s r.step).satPol = 0)
    (hd : p.depth < 2) : ∃ t, exec (.saturationDecision k errs) s = .next t ∧ (engAt t k).flights = l ∧
      (∀ h, h = 0 ∨ h = 1 → tget none (engAt t k).parts ((engAt s k).nextId + h) =
        some { p with lo := p.lo + h * (p.cnt / 2), cnt := p.cnt / 2, depth := p.depth + 1, reads := [] }) ∧
      (engAt t k).pend = ((engAt s k).pend.filter fun y => y.1 != f.part) ++
        [((engAt s k).nextId, s.belv.tb + 2), ((engAt s k).nextId + 1, s.belv.tb + 2)] ∧
      (rget t (pgCstat (k / 512)) 0x68).toNat = min ((rget s (pgCstat (k / 512)) 0x68).toNat + 1) 0xFFFFFFFF := by
  obtain ⟨u, hu, hop⟩ := saturationOp_split hf hp hr hn ht errs h1 h2 hpol hd
  obtain ⟨st, he⟩ := replacePart_two (count u (pgCstat (k / 512)) 0x68 1) k f.part
    { p with reads := p.reads ++ [⟨dataCodes p.range f.remap f.charge errs, refs, f.offs, f.gains⟩] }
    { p with lo := p.lo, cnt := p.cnt / 2, depth := p.depth + 1, reads := [] }
    { p with lo := p.lo + p.cnt / 2, cnt := p.cnt / 2, depth := p.depth + 1, reads := [] }
  rw [engAt_count, engAt_taken hu, count_belv, hu.belv] at he
  refine ⟨_, exec_saturationDecision s k errs, ?_⟩
  rw [hop, (beside_settle _).engAt, (beside_settle _).cstat _ (by omega) (by omega), he, rget_replacePart, rget_count_self,
    hu.cstat _ (by omega) (by omega)]
  refine ⟨rfl, ?_, rfl, rfl⟩
  rintro h (rfl | rfl)
  · dsimp only
    rw [tget_tset_other _ _ _ _ (by omega)]
    simp only [Nat.zero_mul, Nat.add_zero, tget_tset_self]
  · dsimp only
    rw [tget_tset_self, Nat.one_mul]

/-- The further reads of a part are placed 2 ns later (R76, R86). -/
theorem saturationDecision_further (h1 : f.first = true)
    (h2 : ((dataCodes p.range f.remap f.charge errs).any fun c => c.sat) = false)
    (hmore : furtherReads (stepClass s r.step) f.failed ≠ 0) :
    ∃ t, exec (.saturationDecision k errs) s = .next t ∧ (engAt t k).flights = l ∧
      tget none (engAt t k).parts f.part = some { p with
        reads := p.reads ++ [⟨dataCodes p.range f.remap f.charge errs, refs, f.offs, f.gains⟩]
        want := 1 + furtherReads (stepClass s r.step) f.failed } ∧
      (engAt t k).pend = (engAt s k).pend ++
        List.replicate (furtherReads (stepClass s r.step) f.failed) (f.part, s.belv.tb + 2) := by
  obtain ⟨u, hu, hop⟩ := saturationOp_further hf hp hr hn ht errs h1 h2 hmore
  refine ⟨_, exec_saturationDecision s k errs, ?_⟩
  rw [hop, (beside_settle _).engAt, engAt_modEng_self, engAt_modEng_self, engAt_taken hu, hu.belv]
  dsimp only
  rw [tget_tset_self]
  exact ⟨rfl, rfl, rfl⟩

/-- The last further read of a part completes its contribution to a step that has others left (R79, R170). -/
theorem saturationDecision_finish (h1 : f.first = false) (hw : p.reads.length + 1 = p.want) (hl : 1 < r.left) :
    let reads := p.reads ++ [⟨dataCodes p.range f.remap f.charge errs, refs, f.offs, f.gains⟩]
    ∃ t r', exec (.saturationDecision k errs) s = .next t ∧ (engAt t k).flights = l ∧
      tget none (engAt t k).steps p.step = some r' ∧ r'.left = r.left - 1 ∧
      r'.done = tins r.done p.lo ((List.range 64).map fun o => contribution p.range reads o,
        (List.range 64).map fun o => reads.any fun z => (z.codes.getD o ⟨0, false⟩).sat) := by
  intro reads
  obtain ⟨u, hu, hop⟩ := saturationOp_finish hf hp hr hn ht errs h1 hw
  have hstep : tget none (engAt u k).steps p.step = some r := by rw [engAt_taken hu]; exact hr
  have he := finishPart_left (p := { p with reads := reads }) hstep hl f.part f.tol
  rw [← hop, engAt_taken hu, ← (beside_settle _).engAt] at he
  obtain ⟨r', hr', hleft⟩ : ∃ r', tget none (engAt (settle (saturationOp s k errs)) k).steps p.step = some r' ∧
      r'.left = r.left - 1 ∧ r'.done = tins r.done p.lo ((List.range 64).map fun o => contribution p.range reads o,
        (List.range 64).map fun o => reads.any fun z => (z.codes.getD o ⟨0, false⟩).sat) := by
    rw [he]
    dsimp only
    rw [tget_tset_self]
    exact ⟨_, rfl, rfl, rfl⟩
  exact ⟨_, r', exec_saturationDecision s k errs, congrArg Engine.flights he, hr', hleft⟩

end

end

/-- Settles O50, from the cases of each command. -/
theorem engineReads : Obligations.EngineReads := fun _ _ hs _ =>
  ⟨fun _ _ hx hp hw hu => ⟨readIntegrate_skip hx hp hw hu, fun hz => readIntegrate_change hx hp hw hu hz hs,
      readIntegrate_begin hx hp hw hu, fun hz => readIntegrate_wait hx hp hw hu hz hs⟩,
    fun _ _ _ _ hf hp hr =>
      ⟨fun errs hn ht =>
        ⟨confidenceDecision_inRange hf hp hr errs hn ht, confidenceDecision_outOfRange hf hp hr hs errs hn ht⟩,
      fun refs errs hn ht =>
        ⟨saturationDecision_split hf hp hr refs errs hn ht, saturationDecision_further hf hp hr refs errs hn ht,
          fun h1 hw => saturationDecision_finish hf hp hr refs errs hn ht h1 (by simpa using hw)⟩⟩⟩

end Sys2Proof.Laws
end

section
/-! Calibrations (R100 to R114): the end of one, the CALIBRATE requests that wait for it, the periodic save, and the microsecond of
a die's governor (R372, R373). -/

namespace Sys2Proof.Laws

open Sys2Proof Sys2Proof.Machine

/-! ### The stale state -/

/-- The engine takes its stale state, with an event where it becomes stale (R113). -/
theorem judgeStale_eq (s : State) (k : Nat) : ∃ b, judgeStale s k =
    if b && !(engAt s k).stale then ev (putEng s k { engAt s k with stale := b }) (pgCal0 (engDie k)) 0 (k % 8192)
    else putEng s k { engAt s k with stale := b } := ⟨_, rfl⟩

/-! Judging the stale state leaves the registers, the requests and the plates. -/

@[simp] theorem judgeStale_regs (s : State) (k : Nat) : (judgeStale s k).regs = s.regs := by
  obtain ⟨b, h⟩ := judgeStale_eq s k
  rw [h]
  split <;> simp

@[simp] theorem judgeStale_reqs (s : State) (k : Nat) : (judgeStale s k).reqs = s.reqs := by
  obtain ⟨b, h⟩ := judgeStale_eq s k
  rw [h]
  split <;> simp

@[simp] theorem judgeStale_plates (s : State) (k : Nat) : (judgeStale s k).plates = s.plates := by
  obtain ⟨b, h⟩ := judgeStale_eq s k
  rw [h]
  split <;> simp

theorem engAt_judgeStale (s : State) (k : Nat) : ∃ b, engAt (judgeStale s k) k = { engAt s k with stale := b } := by
  obtain ⟨b, h⟩ := judgeStale_eq s k
  refine ⟨b, ?_⟩
  rw [h]
  split
  · rw [engAt_ev, engAt_putEng_self]
  · rw [engAt_putEng_self]

theorem engAt_judgeStale_other (s : State) {k j : Nat} (h : k ≠ j) : engAt (judgeStale s k) j = engAt s j := by
  obtain ⟨b, hb⟩ := judgeStale_eq s k
  rw [hb]
  split
  · rw [engAt_ev, engAt_putEng_other s _ h]
  · rw [engAt_putEng_other s _ h]

/-! ### Engines that become due -/

theorem calPlateOf_congr {s t : State} (h : t.plates = s.plates) (k : Nat) : calPlateOf t k = calPlateOf s k := by
  simp only [calPlateOf, h]

theorem markDue_reqs (s : State) (k : Nat) (c : Cause) : (markDue s k c).reqs = s.reqs := by
  unfold markDue
  dsimp only
  (repeat' split) <;> simp

theorem markDue_plates (s : State) (k : Nat) (c : Cause) : (markDue s k c).plates = s.plates := by
  unfold markDue
  dsimp only
  (repeat' split) <;> simp

/-- An engine with a calibration plate is due from then on (R105, R108). -/
theorem markDue_due {s : State} {k : Nat} (h : (calPlateOf s k).isSome = true) (c : Cause) :
    (engAt (markDue s k c) k).due = true := by
  have hn : ¬ (calPlateOf s k).isNone = true := by simpa [Option.isSome_iff_ne_none] using h
  unfold markDue
  dsimp only
  rw [if_neg hn]
  split
  · next hd => split <;> simp [hd]
  · obtain ⟨b, hb⟩ := engAt_judgeStale (putEng s k { engAt s k with due := true, cause := c, dueAt := s.belv.tb }) k
    rw [hb, engAt_putEng_self]

/-- No other engine changes. -/
theorem engAt_markDue_other (s : State) {k j : Nat} (h : k ≠ j) (c : Cause) : engAt (markDue s k c) j = engAt s j := by
  unfold markDue
  dsimp only
  split
  · rfl
  · split
    · split
      · exact engAt_putEng_other s _ h
      · rfl
    · rw [engAt_judgeStale_other _ h, engAt_putEng_other s _ h]

/-- All of a list of engines with calibration plates are due once each has been marked. -/
theorem foldl_markDue_due {s : State} {l : List Nat} {k : Nat} (hk : k ∈ l) (h : (calPlateOf s k).isSome = true) (c : Cause) :
    (engAt (l.foldl (fun s k => markDue s k c) s) k).due = true :=
  foldl_reaches (I := fun u => u.plates = s.plates) (Q := fun u => (engAt u k).due = true)
    (fun u j hu => (markDue_plates u j c).trans hu) (fun u hu => markDue_due ((calPlateOf_congr hu k).symm ▸ h) c)
    (fun u j hj _ hu => by rw [engAt_markDue_other u hj]; exact hu) hk rfl

theorem foldl_markDue_reqs (s : State) (l : List Nat) (c : Cause) : (l.foldl (fun s k => markDue s k c) s).reqs = s.reqs :=
  List.foldlRecOn (motive := fun u => u.reqs = s.reqs) l _ rfl fun u hu k _ => (markDue_reqs u k c).trans hu

/-! ### CALIBRATE -/

theorem takeReq_some {s : State} {id opc : Nat} {q : Req} (h : takeReq s id opc = some q) :
    reqAt s id = some q ∧ q.desc.opc.toNat = opc := by
  unfold takeReq at h
  split at h
  · next r hr =>
    split at h
    · next hp => exact Option.some.inj h ▸ ⟨hr, hp.2⟩
    · cases h
  · cases h

theorem reqAt_modReq {s : State} {id : Nat} {q : Req} (h : reqAt s id = some q) (f : Req → Req) :
    reqAt (modReq s id f) id = some (f q) := by
  unfold modReq
  rw [h]
  dsimp only
  rw [reqAt, putReq, tget_tset_self]

theorem beside_calibrateDone (s : State) (id : Nat) : Beside s (calibrateDone s id) := by
  unfold calibrateDone
  split
  · exact .ite (beside_finishReq ..) (.refl s)
  · exact .refl s

/-- A running CALIBRATE completes where it waits for no engine. -/
theorem reqAt_calibrateDone {s : State} {id : Nat} {q : Req} (h : reqAt s id = some q) (ho : q.desc.opc = 0x20)
    (hp : q.phase = .running) : ∃ r, reqAt (calibrateDone s id) id = some r ∧ r.waitFor = q.waitFor ∧
      r.phase = if q.waitFor = [] then .finished else .running := by
  unfold calibrateDone
  rw [h]
  dsimp only
  by_cases hw : q.waitFor = []
  · rw [if_pos ⟨ho, hp, hw⟩, if_pos hw]
    refine ⟨_, reqAt_modReq h _, ?_⟩
    simp [hp]
  · rw [if_neg (by simp [hw]), if_neg hw]
    exact ⟨q, h, rfl, hp⟩

/-- CALIBRATE marks the engines it names, and waits for exactly those (R114). -/
theorem calibrate_marks {s : State} {id : Nat} {q : Req} (ha : asleep s = false) (hq : takeReq s id 0x20 = some q) :
    let l := ((bitsOf (BitVec.ofNat 16 (fld q.desc.param 15 0))).filter fun d => (dieAt s d).online).flatMap fun d =>
      (liveEngines s d).filter fun k => (fld q.desc.param 31 16).testBit (k / 512 % 16) && (calPlateOf s k).isSome
    ∃ t r, exec (.calibrate id) s = .next t ∧ reqAt t id = some r ∧ r.waitFor = l ∧
      r.phase = (if l = [] then .finished else .running) ∧ ∀ k, k ∈ l → (engAt t k).due = true := by
  intro l
  obtain ⟨hr, ho⟩ := takeReq_some hq
  obtain ⟨m, hm⟩ : ∃ m, m = modReq s id fun q => { q with phase := .running, ran := true, waitFor := l } := ⟨_, rfl⟩
  have hmark : reqAt (l.foldl (fun s k => markDue s k .host) m) id = some { q with
      phase := .running, ran := true, waitFor := l } := by
    rw [reqAt, foldl_markDue_reqs, ← reqAt, hm, reqAt_modReq hr]
  have hplates : m.plates = s.plates := by
    rw [hm, modReq, hr]
    rfl
  have hop : calibrateOp s id = calibrateDone (l.foldl (fun s k => markDue s k .host) m) id := by
    unfold calibrateOp
    rw [ha, hm, if_neg Bool.false_ne_true, hq]
    rfl
  obtain ⟨r, hdone, hwait, hphase⟩ := reqAt_calibrateDone hmark (BitVec.eq_of_toNat_eq ho) rfl
  refine ⟨_, r, rfl, ?_, hwait, hphase, fun k hk => ?_⟩
  · rw [reqAt, settle_reqs, hop]
    exact hdone
  · rw [(beside_settle _).engAt, hop, (beside_calibrateDone ..).engAt]
    refine foldl_markDue_due hk ?_ .host
    obtain ⟨d, -, hk⟩ := List.mem_flatMap.mp hk
    have hplate := (Bool.and_eq_true_iff.mp (List.mem_filter.mp hk).2).2
    rw [calPlateOf_congr hplates]
    exact hplate

/-! ### The periodic save -/

/-- A live engine of a die is of that die. -/
theorem mem_liveEngines {s : State} {d k : Nat} (h : k ∈ liveEngines s d) : k / 8192 = d := by
  unfold liveEngines at h
  rw [List.mem_insertionSort, List.mem_dedup, List.mem_append] at h
  rcases h with h | h
  · obtain ⟨e, he, rfl⟩ := List.mem_map.mp h
    exact eq_of_beq (List.mem_filter.mp he).2
  · exact eq_of_beq (List.mem_filter.mp h).2

/-- What a key reads after a list of keys has been set, each to a value of its own. -/
theorem tget_foldl_tset {α : Type} [DecidableEq α] (d : α) (f : Nat → α) (l : List Nat) (t : Tab α) (k : Nat) :
    tget d (l.foldl (fun t k => tset d t k (f k)) t) k = if k ∈ l then f k else tget d t k := by
  induction l generalizing t with
  | nil => rfl
  | cons j l ih =>
    rw [List.foldl_cons, ih]
    by_cases hl : k ∈ l
    · rw [if_pos hl, if_pos (List.mem_cons_of_mem j hl)]
    · by_cases hj : k = j
      · rw [if_neg hl, if_pos (by simp [hj]), hj, tget_tset_self]
      · rw [if_neg hl, if_neg (by simp [hl, hj]), tget_tset_other d d t _ (Ne.symm hj)]

/-- The engines of a die, and of no other, are saved (R112). -/
theorem calCoefSave_saves {s : State} {d : Nat} (hu : (dieAt s d).up = true)
    (ht : (dieAt s d).savedAt + 600000000000 ≤ s.belv.tb) :
    ∃ t, exec (.calCoefSave d) s = .next t ∧ (dieAt t d).savedAt = s.belv.tb ∧
      (∀ k, k ∈ liveEngines s d → tget Saved.zero t.slc k = (engAt s k).saved) ∧
      (∀ k, k / 8192 ≠ d → tget Saved.zero t.slc k = tget Saved.zero s.slc k) := by
  have hop : calCoefSaveOp s d = saveCoefs s d := if_pos ⟨hu, ht⟩
  have hslc : (settle (saveCoefs s d)).slc = saveAll s d s.slc := settle_slc _
  refine ⟨settle (saveCoefs s d), congrArg done hop, ?_, fun k hk => ?_, fun k hk => ?_⟩
  · rw [(beside_settle _).dieAt, saveCoefs, dieAt_putDie_self]
  · rw [hslc, saveAll, tget_foldl_tset, if_pos hk]
  · rw [hslc, saveAll, tget_foldl_tset, if_neg fun h => hk (mem_liveEngines h)]

/-! ### What a calibration measures -/

theorem charges_congr {s t : State} (hw : t.weights = s.weights) (hp : t.plates = s.plates) (key : Nat) (xs : List (Nat × Int)) :
    charges t key xs = charges s key xs := by
  have hwt : weightAt t = weightAt s := by
    funext key r o
    rw [weightAt, hw, weightAt]
  have hpt : plateAt t key = plateAt s key := by rw [plateAt, hp, plateAt]
  rw [charges, charges, hwt, hpt]

/-- The results are of the plate that the calibration began on, as it stands (R100, R101). -/
theorem calResults_congr {s t : State} {k : Nat} (hw : t.weights = s.weights) (hp : t.plates = s.plates)
    (he : (engAt t k).calPlate = (engAt s k).calPlate) (g : List CalMeas) : calResults t k g = calResults s k g := by
  simp only [calResults, he, charges_congr hw hp, plateAt, hp]

@[simp] theorem calResults_length (s : State) (k : Nat) (g : List CalMeas) : (calResults s k g).length = 8 := by
  simp [calResults]

/-- The reads of a calibration are counted for the die, and beside that count the engine alone changes, in its own (R372, R385). -/
theorem chargeCal_begun {s : State} {k last : Nat} (h : (engAt s k).calEnd = some last) :
    ∃ n, engAt (chargeCal s k) k = { engAt s k with calSlots := n } ∧ (chargeCal s k).belv = s.belv ∧
      (∀ d, dieAt (chargeCal s k) d = dieAt s d) ∧ (∀ g, calResults (chargeCal s k) k g = calResults s k g) ∧
      (chargeCal s k).reqs = s.reqs ∧ ∀ d o, o < 4096 → rget (chargeCal s k) (pgCal0 d) o = rget s (pgCal0 d) o := by
  obtain ⟨n, m, hch⟩ : ∃ n m, chargeCal s k =
      count64 (putEng s k { engAt s k with calSlots := n }) (pgDie (engDie k)) 0x44 m := by
    unfold chargeCal
    dsimp only
    rw [h]
    exact ⟨_, _, rfl⟩
  have heng : engAt (chargeCal s k) k = { engAt s k with calSlots := n } := by rw [hch, engAt_count64, engAt_putEng_self]
  refine ⟨n, heng, by rw [hch, count64_belv, putEng_belv], fun d => by rw [hch, dieAt_count64, dieAt_putEng], fun g => ?_,
    by rw [hch, count64_reqs, putEng_reqs], fun d o ho => ?_⟩
  · exact calResults_congr (by rw [hch, count64_weights, putEng_weights]) (by rw [hch, count64_plates, putEng_plates])
      (by rw [heng]) g
  · rw [hch, rget_count64_page _ m (pgCal0_ne_pgDie d _) (by omega) ho, rget_putEng]

/-! ### Requests that wait for an engine -/

/-- A CALIBRATE still waits for engine k. -/
def Awaited (s : State) (k : Nat) : Prop := ∃ r q, (r, some q) ∈ s.reqs ∧ q.desc.opc = 0x20 ∧ k ∈ q.waitFor

theorem mem_of_tget {α : Type} {d v : α} {t : Tab α} {k : Nat} (h : tget d t k = v) (hv : v ≠ d) : (k, v) ∈ t := by
  induction t with
  | nil => exact absurd h.symm hv
  | cons e t ih =>
    obtain ⟨j, w⟩ := e
    unfold tget at h
    split at h
    · next hj => simp [← hj, ← h]
    · exact List.mem_cons_of_mem _ (ih h)

theorem mem_tset {α : Type} [DecidableEq α] {d v : α} {t : Tab α} {k : Nat} {e : Nat × α} (h : e ∈ tset d t k v) :
    e = (k, v) ∨ e ∈ t := by
  unfold tset at h
  split at h
  · exact .inr (mem_tdel.mp h).1
  · exact (mem_tins.mp h).imp_right fun h => (mem_tdel.mp h).1

/-- Completing a CALIBRATE makes none wait. -/
theorem awaited_of_calibrateDone {s : State} {id k : Nat} (h : Awaited (calibrateDone s id) k) : Awaited s k := by
  unfold calibrateDone at h
  split at h
  · next q hq =>
    split at h
    · obtain ⟨r, p, hm, ho, hw⟩ := h
      rw [finishReq, modReq, hq] at hm
      dsimp only [putReq] at hm
      rcases mem_tset hm with he | hm
      · obtain ⟨-, hp⟩ := Prod.mk.inj he
        have hp := Option.some.inj hp
        have hkept : p.desc = q.desc ∧ p.waitFor = q.waitFor := by
          rw [hp]
          split <;> exact ⟨rfl, rfl⟩
        exact ⟨id, q, mem_of_tget hq (by simp), hkept.1 ▸ ho, hkept.2 ▸ hw⟩
      · exact ⟨r, p, hm, ho, hw⟩
    · exact h
  · exact h

/-- Once a calibration that began after every CALIBRATE for the engine has served them, none waits for it (R114). -/
theorem not_awaited_serveCalibrate {s : State} {k from_ : Nat}
    (h : ∀ r q, r ∈ s.reqs → r.2 = some q → q.desc.opc = 0x20 → k ∈ q.waitFor → q.at_ ≤ from_) :
    ¬ Awaited (serveCalibrate s k from_) k := by
  unfold serveCalibrate
  refine List.foldlRecOn (motive := fun u => ¬ Awaited u k) _ _ ?_ fun u hu id _ hn => hu (awaited_of_calibrateDone hn)
  rintro ⟨r, p, hm, ho, hw⟩
  obtain ⟨e, he, hp⟩ := List.mem_map.mp (List.mem_of_mem_filter hm)
  obtain ⟨q, hq, rfl⟩ := Option.map_eq_some_iff.mp (Prod.mk.inj hp).2
  have hopc : q.desc.opc = 0x20 := by
    split at ho <;> exact ho
  have hwait : k ∈ q.waitFor := by
    split at hw
    · exact (List.mem_filter.mp hw).1
    · exact hw
  rw [if_pos (by simp [hopc, h e q he hq hopc hwait])] at hw
  exact absurd rfl (bne_iff_ne.mp (List.mem_filter.mp hw).2)

theorem beside_serveCalibrate (s : State) (k from_ : Nat) : Beside s (serveCalibrate s k from_) :=
  (Beside.update rfl rfl rfl rfl : Beside s (mapReqs s _)).trans (.foldl beside_calibrateDone ..)

/-- An engine that no CALIBRATE waits for stays as it is. -/
theorem dueAgain_of_not_awaited {s : State} {k : Nat} (h : ¬ Awaited s k) : dueAgain s k = s := by
  have hnone : (s.reqs.filterMap fun r => r.2.bind fun q =>
      if q.desc.opc == 0x20 && q.phase == .running && q.waitFor.contains k then some q.at_ else none) = [] := by
    rw [List.filterMap_eq_nil_iff]
    rintro ⟨r, p⟩ hr
    cases p with
    | none => rfl
    | some q =>
      refine if_neg fun hq => h ⟨r, q, hr, ?_⟩
      simp only [Bool.and_eq_true, beq_iff_eq, List.contains_iff_mem] at hq
      exact ⟨hq.1.1, hq.2⟩
  unfold dueAgain
  rw [hnone]
  rfl

/-- What a CALIBRATE that still waits can change of an engine: whether, why and since when it is due, and whether it is stale. -/
theorem engAt_dueAgain (s : State) (k : Nat) :
    ∃ a b c d, engAt (dueAgain s k) k = { engAt s k with due := a, cause := b, dueAt := c, stale := d } := by
  unfold dueAgain
  dsimp only
  split
  · next t _ =>
    obtain ⟨b, hb⟩ := engAt_judgeStale (modEng s k fun e => { e with due := true, cause := .host, dueAt := t }) k
    rw [engAt_modEng_self] at hb
    exact ⟨_, _, _, _, hb⟩
  · exact ⟨_, _, _, _, rfl⟩

theorem rget_dueAgain (s : State) (k p o : Nat) : rget (dueAgain s k) p o = rget s p o := by
  refine rget_of_regs ?_ p o
  unfold dueAgain
  dsimp only
  split
  · rw [judgeStale_regs]
    rfl
  · rfl

/-! ### The end of a calibration -/

/-- The groups' coefficients with the marks of the confidence cause set (R109). -/
def cures (e : Engine) (v : Bool) (l : List Coef) : List Coef :=
  if e.cause = Cause.confidence then
    (l.zipIdx).map fun c => if e.confGrp.contains c.2 then { c.1 with cured := v } else c.1
  else l

/-- The marks are all that changes of a group. -/
theorem getD_cures (e : Engine) (v : Bool) (l : List Coef) (j : Nat) :
    ∃ b, (cures e v l).getD j Coef.zero = { l.getD j Coef.zero with cured := b } := by
  unfold cures
  split
  · simp only [List.getD_eq_getElem?_getD, List.getElem?_map, List.getElem?_zipIdx]
    cases l[j]? with
    | none => exact ⟨_, rfl⟩
    | some c =>
      simp only [Option.map_some, Option.getD_some]
      split <;> exact ⟨_, rfl⟩
  · exact ⟨_, rfl⟩

/-- The groups' coefficients with a calibration's results in force (R101). -/
def resulted (e : Engine) (res : List (Int × Nat × Bool)) : List Coef :=
  (e.coef.zip res).map fun c => { c.1 with gainCal := c.2.2.1, gain := c.2.2.1, off := c.2.1, failed := 0, checked := 0 }

theorem getD_resulted {e : Engine} {res : List (Int × Nat × Bool)} {j : Nat} (he : j < e.coef.length) (hr : j < res.length) :
    let r := res.getD j (0, 0, false)
    let c := (resulted e res).getD j Coef.zero
    c.off = r.1 ∧ c.gainCal = r.2.1 ∧ c.gain = r.2.1 ∧ c.checked = 0 ∧ c.failed = 0 := by
  have hj : j < (resulted e res).length := by simp [resulted, he, hr]
  rw [List.getD_eq_getElem _ _ hr, List.getD_eq_getElem _ _ hj]
  simp [resulted]

/-- The engine with a calibration's results in force; `n` is how many of its reads have been counted. -/
def calibrated (s : State) (k n : Nat) (g : List CalMeas) : Engine :=
  { engAt s k with
    calSlots := n, calEnd := none, freeAt := s.belv.tb
    coef := cures (engAt s k) true (resulted (engAt s k) (calResults s k g))
    calTb := s.belv.tb, calFrom := s.belv.tb, calTemp := (dieAt s (k / 8192)).lastTemp, due := false
    stale := false, never := false, cause := .none, rejects := 0, confGrp := [] }

/-- The state with an accepted calibration counted and its CALIBRATE requests served. -/
def served (s : State) (k n : Nat) (g : List CalMeas) : State :=
  serveCalibrate (count (putEng (chargeCal s k) k (calibrated s k n g)) (pgCal0 (k / 8192)) 0x60 1) k (engAt s k).calBegin

/-- The engine with a calibration dropped; `v` says whether it has never been calibrated since its bring-up. -/
def uncalibrated (s : State) (k n : Nat) (v : Bool) : Engine :=
  { engAt s k with
    calSlots := n, calEnd := none, freeAt := s.belv.tb, rejects := min ((engAt s k).rejects + 1) 255, never := v
    coef := cures (engAt s k) false (engAt s k).coef }

section

variable {s : State} {k last : Nat} {g : List CalMeas} (hc : (engAt s k).calEnd = some last) (ht : last ≤ s.belv.tb)

include hc ht

/-- A calibration that is not accepted leaves the coefficients in force, and is counted (R102). -/
theorem engineCalEndOp_rejected (h : ¬ ((engAt s k).calDirty = false ∧ (dieAt s (k / 8192)).warn = 0 ∧
    ∀ r, r ∈ calResults s k g → r.2.2 = true)) :
    ∃ n v, engineCalEndOp s k g = judgeStale (ev (count (putEng (chargeCal s k) k (uncalibrated s k n v))
      (pgCal0 (k / 8192)) 0x68 1) (pgCal0 (k / 8192)) 1 (k % 8192)) k := by
  obtain ⟨n, heng, htb, hdie, hres, -⟩ := chargeCal_begun hc
  have hbad : ((engAt s k).calDirty || (dieAt s (k / 8192)).warn != 0 || (calResults s k g).any fun r => !r.2.2) = true := by
    by_contra hn
    simp only [Bool.not_eq_true, Bool.or_eq_false_iff, bne_eq_false_iff_eq, List.any_eq_false, Bool.not_eq_true',
      Bool.not_eq_false] at hn
    exact h ⟨hn.1.1, hn.1.2, hn.2⟩
  unfold engineCalEndOp
  dsimp only
  rw [hc]
  dsimp only
  rw [if_neg (not_lt.mpr ht)]
  simp only [heng, hres, engDie, hdie, htb]
  rw [if_pos hbad]
  exact ⟨n, _, rfl⟩

/-- A calibration that is accepted puts its results in force, and serves the CALIBRATE requests (R101, R102, R109, R114). -/
theorem engineCalEndOp_accepted (h : (engAt s k).calDirty = false ∧ (dieAt s (k / 8192)).warn = 0 ∧
    ∀ r, r ∈ calResults s k g → r.2.2 = true) :
    ∃ n, engineCalEndOp s k g = dueAgain (served s k n g) k := by
  obtain ⟨n, heng, htb, hdie, hres, -⟩ := chargeCal_begun hc
  obtain ⟨hdirty, hwarn, hall⟩ := h
  have hany : (calResults s k g).any (fun r => !r.2.2) = false := by simpa using hall
  unfold engineCalEndOp
  dsimp only
  rw [hc]
  dsimp only
  rw [if_neg (not_lt.mpr ht)]
  simp only [heng, hres, engDie, hdie, htb]
  rw [if_neg (by rw [hdirty, hwarn, hany]; decide)]
  exact ⟨n, rfl⟩

end

theorem engAt_served (s : State) (k n : Nat) (g : List CalMeas) : engAt (served s k n g) k = calibrated s k n g := by
  rw [served, (beside_serveCalibrate ..).engAt, engAt_count, engAt_putEng_self]

theorem beside_recordWindow (s : State) : Beside s (recordWindow s) := .ite (.update rfl rfl rfl rfl) (.refl s)

theorem exec_engineCalEnd (s : State) (k : Nat) (g : List CalMeas) :
    exec (.engineCalEnd k g) s = .next (settle (recordWindow (engineCalEndOp s k g))) := rfl

theorem beside_engineCalEnd (s : State) (k : Nat) (g : List CalMeas) :
    Beside (engineCalEndOp s k g) (settle (recordWindow (engineCalEndOp s k g))) :=
  (beside_recordWindow _).trans (beside_settle _)

/-- The groups' results are in force, whatever the marks. -/
theorem getD_calibrated {s : State} {k : Nat} (n : Nat) (g : List CalMeas) (hl : (engAt s k).coef.length = 8) {j : Nat}
    (hj : j < 8) :
    let r := (calResults s k g).getD j (0, 0, false)
    let c := (calibrated s k n g).coef.getD j Coef.zero
    c.off = r.1 ∧ c.gainCal = r.2.1 ∧ c.gain = r.2.1 ∧ c.checked = 0 ∧ c.failed = 0 := by
  obtain ⟨b, hb⟩ := getD_cures (engAt s k) true (resulted (engAt s k) (calResults s k g)) j
  have hcoef : (calibrated s k n g).coef = cures (engAt s k) true (resulted (engAt s k) (calResults s k g)) := rfl
  rw [hcoef, hb]
  exact getD_resulted (by omega) (by rw [calResults_length]; exact hj)

section

variable {s : State} {k last : Nat} (hc : (engAt s k).calEnd = some last)

include hc

/-- An accepted calibration is counted at 0x60. -/
theorem rget_served (n : Nat) (g : List CalMeas) : (rget (served s k n g) (pgCal0 (k / 8192)) 0x60).toNat =
    min ((rget s (pgCal0 (k / 8192)) 0x60).toNat + 1) 0xFFFFFFFF := by
  obtain ⟨-, -, -, -, -, -, hcal0⟩ := chargeCal_begun hc
  rw [served, (beside_serveCalibrate ..).cal0 _ (by omega) (by omega), rget_count_self, rget_putEng, hcal0 _ _ (by omega)]

/-- No CALIBRATE waits for the engine where all were dispatched before its calibration began. -/
theorem not_awaited_served (n : Nat) (g : List CalMeas)
    (h : ∀ r q, r ∈ s.reqs → r.2 = some q → q.desc.opc = 0x20 → k ∈ q.waitFor → q.at_ ≤ (engAt s k).calBegin) :
    ¬ Awaited (served s k n g) k := by
  obtain ⟨-, -, -, -, -, hreqs, -⟩ := chargeCal_begun hc
  refine not_awaited_serveCalibrate ?_
  rw [count_reqs, putEng_reqs, hreqs]
  exact h

variable (ht : last ≤ s.belv.tb)

include ht

/-- What an accepted calibration leaves of its engine (R101, R102, R109, R113). -/
theorem engineCalEnd_accepted {g : List CalMeas} (hl : (engAt s k).coef.length = 8)
    (h : (engAt s k).calDirty = false ∧ (dieAt s (k / 8192)).warn = 0 ∧ ∀ r, r ∈ calResults s k g → r.2.2 = true) :
    ∃ t, exec (.engineCalEnd k g) s = .next t ∧ (engAt t k).calEnd = none ∧ (engAt t k).calTb = s.belv.tb ∧
      (engAt t k).rejects = 0 ∧ (engAt t k).calTemp = (dieAt s (k / 8192)).lastTemp ∧ t.weights = s.weights ∧
      (∀ j, j < 8 → let r := (calResults s k g).getD j (0, 0, false)
        let c := (engAt t k).coef.getD j Coef.zero
        c.off = r.1 ∧ c.gainCal = r.2.1 ∧ c.gain = r.2.1 ∧ c.checked = 0 ∧ c.failed = 0) ∧
      (rget t (pgCal0 (k / 8192)) 0x60).toNat = min ((rget s (pgCal0 (k / 8192)) 0x60).toNat + 1) 0xFFFFFFFF ∧
      ((∀ r q, r ∈ s.reqs → r.2 = some q → q.desc.opc = 0x20 → k ∈ q.waitFor → q.at_ ≤ (engAt s k).calBegin) →
        (engAt t k).due = false ∧ (engAt t k).stale = false ∧ (engAt t k).never = false) := by
  obtain ⟨n, hop⟩ := engineCalEndOp_accepted hc ht h
  obtain ⟨a, b, c, d, he⟩ := engAt_dueAgain (served s k n g) k
  have hend := beside_engineCalEnd s k g
  have hheld : held (settle (recordWindow (engineCalEndOp s k g))) = held s := by
    rw [held_settle, held_recordWindow, held_engineCalEndOp]
  have hweights := congrArg Held.weights hheld
  have heng : engAt (settle (recordWindow (engineCalEndOp s k g))) k =
      { calibrated s k n g with due := a, cause := b, dueAt := c, stale := d } := by
    rw [hend.engAt, hop, he, engAt_served]
  refine ⟨_, exec_engineCalEnd s k g, ?_⟩
  have hcount : rget (settle (recordWindow (engineCalEndOp s k g))) (pgCal0 (k / 8192)) 0x60 =
      rget (served s k n g) (pgCal0 (k / 8192)) 0x60 := by
    rw [hend.cal0 _ (by omega) (by omega), hop, rget_dueAgain]
  rw [heng, hcount, rget_served hc]
  refine ⟨rfl, rfl, rfl, rfl, hweights, fun j hj => getD_calibrated n g hl hj, rfl, fun hall => ?_⟩
  have hquiet := dueAgain_of_not_awaited (not_awaited_served hc n g hall)
  rw [hquiet, engAt_served] at he
  rw [← he]
  exact ⟨rfl, rfl, rfl⟩

/-- What a calibration that is not accepted leaves of its engine (R102). -/
theorem engineCalEnd_rejected {g : List CalMeas} (h : ¬ ((engAt s k).calDirty = false ∧ (dieAt s (k / 8192)).warn = 0 ∧
    ∀ r, r ∈ calResults s k g → r.2.2 = true)) :
    ∃ t, exec (.engineCalEnd k g) s = .next t ∧ (engAt t k).calEnd = none ∧
      (engAt t k).rejects = min ((engAt s k).rejects + 1) 255 ∧ (engAt t k).due = (engAt s k).due ∧
      (engAt t k).calTb = (engAt s k).calTb ∧
      (∀ j, j < 8 → ((engAt t k).coef.getD j Coef.zero).gain = ((engAt s k).coef.getD j Coef.zero).gain ∧
        ((engAt t k).coef.getD j Coef.zero).gainCal = ((engAt s k).coef.getD j Coef.zero).gainCal ∧
        ((engAt t k).coef.getD j Coef.zero).off = ((engAt s k).coef.getD j Coef.zero).off) ∧
      (rget t (pgCal0 (k / 8192)) 0x68).toNat = min ((rget s (pgCal0 (k / 8192)) 0x68).toNat + 1) 0xFFFFFFFF := by
  obtain ⟨n, v, hop⟩ := engineCalEndOp_rejected hc ht h
  obtain ⟨-, -, -, -, -, -, hcal0⟩ := chargeCal_begun hc
  obtain ⟨b, he⟩ := engAt_judgeStale (ev (count (putEng (chargeCal s k) k (uncalibrated s k n v)) (pgCal0 (k / 8192)) 0x68 1)
    (pgCal0 (k / 8192)) 1 (k % 8192)) k
  have hend := beside_engineCalEnd s k g
  have heng : engAt (settle (recordWindow (engineCalEndOp s k g))) k = { uncalibrated s k n v with stale := b } := by
    rw [hend.engAt, hop, he, engAt_ev, engAt_count, engAt_putEng_self]
  have hcount : rget (settle (recordWindow (engineCalEndOp s k g))) (pgCal0 (k / 8192)) 0x68 =
      rget (count (putEng (chargeCal s k) k (uncalibrated s k n v)) (pgCal0 (k / 8192)) 0x68 1) (pgCal0 (k / 8192)) 0x68 := by
    rw [hend.cal0 _ (by omega) (by omega), hop]
    exact rget_of_regs (judgeStale_regs ..) ..
  refine ⟨_, exec_engineCalEnd s k g, ?_⟩
  rw [heng, hcount, rget_count_self, rget_putEng, hcal0 _ _ (by omega)]
  refine ⟨rfl, rfl, rfl, rfl, fun j _ => ?_, rfl⟩
  obtain ⟨m, hm⟩ := getD_cures (engAt s k) false (engAt s k).coef j
  have hcoef : (uncalibrated s k n v).coef = cures (engAt s k) false (engAt s k).coef := rfl
  dsimp only
  rw [hcoef, hm]
  exact ⟨rfl, rfl, rfl⟩

end

/-! ### The governor's microsecond -/

theorem govAt_govUs (us : Nat) (x : Die) : (x.govAt us).govUs = us := by
  unfold Die.govAt
  split
  · assumption
  · rfl

theorem govAt_st (us : Nat) (x : Die) : (x.govAt us).st = x.st := by
  unfold Die.govAt
  split <;> rfl

theorem govAt_used (us : Nat) (x : Die) : (x.govAt us).used = if x.govUs = us then x.used else 0 := by
  unfold Die.govAt
  split <;> rfl

theorem govAt_rotor (us : Nat) (x : Die) :
    (x.govAt us).rotor = if x.govUs = us then x.rotor else (x.rotor + (us - x.govUs)) % 8192 := by
  unfold Die.govAt
  split <;> rfl

/-- A governor that has begun a microsecond is as it is in it. -/
theorem govAt_of_begun {us : Nat} {x : Die} (h : x.govUs = us) : x.govAt us = x := if_pos h

/-- The governor of a die has begun the present microsecond. -/
structure Begun (d : Nat) (s : State) : Prop where
  govUs : (dieAt s d).govUs = s.belv.tb / 1000
  tickUs : (dieAt s d).tickUs = s.belv.tb / 1000

/-- From `s` to `t` the timebase stays, and of a die whose governor has begun the present microsecond no more changes than what it
has used and its mark of waiting; under `p` not even what it has used does. -/
structure Within (d : Nat) (p : Prop) (s t : State) : Prop where
  belv : t.belv = s.belv
  die : Begun d s → ∃ u w, dieAt t d = { dieAt s d with used := u, waited := w } ∧ (p → u = (dieAt s d).used)

section

variable {d : Nat} {p : Prop}

theorem Within.update {s t : State} (hb : t.belv = s.belv) (hd : dieAt t d = dieAt s d) : Within d p s t :=
  ⟨hb, fun _ => ⟨_, _, hd, fun _ => rfl⟩⟩

theorem Within.refl (s : State) : Within d p s s := .update rfl rfl

theorem Within.begun {s t : State} (h : Within d p s t) (hs : Begun d s) : Begun d t := by
  obtain ⟨u, w, hd, -⟩ := h.die hs
  exact ⟨by rw [hd, h.belv]; exact hs.govUs, by rw [hd, h.belv]; exact hs.tickUs⟩

theorem Within.trans {s t u : State} (h : Within d p s t) (k : Within d p t u) : Within d p s u := by
  refine ⟨k.belv.trans h.belv, fun hs => ?_⟩
  obtain ⟨a, b, hd, hp⟩ := h.die hs
  obtain ⟨x, y, hd', hp'⟩ := k.die (h.begun hs)
  refine ⟨x, y, by rw [hd', hd], fun hq => ?_⟩
  rw [hp' hq, hd]
  exact hp hq

theorem Within.ite {c : Prop} [Decidable c] {s t u : State} (ht : Within d p s t) (hu : Within d p s u) :
    Within d p s (if c then t else u) := by
  split <;> assumption

theorem Within.foldl {α : Type} {f : State → α → State} (h : ∀ s x, Within d p s (f s x)) (l : List α) (s : State) :
    Within d p s (l.foldl f s) :=
  List.foldlRecOn (motive := fun t => Within d p s t) l f (.refl s) fun t ht x _ => ht.trans (h t x)

theorem Within.foldl_fst {α β : Type} {f : State × β → α → State × β} (h : ∀ r x, Within d p r.1 (f r x).1)
    (l : List α) (r : State × β) : Within d p r.1 (l.foldl f r).1 :=
  List.foldlRecOn (motive := fun t => Within d p r.1 t.1) l f (.refl r.1) fun t ht x _ => ht.trans (h t x)

theorem within_count64 (s : State) (q o n : Nat) : Within d p s (count64 s q o n) := .update (count64_belv ..) (dieAt_count64 ..)
theorem within_putEng (s : State) (k : Nat) (v : Engine) : Within d p s (putEng s k v) := .update rfl rfl

/-- A die that is set to itself but for what it has used and its mark. -/
theorem within_putDie {s : State} {c : Nat} {v : Die}
    (hv : c = d → Begun d s → ∃ u w, v = { dieAt s d with used := u, waited := w } ∧ (p → u = (dieAt s d).used)) :
    Within d p s (putDie s c v) := by
  refine ⟨rfl, fun hs => ?_⟩
  by_cases hc : c = d
  · rw [hc, dieAt_putDie_self]
    exact hv hc hs
  · rw [dieAt_putDie_other s v hc]
    exact ⟨_, _, rfl, fun _ => rfl⟩

theorem within_noteWait (s : State) (c : Nat) : Within d p s (noteWait s c) := by
  refine .ite (.refl s) (Within.trans (within_putDie fun hc hs => ?_) (.update rfl rfl))
  rw [hc, govAt_of_begun hs.govUs]
  exact ⟨_, _, rfl, fun _ => rfl⟩

/-- A die whose microsecond is granted. -/
theorem within_ticked (s : State) (c : Nat) : Within d p s (putDie s c { dieAt s c with tickUs := s.belv.tb / 1000 }) := by
  refine within_putDie fun hc hs => ⟨(dieAt s d).used, (dieAt s d).waited, ?_, fun _ => rfl⟩
  rw [hc, ← hs.tickUs]

/-- A die that has used slots of the microsecond. -/
theorem within_drawn (s : State) (c n : Nat) :
    Within d False s (putDie s c { (dieAt s c).govAt (s.belv.tb / 1000) with used := n }) := by
  refine within_putDie fun hc hs => ⟨n, (dieAt s d).waited, ?_, False.elim⟩
  rw [hc, govAt_of_begun hs.govUs]

theorem within_chargeWrite (s : State) (k : Nat) : Within d p s (chargeWrite s k) :=
  .ite (.refl s) (Within.trans (within_putEng ..) (within_count64 ..))

theorem within_chargeCal (s : State) (k : Nat) : Within d p s (chargeCal s k) := by
  unfold chargeCal
  dsimp only
  split
  · exact .refl s
  · exact (within_putEng ..).trans (within_count64 ..)

theorem within_chargeCals (s : State) : Within d p s (chargeCals s) := .foldl within_chargeCal _ s

theorem within_beginCal (s : State) (k : Nat) : Within d p s (beginCal s k) := by
  unfold beginCal
  split
  · exact .refl s
  · exact (within_putEng ..).trans (within_chargeCal ..)

theorem within_tryCal (s : State) (k : Nat) : Within d p s (tryCal s k).1 := by
  unfold tryCal
  dsimp only
  split
  · exact .refl s
  · split
    · exact .refl s
    · split
      · exact .update rfl rfl
      · split
        · exact within_beginCal ..
        · have hwait : Within d p s (if awake s then noteWait s (engDie k) else s) := .ite (within_noteWait ..) (.refl s)
          exact hwait.trans (within_ticked ..)

theorem within_tryCals (s : State) (l : List Nat) : Within d p s (tryCals s l).1 := by
  refine Within.foldl_fst (fun r k => ?_) _ (s, [])
  exact within_tryCal r.1 k

theorem within_retryCals (s : State) (c : Nat) : Within d p s (retryCals s c) := by
  refine .foldl (fun t n => ?_) _ s
  dsimp only
  split
  · exact .ite ((within_tryCals ..).trans (.update rfl rfl)) (.refl t)
  · exact .refl t

/-- A calibration's reads are charged to the microsecond. -/
theorem within_grantCal (s : State) (k left : Nat) : Within d False s (grantCal s k left).1 := by
  unfold grantCal
  dsimp only
  split
  · exact .refl s
  · split
    · exact .refl s
    · exact (within_putEng ..).trans ((within_drawn ..).trans (within_noteWait ..))

/-- Where no calibration of the die has begun, none is charged. -/
theorem within_grantCals {s : State} (h : p → governedCals s d = []) : Within d p s (grantCals s d) := by
  unfold grantCals
  dsimp only
  split
  · exact .refl s
  · next hl =>
    have hp : ¬ p := fun hp => hl (by rw [h hp]; exact Nat.zero_le _)
    have hgrant := Within.foldl_fst (d := d) (fun (r : State × Nat) k => within_grantCal r.1 k r.2) (governedCals s d)
      (s, budget s d - ((dieEngines s d).map fun x => writeSlots s x.1 x.2).sum)
    refine ⟨hgrant.belv, fun hs => ?_⟩
    obtain ⟨u, w, hd, -⟩ := hgrant.die hs
    exact ⟨u, w, hd, fun h => absurd h hp⟩

end

/-! ### Calibrations of a die -/

/-- No engine of the die calibrates. -/
def NoCal (s : State) (d : Nat) : Prop := ∀ y ∈ s.engines, y.1 / 8192 = d → y.2.calEnd = none

theorem governedCals_nil {s : State} {d : Nat} (h : NoCal s d) : governedCals s d = [] := by
  have hnil : (dieEngines s d).filter (fun x => x.2.calEnd.isSome && !x.2.inBringUp) = [] := by
    refine List.filter_eq_nil_iff.mpr fun y hy => ?_
    obtain ⟨hy, hd⟩ := List.mem_filter.mp hy
    simp [h y hy (eq_of_beq hd)]
  unfold governedCals
  rw [hnil]
  rfl

theorem mem_tget_of_key {α : Type} (d : α) {t : Tab α} {k : Nat} {v : α} (h : (k, v) ∈ t) : (k, tget d t k) ∈ t := by
  induction t with
  | nil => cases h
  | cons e t ih =>
    obtain ⟨j, w⟩ := e
    unfold tget
    split
    · next hj => exact hj ▸ List.mem_cons_self
    · next hj =>
      refine List.mem_cons_of_mem _ (ih ((List.mem_cons.mp h).resolve_left fun he => hj ?_))
      exact (Prod.mk.inj he).1.symm

/-- A listed engine of a die where none calibrates does not. -/
theorem calEnd_of_key {s : State} {d k : Nat} (h : NoCal s d) (hk : k ∈ keysOf (dieEngines s d)) : (engAt s k).calEnd = none := by
  obtain ⟨y, hy, rfl⟩ := List.mem_map.mp hk
  obtain ⟨hy, hd⟩ := List.mem_filter.mp hy
  exact h _ (mem_tget_of_key _ hy) (eq_of_beq hd)

theorem calEnd_chargeWrite (s : State) (k j : Nat) : (engAt (chargeWrite s k) j).calEnd = (engAt s j).calEnd := by
  unfold chargeWrite
  dsimp only
  split
  · rfl
  · rw [engAt_count64]
    by_cases h : k = j
    · rw [h, engAt_modEng_self]
    · rw [modEng, engAt_putEng_other s _ h]

/-- The charge of a write operation begins no calibration. -/
theorem noCal_chargeWrite {s : State} {d k : Nat} (h : NoCal s d) (hk : (engAt s k).calEnd = none) : NoCal (chargeWrite s k) d := by
  intro y hy hd
  unfold chargeWrite at hy
  dsimp only at hy
  split at hy
  · exact h y hy hd
  · rw [count64_engines] at hy
    rcases mem_tset hy with rfl | hy
    · exact hk
    · exact h y hy hd

theorem noCal_chargeWrites {s : State} {d : Nat} (h : NoCal s d) {l : List Nat} (hl : ∀ k ∈ l, (engAt s k).calEnd = none) :
    NoCal (l.foldl chargeWrite s) d := by
  have hkept := List.foldlRecOn (motive := fun u => NoCal u d ∧ ∀ j, (engAt u j).calEnd = (engAt s j).calEnd) l chargeWrite
    ⟨h, fun _ => rfl⟩ fun u hu k hk => ⟨noCal_chargeWrite hu.1 ((hu.2 k).trans (hl k hk)), fun j =>
      (calEnd_chargeWrite u k j).trans (hu.2 j)⟩
  exact hkept.1

/-- A new microsecond of a die's governor begins its count again and moves the rotation on (R372, R373). -/
theorem governorTick_begins {s : State} {d : Nat} (hu : (dieAt s d).up = true) (ht : (dieAt s d).tickUs < s.belv.tb / 1000) :
    let x := dieAt s d
    let us := s.belv.tb / 1000
    ∃ t, exec (.governorTick d) s = .next t ∧ (dieAt t d).govUs = us ∧ (dieAt t d).tickUs = us ∧
      ((∀ y ∈ s.engines, y.1 / 8192 = d → y.2.calEnd = none) → (dieAt t d).used = (if x.govUs = us then x.used else 0)) ∧
      (dieAt t d).rotor = (if x.govUs = us then x.rotor else (x.rotor + (us - x.govUs)) % 8192) ∧
      (dieAt t d).st = x.st ∧ t.weights = s.weights := by
  intro x us
  obtain ⟨b, hb⟩ : ∃ b, b = putDie s d { x.govAt us with tickUs := us } := ⟨_, rfl⟩
  obtain ⟨l, hl⟩ : ∃ l, l = keysOf ((dieEngines b d).filter fun e => opRunning b e.1 e.2) := ⟨_, rfl⟩
  have hop : governorTickOp s d = retryCals (chargeCals (grantCals (l.foldl chargeWrite b) d)) d := by
    unfold governorTickOp
    rw [if_neg (by simp [hu, ht]), hl, hb]
  have hdie : dieAt b d = { x.govAt us with tickUs := us } := by rw [hb, dieAt_putDie_self]
  have hbegun : Begun d b := ⟨by rw [hdie, hb]; exact govAt_govUs us x, by rw [hdie, hb]; rfl⟩
  have hnone (h : NoCal s d) : NoCal (l.foldl chargeWrite b) d := by
    have hbn : NoCal b d := by rw [hb]; exact h
    refine noCal_chargeWrites hbn fun k hk => calEnd_of_key hbn ?_
    rw [hl] at hk
    obtain ⟨y, hy, rfl⟩ := List.mem_map.mp hk
    exact List.mem_map_of_mem (List.mem_of_mem_filter hy)
  have hwithin : Within d (NoCal s d) b (governorTickOp s d) := by
    rw [hop]
    exact (Within.foldl within_chargeWrite l b).trans ((within_grantCals fun h => governedCals_nil (hnone h)).trans
      ((within_chargeCals _).trans (within_retryCals ..)))
  obtain ⟨u, w, hd, hused⟩ := hwithin.die hbegun
  have hend := (beside_settle (governorTickOp s d)).dieAt d
  have hheld : held (settle (governorTickOp s d)) = held s := by rw [held_settle, held_governorTickOp]
  rw [hdie] at hd hused
  refine ⟨_, rfl, ?_⟩
  rw [hend, hd]
  exact ⟨govAt_govUs us x, rfl, fun h => (hused h).trans (govAt_used us x), govAt_rotor us x, govAt_st us x,
    congrArg Held.weights hheld⟩

/-- Settles O51, one command at a time. -/
theorem engineCalibration : Obligations.EngineCalibration := fun _ _ =>
  ⟨fun _ _ _ _ hc ht hl => ⟨engineCalEnd_accepted hc ht hl, engineCalEnd_rejected hc ht⟩, fun _ _ => calibrate_marks,
    fun _ => calCoefSave_saves, fun _ => governorTick_begins⟩

end Sys2Proof.Laws
end

section
/-! Writes that command a block: MEM_SLOW_SIZE (R326), HIST_CLR (R179) and SWEEP_CTRL.START (R140). -/

namespace Sys2Proof.Laws

open Sys2Proof Sys2Proof.Machine

/-! ### A function applied to the entries of a table -/

/-- Every entry of a canonical table takes the function's value, and so does every key that is not listed. -/
theorem tget_tmapi {α : Type} [DecidableEq α] {d : α} {f : Nat → α → α} (hd : ∀ k, f k d = d) {t : Tab α}
    (h : tabOk (fun _ => d) t = true) (k : Nat) : tget d (tmapi d f t) k = f k (tget d t k) := by
  induction t with
  | nil => exact (hd k).symm
  | cons e t ih =>
    obtain ⟨j, v⟩ := e
    obtain ⟨-, hk, ht⟩ := tabOk_cons.1 h
    rw [tmapi_cons, tget]
    by_cases hj : j = k
    · subst hj
      rw [if_pos rfl]
      split
      · next hv => rw [ih ht, tget_of_lt d hk, hd, hv]
      · rw [tget, if_pos rfl]
    · rw [if_neg hj]
      split
      · exact ih ht
      · rw [tget, if_neg hj, ih ht]

/-! ### The three registers -/

theorem writeDw_memSlowSize (s : State) (w : W32) : writeDw s 0x80 0x40 (whole w) = memSlowSize s (w.toNat % 64) := by
  rw [writeDw_block (k := .mem0) (i := 0) (r := ⟨0x40, 0, 1, 0x3f, 0, 0, false, false⟩) rfl (by decide) (by decide)
    (by omega) (by omega) rfl, blockWrite_whole (.inr rfl) rfl rfl rfl (by decide)]
  have hv : fld (w &&& 0x3F) 5 0 = w.toNat % 64 := by
    have h : (w &&& 0x3F).toNat = w.toNat % 64 := (BitVec.toNat_and ..).trans (Nat.and_two_pow_sub_one_eq_mod w.toNat 6)
    rw [fld, h]
    omega
  exact congrArg (memSlowSize s) hv

theorem kindOf_vec : ∀ d < 16, ∀ c < 16, kindOf (pgVec (d * 16 + c)) = some (.vec, d * 16 + c) := by decide

theorem writeDw_histClr (s : State) {d c : Nat} (hd : d < 16) (hc : c < 16) :
    writeDw s (pgVec (d * 16 + c)) 0x40 (whole 1) = clearHist s (d * 16 + c) := by
  rw [writeDw_block (k := .vec) (i := d * 16 + c) (r := ⟨0x40, 0, 1, 0, 0, 0, false, false⟩) (kindOf_vec d hd c hc) (by decide)
    (by decide) (by omega) (by omega) rfl, blockWrite_whole (.inr rfl) rfl rfl rfl (by decide)]
  rfl

theorem kindOf_prg1 : ∀ {d : Nat}, d < 16 → kindOf (pgPrg1 d) = some (.prg1, d) := by decide

theorem writeDw_sweepCtrl (s : State) {d : Nat} (hd : d < 16) :
    ∃ v, writeDw s (pgPrg1 d) 0x40 (whole 1) = startPass (rset s (pgPrg1 d) 0x40 v) d 2 := by
  rw [writeDw_block (k := .prg1) (i := d) (r := ⟨0x40, 0, 1, 0xffffff00, 0, 0x1e0100, false, false⟩) (kindOf_prg1 hd) (by decide)
    (by decide) (by omega) (by omega) rfl, blockWrite_whole (.inr rfl) rfl rfl rfl (by decide)]
  exact ⟨_, rfl⟩

/-! ### The start of a pass -/

/-- From `s` to `t` a pass of die d has begun over every plate of it that is VALID or DRIFTED (R140). -/
structure PassBegun (s t : State) (d cause : Nat) : Prop where
  active : (dieAt t d).sweep.active = true
  cause : (dieAt t d).sweep.cause = cause
  todo : (dieAt t d).sweep.todo = sweepPlates s d
  total : (dieAt t d).sweep.total = (sweepPlates s d).length
  exam : (dieAt t d).sweep.exam = 0
  plates : t.plates = s.plates
  hostMem : t.hostMem = s.hostMem
  evq : t.evq = s.evq

theorem startPass_active {s : State} {d : Nat} (h : (dieAt s d).sweep.active = true) (cause : Nat) : startPass s d cause = s :=
  if_pos h

theorem startPass_begun {s : State} {d : Nat} (h : (dieAt s d).sweep.active = false) (hp : sweepPlates s d ≠ []) (cause : Nat) :
    PassBegun s (startPass s d cause) d cause := by
  have hi : ¬ (dieAt s d).sweep.active = true := by simp [h]
  have he : ¬ (sweepPlates s d).isEmpty = true := by simpa using hp
  unfold startPass
  dsimp only
  rw [if_neg hi, if_neg he]
  constructor <;> simp [modSweep, mapEngines]

theorem histClr_clears {s : State} (hs : Settled s) {d c : Nat} (hd : d < 16) (hc : c < 16)
    (ha : answers s (pgVec (d * 16 + c)) = true) :
    exec (.histClr d c (whole 1)) s = .next (answer (clearHist s (d * 16 + c)) .posted []) := by
  have h := done_regWrite_quiet (whole 1) ha (by omega) rfl (writeDw_histClr s hd hc) hs
  have hc' : c % 16 = c := Nat.mod_eq_of_lt hc
  change done (regWrite s (pgVec (d * 16 + c % 16)) 0x40 (whole 1)) = _
  rwa [hc']

/-- The slots of the core, and of no other, are marked (R179). -/
theorem qslotAt_clearHist {s : State} (hq : tabOk (fun _ => (none : Option QSlot)) s.qslots = true) (c k : Nat) :
    qslotAt (clearHist s c) k = (qslotAt s k).map fun q => if k / 1024 % 256 = c then { q with clear := true } else q := by
  refine (tget_tmapi (f := fun k q => if k / 1024 % 256 = c then q.map fun x => { x with clear := true } else q)
    (fun k => ite_self _) hq k).trans ?_
  change (if _ then _ else qslotAt s k) = _
  by_cases h : k / 1024 % 256 = c <;> simp [h, qslotAt]

/-- Settles O38. -/
theorem blockCommandWrites : Obligations.BlockCommandWrites := by
  intro s hs
  refine ⟨fun w ha he hr => ?_, fun w ha h => ?_, fun d c hd hc ha hq => ?_, fun d hd ha hw hp => ?_, fun d hd ha hw => ?_⟩
  · exact done_regWrite_quiet _ ha (by omega) rfl ((writeDw_memSlowSize s w).trans (if_pos ⟨he, hr⟩)) hs
  · refine done_regWrite_ev hs ha (by omega) rfl (answers_open ha).2.2 ((writeDw_memSlowSize s w).trans (if_neg ?_))
    rintro ⟨he, hr⟩
    exact h.elim (by simp [he]) (by simp [hr])
  · exact ⟨_, histClr_clears hs hd hc ha, rfl, qslotAt_clearHist hq (d * 16 + c)⟩
  · obtain ⟨v, hv⟩ := writeDw_sweepCtrl s hd
    obtain ⟨hact, hcause, htodo, htotal, hexam, hpl, hhost, hevq⟩ :=
      startPass_begun (s := rset s (pgPrg1 d) 0x40 v) hw hp 2
    exact ⟨_, done_regWrite_quiet _ ha (by omega) rfl hv (hevq.trans hs), hact, hcause, htodo, htotal, hexam, hpl, hhost⟩
  · obtain ⟨v, hv⟩ := writeDw_sweepCtrl s hd
    have hact := startPass_active (s := rset s (pgPrg1 d) 0x40 v) hw 2
    exact ⟨_, done_regWrite_quiet _ ha (by omega) rfl (hv.trans hact) hs, rfl⟩

end Sys2Proof.Laws
end

section
/-! Passes of the verify sweep and their reads (R140 to R147): the start of a pass by VERIFY_SWEEP and by the interval, and the cases of
a sweep read. -/

namespace Sys2Proof.Laws

open Sys2Proof Sys2Proof.Machine

/-! ### Entries that stay listed -/

/-- A listed entry that a function does not drop takes its value, in any table. -/
theorem tget_tmapi_of_ne {α : Type} [DecidableEq α] {d : α} {f : Nat → α → α} {t : Tab α} {k : Nat} (hv : tget d t k ≠ d)
    (hf : f k (tget d t k) ≠ d) : tget d (tmapi d f t) k = f k (tget d t k) := by
  induction t with
  | nil => exact absurd rfl hv
  | cons e t ih =>
    obtain ⟨j, v⟩ := e
    rw [tmapi_cons]
    by_cases hj : j = k
    · subst hj
      rw [tget, if_pos rfl] at hf ⊢
      rw [if_neg hf, tget, if_pos rfl]
    · rw [tget, if_neg hj] at hv hf ⊢
      split
      · exact ih hv hf
      · rw [tget, if_neg hj, ih hv hf]

/-! ### Requests that wait for a pass -/

/-- A state with other requests. -/
def withReqs (s : State) (l : Tab (Option Req)) : State := { s with reqs := l }

theorem modReq_rest (s : State) (id : Nat) (f : Req → Req) (l : Tab (Option Req)) :
    withReqs (modReq s id f) l = withReqs s l := by
  unfold modReq
  split <;> rfl

theorem reqAt_modReq_other (s : State) {id n : Nat} (h : id ≠ n) (f : Req → Req) : reqAt (modReq s id f) n = reqAt s n := by
  unfold modReq
  split
  · rfl
  · rw [reqAt, putReq, tget_tset_other _ _ _ _ h, reqAt]

theorem reqAt_mapReqs {s : State} {id : Nat} {q : Req} (h : reqAt s id = some q) (f : Req → Req) :
    reqAt (mapReqs s f) id = some (f q) := by
  have hq : tget (none : Option Req) s.reqs id = some q := h
  have hf := tget_tmapi_of_ne (d := (none : Option Req)) (f := fun _ p => p.map f) (t := s.reqs) (k := id) (by simp [hq])
    (by simp [hq])
  rw [hq] at hf
  exact hf

/-- Serving the requests that waited for a pass changes requests alone. -/
theorem sweepServe_rest (s : State) (d : Nat) (l : Tab (Option Req)) : withReqs (sweepServe s d) l = withReqs s l := by
  unfold sweepServe
  refine List.foldlRecOn (motive := fun u => withReqs u l = withReqs s l) _ _ rfl fun u hu id _ => ?_
  split
  · split
    · exact (modReq_rest ..).trans hu
    · exact hu
  · exact hu

@[simp] theorem sweepServe_dies (s : State) (d : Nat) : (sweepServe s d).dies = s.dies :=
  congrArg (fun u => u.dies) (sweepServe_rest s d [])

@[simp] theorem sweepServe_plates (s : State) (d : Nat) : (sweepServe s d).plates = s.plates :=
  congrArg (fun u => u.plates) (sweepServe_rest s d [])

/-- A VERIFY_SWEEP that is running, and waits for some dies, or has finished and waits for none. -/
def Waits (s : State) (id : Nat) (l : List Nat) : Prop :=
  ∃ r, reqAt s id = some r ∧ r.desc.opc = 0x21 ∧ r.waitFor = l ∧ (r.phase = .running ∨ r.phase = .finished ∧ l = [])

theorem Waits.finishReq {s : State} {id : Nat} (h : Waits s id []) (n : Nat) : Waits (finishReq s n) id [] := by
  obtain ⟨r, hr, ho, hw, hp⟩ := h
  by_cases hn : n = id
  · subst hn
    refine ⟨_, reqAt_modReq hr _, ?_⟩
    split
    · next hf => exact ⟨ho, hw, .inr ⟨hf, rfl⟩⟩
    · exact ⟨ho, hw, .inr ⟨rfl, rfl⟩⟩
  · exact ⟨r, (reqAt_modReq_other s hn _).trans hr, ho, hw, hp⟩

/-- Finishing a request that waits for nothing leaves what another waits for. -/
theorem Waits.finishReq_of {s : State} {id : Nat} {l : List Nat} (h : Waits s id l) {n : Nat} {q : Req} (hq : reqAt s n = some q)
    (hw : q.waitFor = []) : Waits (Machine.finishReq s n) id l := by
  obtain ⟨r, hr, ho, hl, hp⟩ := h
  by_cases hn : n = id
  · subst hn
    obtain rfl : q = r := Option.some.inj (hq.symm.trans hr)
    obtain rfl : l = [] := hl.symm.trans hw
    exact Waits.finishReq ⟨_, hr, ho, hl, hp⟩ n
  · exact ⟨r, (reqAt_modReq_other s hn _).trans hr, ho, hl, hp⟩

/-- A pass that has ended is waited for no more. -/
theorem Waits.sweepServe {s : State} {id : Nat} {l : List Nat} (h : Waits s id l) (d : Nat) :
    Waits (sweepServe s d) id (l.filter fun e => e != d) := by
  obtain ⟨r, hr, ho, hw, hp⟩ := h
  unfold Machine.sweepServe
  refine List.foldlRecOn (motive := fun u => Waits u id (l.filter fun e => e != d)) _ _ ?_ fun u hu n _ => ?_
  · refine ⟨_, reqAt_mapReqs hr _, ?_⟩
    rw [if_pos (by simp [ho])]
    exact ⟨ho, by rw [hw], hp.imp_right fun ⟨hf, hl⟩ => ⟨hf, by simp [hl]⟩⟩
  · split
    · next q hq =>
      split
      · next hc => exact hu.finishReq_of hq hc.2.2
      · exact hu
    · exact hu

/-! ### A pass starts on one die of several -/

/-- No entry of a die has a pass active. -/
def Idle (s : State) (d : Nat) : Prop := ∀ v, (d, v) ∈ s.dies → v.sweep.active = false

theorem Idle.active {s : State} {d : Nat} (h : Idle s d) : (dieAt s d).sweep.active = false := by
  by_cases hz : dieAt s d = Die.zero
  · rw [hz]
    rfl
  · exact h _ (mem_of_tget rfl hz)

theorem idle_putDie_self (s : State) {d : Nat} {v : Die} (hv : v.sweep.active = false) : Idle (putDie s d v) d := by
  intro w hw
  have hw' : (d, w) ∈ tset Die.zero s.dies d v := hw
  unfold tset at hw'
  split at hw'
  · exact absurd rfl (mem_tdel.mp hw').2
  · rcases mem_tins.mp hw' with he | he
    · rw [(Prod.mk.inj he).2, hv]
    · exact absurd rfl (mem_tdel.mp he).2

theorem Idle.putDie {s : State} {d e : Nat} (h : Idle s d) (hne : e ≠ d) (v : Die) : Idle (putDie s e v) d := fun w hw =>
  (mem_tset hw).elim (fun he => absurd (Prod.mk.inj he).1.symm hne) (h w)

/-- What MAP_ENGINES makes of a die. -/
def reproto (p : Nat → Bool) (f : Engine → Engine) (k : Nat) (x : Die) : Die := if p k then { x with proto := f x.proto } else x

theorem reproto_sweep (p : Nat → Bool) (f : Engine → Engine) (k : Nat) (x : Die) : (reproto p f k x).sweep = x.sweep := by
  unfold reproto
  split <;> rfl

theorem mapEngines_dies (s : State) (p : Nat → Bool) (f : Engine → Engine) :
    (mapEngines s p f).dies = tmapi Die.zero (reproto p f) s.dies := rfl

theorem Idle.mapEngines {s : State} {d : Nat} (h : Idle s d) (p : Nat → Bool) (f : Engine → Engine) :
    Idle (mapEngines s p f) d := by
  intro w hw
  rw [mapEngines_dies] at hw
  obtain ⟨⟨j, v⟩, hv, he⟩ := List.mem_map.mp (List.mem_filter.mp hw).1
  obtain ⟨hj, hw⟩ := Prod.mk.inj he
  rw [← hw, reproto_sweep]
  exact h v (hj ▸ hv)

theorem active_mapEngines {s : State} {d : Nat} (h : (dieAt s d).sweep.active = true) (p : Nat → Bool) (f : Engine → Engine) :
    (dieAt (mapEngines s p f) d).sweep.active = true := by
  have hz {v : Die} (hv : v.sweep.active = true) : v ≠ Die.zero := fun hv' => by simp [hv', Die.zero, Sweep.zero] at hv
  have hf : (reproto p f d (dieAt s d)).sweep.active = true := by rwa [reproto_sweep]
  rw [dieAt, mapEngines_dies, tget_tmapi_of_ne (hz h) (hz hf)]
  exact hf

/-- A pass that is active stays so when one starts on some die. -/
theorem active_startPass {s : State} {d : Nat} (h : (dieAt s d).sweep.active = true) (e cause : Nat) :
    (dieAt (startPass s e cause) d).sweep.active = true := by
  by_cases ha : (dieAt s e).sweep.active = true
  · rwa [startPass_active ha]
  have hne : e ≠ d := fun he => ha (he ▸ h)
  have hkept (u : State) (f : Sweep → Sweep) : dieAt (modSweep u e f) d = dieAt u d := dieAt_putDie_other u _ hne
  have hm := active_mapEngines h (fun x => x == e) Engine.sweepIdle
  unfold startPass
  dsimp only
  rw [if_neg ha]
  split
  · rw [endPass, dieAt, sweepServe_dies, ← dieAt, hkept, hkept]
    exact hm
  · rw [hkept]
    exact hm

theorem startPass_plates (s : State) (d cause : Nat) : (startPass s d cause).plates = s.plates := by
  unfold startPass
  dsimp only
  split
  · rfl
  · split
    · rw [endPass, sweepServe_plates]
      rfl
    · rfl

theorem sweepPlates_congr {s t : State} (h : t.plates = s.plates) (d : Nat) : sweepPlates t d = sweepPlates s d := by
  rw [sweepPlates, h, sweepPlates]

/-- With something to examine, a pass is active once it was told to start. -/
theorem active_startPass_self {s : State} {d : Nat} (h : sweepPlates s d ≠ []) (cause : Nat) :
    (dieAt (startPass s d cause) d).sweep.active = true := by
  by_cases ha : (dieAt s d).sweep.active = true
  · exact active_startPass ha d cause
  · exact (startPass_begun (by simpa using ha) h cause).active

/-- With a pass active no request ends; with none and nothing to examine, the pass ends at once, and what waited for it does not any
more. -/
theorem startPass_empty {s : State} {d : Nat} (h : (dieAt s d).sweep.active = false) (hp : sweepPlates s d = []) (cause : Nat) :
    ∃ u, startPass s d cause = sweepServe u d ∧ u.reqs = s.reqs ∧ Idle u d ∧ ∀ e, e ≠ d → Idle s e → Idle u e := by
  have ha : ¬ (dieAt s d).sweep.active = true := by simp [h]
  refine ⟨?_, ?op, ?_, ?_, ?_⟩
  case op =>
    unfold startPass
    dsimp only
    rw [if_neg ha, hp]
    rfl
  · rfl
  · exact idle_putDie_self _ rfl
  · exact fun e he hi => ((hi.mapEngines _ _).putDie he.symm _).putDie he.symm _

theorem startPass_full {s : State} {d : Nat} (h : (dieAt s d).sweep.active = false) (hp : sweepPlates s d ≠ []) (cause : Nat) :
    (startPass s d cause).reqs = s.reqs ∧ ∀ e, e ≠ d → Idle s e → Idle (startPass s d cause) e := by
  have ha : ¬ (dieAt s d).sweep.active = true := by simp [h]
  have he : ¬ (sweepPlates s d).isEmpty = true := by simpa using hp
  unfold startPass
  dsimp only
  rw [if_neg ha, if_neg he]
  exact ⟨rfl, fun e he hi => (hi.mapEngines _ _).putDie he.symm _⟩

/-! ### VERIFY_SWEEP -/

/-- Of the dies that a VERIFY_SWEEP names, it waits for some, and the others have nothing to examine and no pass. -/
def SweepWaits (s t : State) (id : Nat) (l : List Nat) : Prop :=
  t.plates = s.plates ∧ ∃ p : Nat → Bool, Waits t id (l.filter p) ∧ ∀ d, p d = false → sweepPlates s d = [] ∧ Idle t d

theorem SweepWaits.startPass {s t : State} {id : Nat} {l : List Nat} (h : SweepWaits s t id l) (d : Nat) :
    SweepWaits s (startPass t d 1) id l := by
  obtain ⟨hpl, p, hw, hp⟩ := h
  refine ⟨(startPass_plates t d 1).trans hpl, ?_⟩
  by_cases ha : (dieAt t d).sweep.active = true
  · rw [startPass_active ha]
    exact ⟨p, hw, hp⟩
  have ha : (dieAt t d).sweep.active = false := by simpa using ha
  by_cases hn : sweepPlates t d = []
  · obtain ⟨u, hu, hreqs, hidle, hothers⟩ := startPass_empty ha hn 1
    have hwu : Waits u id (l.filter p) := by rwa [Waits, reqAt, hreqs]
    have hs := hwu.sweepServe d
    have hdies (e : Nat) (hi : Idle u e) : Idle (sweepServe u d) e := by rwa [Idle, sweepServe_dies]
    rw [List.filter_filter] at hs
    rw [hu]
    refine ⟨_, hs, fun e he => ?_⟩
    by_cases hd : e = d
    · exact ⟨hd ▸ (sweepPlates_congr hpl d).symm.trans hn, hdies e (hd ▸ hidle)⟩
    · obtain ⟨hse, hie⟩ := hp e (by simpa [hd] using he)
      exact ⟨hse, hdies e (hothers e hd hie)⟩
  · obtain ⟨hreqs, hothers⟩ := startPass_full ha hn 1
    refine ⟨p, by rwa [Waits, reqAt, hreqs], fun e he => ?_⟩
    obtain ⟨hse, hie⟩ := hp e he
    refine ⟨hse, hothers e (fun hd => hn ?_) hie⟩
    rw [← hd, sweepPlates_congr hpl, hse]

/-- What VERIFY_SWEEP comes to once a pass was told to start on every die that it names: it waits for those whose pass is active. -/
def verifyWaits (s : State) (id : Nat) (l : List Nat) : State :=
  let idle := l.filter fun d => !(dieAt s d).sweep.active
  let s := modReq s id fun q => { q with waitFor := q.waitFor.filter fun d => !idle.contains d }
  match reqAt s id with
  | some q => if q.phase = .running ∧ q.waitFor = [] then finishReq s id else s
  | none => s

theorem verifyWaits_rest (s : State) (id : Nat) (l : List Nat) (q : Tab (Option Req)) :
    withReqs (verifyWaits s id l) q = withReqs s q := by
  unfold verifyWaits
  dsimp only
  (repeat' split) <;> simp only [finishReq, modReq_rest]

theorem SweepWaits.verifyWaits {s t : State} {id : Nat} {l : List Nat} (h : SweepWaits s t id l) :
    ∃ r, reqAt (verifyWaits t id l) id = some r ∧ (r.waitFor = l.filter fun d => (dieAt t d).sweep.active) ∧
      (r.phase = .finished ↔ r.waitFor = []) := by
  obtain ⟨-, p, ⟨r, hr, ho, hw, hph⟩, hp⟩ := h
  have hwait : (r.waitFor.filter fun d => !(l.filter fun d => !(dieAt t d).sweep.active).contains d) =
      l.filter fun d => (dieAt t d).sweep.active := by
    rw [hw, List.filter_filter]
    refine List.filter_congr fun d hd => ?_
    cases ha : (dieAt t d).sweep.active with
    | true =>
      have hpd : p d = true := by
        by_contra hn
        simp [(hp d (by simpa using hn)).2.active] at ha
      simp [hpd, hd, ha]
    | false => simp [hd, ha]
  have hm := reqAt_modReq hr fun q => { q with
    waitFor := q.waitFor.filter fun d => !(l.filter fun d => !(dieAt t d).sweep.active).contains d }
  rw [hwait] at hm
  unfold Laws.verifyWaits
  dsimp only
  rw [hm]
  dsimp only
  split
  · next hc =>
    refine ⟨_, reqAt_modReq hm _, ?_⟩
    rw [if_neg (by simp [hc.1])]
    exact ⟨rfl, by simpa using hc.2⟩
  · next hc =>
    refine ⟨_, hm, rfl, ?_⟩
    rcases hph with hph | ⟨hph, hl⟩
    · simpa [hph] using hc
    · rw [hw, hl, List.filter_nil] at hwait
      simp [hph, ← hwait]

/-- VERIFY_SWEEP starts a pass on every die that it names, and waits for those whose pass is active (R140, R271). -/
theorem verifySweep_waits {s : State} {id : Nat} {q : Req} (ha : asleep s = false) (hq : takeReq s id 0x21 = some q) :
    let l := (bitsOf (BitVec.ofNat 16 (fld q.desc.param 15 0))).filter fun d => (dieAt s d).online
    ∃ t r, exec (.verifySweep id) s = .next t ∧ reqAt t id = some r ∧
      (r.waitFor = l.filter fun d => (dieAt t d).sweep.active) ∧ (r.phase = .finished ↔ r.waitFor = []) ∧
      ∀ d, d ∈ l → (dieAt s d).sweep.active = true ∨ sweepPlates s d ≠ [] → (dieAt t d).sweep.active = true := by
  intro l
  obtain ⟨hr, ho⟩ := takeReq_some hq
  obtain ⟨m, hm⟩ : ∃ m, m = modReq s id fun q => { q with phase := .running, ran := true, waitFor := l } := ⟨_, rfl⟩
  have hrest : withReqs m [] = withReqs s [] := hm ▸ modReq_rest ..
  have hdies : m.dies = s.dies := congrArg (fun u => u.dies) hrest
  have hplates : m.plates = s.plates := congrArg (fun u => u.plates) hrest
  have hop : verifySweepOp s id = verifyWaits (l.foldl (fun s d => startPass s d 1) m) id l := by
    unfold verifySweepOp
    rw [ha, hm, if_neg Bool.false_ne_true, hq]
    rfl
  have hbegin : SweepWaits s m id l := by
    have hreq := reqAt_modReq hr fun q => { q with phase := .running, ran := true, waitFor := l }
    rw [← hm] at hreq
    refine ⟨hplates, fun _ => true, ⟨_, hreq, BitVec.eq_of_toNat_eq ho, ?_, .inl rfl⟩, fun d hd => ?_⟩
    · exact (List.filter_true l).symm
    · exact Bool.noConfusion hd
  obtain ⟨u, hu⟩ : ∃ u, u = l.foldl (fun s d => startPass s d 1) m := ⟨_, rfl⟩
  have hwaits : SweepWaits s u id l := hu ▸ List.foldlRecOn (motive := fun u => SweepWaits s u id l) l _ hbegin
    fun v hv d _ => hv.startPass d
  rw [← hu] at hop
  obtain ⟨r, hreq, hwait, hphase⟩ := hwaits.verifyWaits
  have hend (d : Nat) : dieAt (settle (verifySweepOp s id)) d = dieAt u d := by
    rw [dieAt, settle_dies, hop]
    exact congrArg (fun v => tget Die.zero v.dies d) (verifyWaits_rest u id l [])
  refine ⟨_, r, rfl, ?_, ?_, hphase, fun d hd h => ?_⟩
  · rw [reqAt, settle_reqs, hop]
    exact hreq
  · simpa only [hend] using hwait
  · rw [hend, hu]
    by_cases hs : (dieAt s d).sweep.active = true
    · have hsm : (dieAt m d).sweep.active = true := by rwa [dieAt, hdies]
      exact List.foldlRecOn (motive := fun u => (dieAt u d).sweep.active = true) l _ hsm fun v hv e _ => active_startPass hv e 1
    · have hp := h.resolve_left hs
      exact foldl_reaches (f := fun v d => startPass v d 1) (I := fun u => u.plates = s.plates) (Q := fun u => (dieAt u d).sweep.active = true)
        (fun v e hv => (startPass_plates v e 1).trans hv)
        (fun v hv => active_startPass_self (by rwa [sweepPlates_congr hv]) 1) (fun v e _ _ hv => active_startPass hv e 1) hd hplates

/-! ### The interval -/

/-- An interval that has passed starts a pass (R140). -/
theorem sweepInterval_begins {s : State} {d : Nat} (hu : (dieAt s d).up = true) (hn : rfld s (pgPrg1 d) 0x40 31 16 ≠ 0)
    (hw : (dieAt s d).sweep.active = false) (hp : sweepPlates s d ≠ [])
    (ht : (dieAt s d).sweep.since + rfld s (pgPrg1 d) 0x40 31 16 * 86400000000000 ≤ s.belv.tb) :
    ∃ t, exec (.sweepInterval d) s = .next t ∧ (dieAt t d).sweep.active = true ∧ (dieAt t d).sweep.cause = 3 ∧
      (dieAt t d).sweep.todo = sweepPlates s d ∧ t.plates = s.plates := by
  have hop : sweepIntervalOp s d = startPass s d 3 := if_pos ⟨hu, hn, ht⟩
  obtain ⟨hact, hcause, htodo, -, -, hpl, -, -⟩ := startPass_begun hw hp 3
  have hend : dieAt (settle (startPass s d 3)) d = dieAt (startPass s d 3) d := (beside_settle _).dieAt d
  exact ⟨_, congrArg done hop, by rw [hend, hact], by rw [hend, hcause], by rw [hend, htodo], by rw [settle_plates, hpl]⟩

/-! ### What a sweep read changes -/

@[simp] theorem takeSlot_plates (s : State) (d : Nat) : (takeSlot s d).plates = s.plates := by simp [takeSlot]
@[simp] theorem takeSlot_weights (s : State) (d : Nat) : (takeSlot s d).weights = s.weights := by simp [takeSlot]

@[simp] theorem govAt_warn (us : Nat) (x : Die) : (x.govAt us).warn = x.warn := by
  unfold Die.govAt
  split <;> rfl

theorem warn_takeSlot (s : State) (d : Nat) : (dieAt (takeSlot s d) d).warn = (dieAt s d).warn := by
  simp [takeSlot]

theorem engAt_modSweep (s : State) (d : Nat) (f : Sweep → Sweep) (k : Nat) : engAt (modSweep s d f) k = engAt s k :=
  engAt_putDie s (v := { dieAt s d with sweep := f (dieAt s d).sweep }) rfl k

section

variable {s : State} {k p : Nat} (hp : sweepPlate (dieAt s (k / 8192)).sweep.todo k = some p)

include hp

theorem sweepReadOp_closed (h : sweepOpen s k p (engAt s k) = false) (refErrs errs : List Int) :
    sweepReadOp s k refErrs errs = s := by
  unfold sweepReadOp
  dsimp only [engDie]
  rw [hp]
  exact if_pos h

theorem sweepReadOp_change (h : sweepOpen s k p (engAt s k) = true) (hs : (engAt s k).sel ≠ p % 512) (refErrs errs : List Int) :
    sweepReadOp s k refErrs errs = putEng s k { engAt s k with sel := p % 512, freeAt := s.belv.tb + 192 } := by
  unfold sweepReadOp
  dsimp only [engDie]
  rw [hp]
  exact (if_neg (by simp [h])).trans (if_pos hs)

theorem sweepReadOp_wait (h : sweepOpen s k p (engAt s k) = true) (hs : (engAt s k).sel = p % 512) (hg : granted s k = false)
    (refErrs errs : List Int) : sweepReadOp s k refErrs errs = noteWait s (k / 8192) := by
  unfold sweepReadOp
  dsimp only [engDie]
  rw [hp]
  exact (if_neg (by simp [h])).trans ((if_neg (by simp [hs])).trans (if_pos (by simp [hg])))

/-- The state in which an engine is busy with a sweep read, and its slot is taken. -/
def swept (s : State) (k : Nat) : State := takeSlot (putEng s k { engAt s k with freeAt := s.belv.tb + 128 }) (k / 8192)

theorem sweepReadOp_discarded (h : sweepOpen s k p (engAt s k) = true) (hs : (engAt s k).sel = p % 512) (hg : granted s k = true)
    (hw : (dieAt s (k / 8192)).warn ≠ 0) (refErrs errs : List Int) : sweepReadOp s k refErrs errs = swept s k := by
  unfold sweepReadOp
  dsimp only [engDie]
  rw [hp]
  refine (if_neg (by simp [h])).trans ((if_neg (by simp [hs])).trans ((if_neg (by simp [hg])).trans (if_pos ?_)))
  rwa [warn_takeSlot, dieAt_putEng]

theorem sweepReadOp_taken (h : sweepOpen s k p (engAt s k) = true) (hs : (engAt s k).sel = p % 512) (hg : granted s k = true)
    (hw : (dieAt s (k / 8192)).warn = 0) (hr : (engAt s k).swRow < 63) (refErrs errs : List Int) :
    ∃ f a b c r, sweepReadOp s k refErrs errs =
      let e := engAt (swept s k) k
      let codes := dataCodes 2 (plateAt (swept s k) p).remap (charges (swept s k) p [(e.swRow, 127)]) errs
      let u := putEng (swept s k) k { e with
        swRow := e.swRow + 1, swLow := a, swData := b, swMin := c, swRef := r
        swCodes := e.swCodes ++ ((codes.zipIdx).map fun c => levelNum (e.coef.getD (c.2 / 8) Coef.zero) c.1.code).map requant }
      if (dieAt u (k / 8192)).sweep.active then modSweep u (k / 8192) f else u := by
  have hrow : (engAt (swept s k) k).swRow + 1 ≠ 64 := by
    rw [swept, engAt_takeSlot, engAt_putEng_self]
    exact fun h => absurd h (by dsimp only; omega)
  have hwarn : ¬ (dieAt (swept s k) (k / 8192)).warn ≠ 0 := by
    rw [swept, warn_takeSlot, dieAt_putEng]
    simp [hw]
  refine ⟨?_, ?_, ?_, ?_, ?_, ?taken⟩
  case taken =>
    unfold sweepReadOp
    dsimp only [engDie]
    rw [hp]
    refine (if_neg (by simp [h])).trans ((if_neg (by simp [hs])).trans ((if_neg (by simp [hg])).trans ((if_neg hwarn).trans
      ((if_neg hrow).trans ?_))))
    rfl

end

/-! ### A sweep read -/

theorem sweepOpen_iff (s : State) (k p : Nat) (e : Engine) : sweepOpen s k p e = true ↔
    awake s = true ∧ covered s k = true ∧ e.due = false ∧ e.calEnd = none ∧ e.prog = none ∧ e.freeAt ≤ s.belv.tb ∧
      s.belv.tb + (if e.sel = p % 512 then 0 else 192) + 128 ≤ coverEnd s k ∧ (dieAt s (k / 8192)).up = true := by
  simp [sweepOpen, engDie, and_assoc]

theorem exec_sweepRead (s : State) (k : Nat) (refErrs errs : List Int) :
    exec (.sweepRead k refErrs errs) s = .next (settle (sweepReadOp s k refErrs errs)) := rfl

theorem engAt_swept (s : State) (k : Nat) : engAt (swept s k) k = { engAt s k with freeAt := s.belv.tb + 128 } := by
  rw [swept, engAt_takeSlot, engAt_putEng_self]

theorem swept_plates (s : State) (k : Nat) : (swept s k).plates = s.plates := by rw [swept, takeSlot_plates, putEng_plates]

theorem swept_weights (s : State) (k : Nat) : (swept s k).weights = s.weights := by rw [swept, takeSlot_weights, putEng_weights]

section

variable {s : State} {k p : Nat} (hp : sweepPlate (dieAt s (k / 8192)).sweep.todo k = some p)

include hp

/-- A read under a live warning is discarded (R142). -/
theorem sweepRead_discarded (h : sweepOpen s k p (engAt s k) = true) (hs : (engAt s k).sel = p % 512) (hg : granted s k = true)
    (hw : (dieAt s (k / 8192)).warn ≠ 0) (refErrs errs : List Int) : ∃ t, exec (.sweepRead k refErrs errs) s = .next t ∧
      engAt t k = { engAt s k with freeAt := s.belv.tb + 128 } ∧ t.plates = s.plates := by
  have hop := sweepReadOp_discarded hp h hs hg hw refErrs errs
  refine ⟨_, congrArg done hop, ?_, ?_⟩
  · rw [(beside_settle _).engAt, engAt_swept]
  · rw [settle_plates, swept_plates]

/-- A read before a plate's last row appends the row's re-quantised codes (R141, R143). -/
theorem sweepRead_taken (h : sweepOpen s k p (engAt s k) = true) (hs : (engAt s k).sel = p % 512) (hg : granted s k = true)
    (hw : (dieAt s (k / 8192)).warn = 0) (hr : (engAt s k).swRow < 63) (refErrs errs : List Int) :
    let e := engAt s k
    let codes := dataCodes 2 (plateAt s p).remap (charges s p [(e.swRow, 127)]) errs
    ∃ t, exec (.sweepRead k refErrs errs) s = .next t ∧ (engAt t k).sel = e.sel ∧ (engAt t k).freeAt = s.belv.tb + 128 ∧
      (engAt t k).swRow = e.swRow + 1 ∧
      ((engAt t k).swCodes = e.swCodes ++ (codes.zipIdx).map fun c =>
        requant (levelNum (e.coef.getD (c.2 / 8) Coef.zero) c.1.code)) ∧ t.plates = s.plates := by
  intro e codes
  obtain ⟨f, a, b, c, r, hop⟩ := sweepReadOp_taken hp h hs hg hw hr refErrs errs
  have hcodes : dataCodes 2 (plateAt (swept s k) p).remap (charges (swept s k) p [(e.swRow, 127)]) errs = codes := by
    rw [charges_congr (swept_weights s k) (swept_plates s k), plateAt, swept_plates, ← plateAt]
  dsimp only at hop
  rw [engAt_swept, hcodes] at hop
  obtain ⟨v, hv⟩ : ∃ v, v = putEng (swept s k) k { e with
      freeAt := s.belv.tb + 128, swRow := e.swRow + 1, swLow := a, swData := b, swMin := c, swRef := r
      swCodes := e.swCodes ++ ((codes.zipIdx).map fun c => levelNum (e.coef.getD (c.2 / 8) Coef.zero) c.1.code).map requant } :=
    ⟨_, rfl⟩
  rw [← hv] at hop
  have heng : engAt (sweepReadOp s k refErrs errs) k = engAt v k := by
    rw [hop]
    split
    · exact engAt_modSweep ..
    · rfl
  have hvp : v.plates = s.plates := by rw [hv, putEng_plates, swept_plates]
  have hplates : (sweepReadOp s k refErrs errs).plates = s.plates := by
    rw [hop]
    split
    · exact hvp
    · exact hvp
  refine ⟨_, rfl, ?_⟩
  rw [(beside_settle _).engAt, heng, settle_plates, hplates, hv, engAt_putEng_self, List.map_map]
  exact ⟨rfl, rfl, rfl, rfl, rfl⟩

end

/-- Settles O53, one command at a time. -/
theorem verifySweeps : Obligations.VerifySweeps := by
  refine fun s hs => ⟨fun _ _ => verifySweep_waits, fun _ => sweepInterval_begins, fun k p refErrs errs _ hp => ?_⟩
  intro e codes
  refine ⟨fun hc => ?_, fun ha hc hd hcal hprog hf ht hu => ?_⟩
  · have hshut : sweepOpen s k p e = false := by
      by_contra hn
      simp [((sweepOpen_iff ..).mp (by simpa using hn)).2.1] at hc
    rw [exec_sweepRead, sweepReadOp_closed hp hshut, settle_of_nil hs]
  · have hopen : sweepOpen s k p e = true := (sweepOpen_iff ..).mpr ⟨ha, hc, hd, hcal, hprog, hf, ht, hu⟩
    refine ⟨fun hsel => ?_, fun hsel hg => ?_, fun hsel hg hw => sweepRead_discarded hp hopen hsel hg hw refErrs errs,
      fun hsel hg hw hr => sweepRead_taken hp hopen hsel hg hw hr refErrs errs⟩
    · rw [exec_sweepRead, sweepReadOp_change hp hopen hsel, settle_of_nil ((putEng_evq ..).trans hs)]
    · rw [exec_sweepRead, sweepReadOp_wait hp hopen hsel hg, settle_of_nil ((noteWait_evq ..).trans hs)]

end Sys2Proof.Laws
end

section
/-! Plates and write operations: what a sweep, a charge, a bad plate and the choice of the next job leave alone (R121 to R148). -/

namespace Sys2Proof.Laws

open Sys2Proof Sys2Proof.Machine

/-! ### Plates -/

theorem putPlate_eq (s : State) (p : Nat) (v : Plate) :
    ∃ u, putPlate s p v = { s with units := u, plates := tset Plate.zero s.plates p v } := by
  unfold putPlate
  dsimp only
  split <;> exact ⟨_, rfl⟩

@[simp] theorem plateAt_putPlate_self (s : State) (p : Nat) (v : Plate) : plateAt (putPlate s p v) p = v := by
  obtain ⟨u, hu⟩ := putPlate_eq s p v
  rw [hu]
  exact tget_tset_self ..

theorem plateAt_putPlate_other (s : State) {p q : Nat} (v : Plate) (h : p ≠ q) : plateAt (putPlate s p v) q = plateAt s q := by
  obtain ⟨u, hu⟩ := putPlate_eq s p v
  rw [hu]
  exact tget_tset_other _ _ _ _ h

theorem plateAt_congr {s t : State} (h : t.plates = s.plates) (p : Nat) : plateAt t p = plateAt s p := by
  rw [plateAt, h, plateAt]

/-! ### Aside of the work of the engines -/

/-- An engine without what a sweep and the calibration causes keep in it. -/
def workOf (e : Engine) : Engine :=
  { e with swRow := 0, swLow := 0, swData := 0, swMin := 0, swRef := false, swCodes := [], due := false, stale := false
           cause := .none, confGrp := [] }

/-- From `s` to `t` sweeps, requests, slots, banks and events may change, and which engines are due, but neither a plate, a cell, a
register nor the work of an engine. -/
structure Aside (s t : State) : Prop where
  plates : t.plates = s.plates
  weights : t.weights = s.weights
  belv : t.belv = s.belv
  wins : t.wins = s.wins
  pwr : t.pwr = s.pwr
  regs : t.regs = s.regs
  die : ∀ d, ∃ w, dieAt t d = { dieAt s d with sweep := w }
  eng : ∀ k, workOf (engAt t k) = workOf (engAt s k)

theorem Aside.refl (s : State) : Aside s s := ⟨rfl, rfl, rfl, rfl, rfl, rfl, fun _ => ⟨_, rfl⟩, fun _ => rfl⟩

theorem Aside.trans {s t u : State} (h : Aside s t) (k : Aside t u) : Aside s u := by
  refine ⟨k.plates.trans h.plates, k.weights.trans h.weights, k.belv.trans h.belv, k.wins.trans h.wins, k.pwr.trans h.pwr,
    k.regs.trans h.regs, fun d => ?_, fun j => (k.eng j).trans (h.eng j)⟩
  obtain ⟨w, hw⟩ := h.die d
  obtain ⟨v, hv⟩ := k.die d
  exact ⟨v, by rw [hv, hw]⟩

theorem Aside.ite {c : Prop} [Decidable c] {s t u : State} (ht : Aside s t) (hu : Aside s u) : Aside s (if c then t else u) := by
  split <;> assumption

/-- What is left aside of an update of other tables. -/
theorem Aside.update {s t : State} (hp : t.plates = s.plates) (hw : t.weights = s.weights) (hb : t.belv = s.belv)
    (hi : t.wins = s.wins) (hpw : t.pwr = s.pwr) (hr : t.regs = s.regs) (hd : t.dies = s.dies) (he : t.engines = s.engines) :
    Aside s t :=
  ⟨hp, hw, hb, hi, hpw, hr, fun d => ⟨(dieAt s d).sweep, by rw [dieAt, hd, ← dieAt]⟩, fun k => by rw [engAt_congr he hd]⟩

theorem aside_ev (s : State) (p b c : Nat) : Aside s (ev s p b c) := .update rfl rfl rfl rfl rfl rfl rfl rfl

theorem aside_putSlot (s : State) (k : Nat) (v : Slot) : Aside s (putSlot s k v) := .update rfl rfl rfl rfl rfl rfl rfl rfl

theorem aside_reqs {s t : State} (h : withReqs t [] = withReqs s []) : Aside s t :=
  .update (congrArg (fun u => u.plates) h) (congrArg (fun u => u.weights) h) (congrArg (fun u => u.belv) h)
    (congrArg (fun u => u.wins) h) (congrArg (fun u => u.pwr) h) (congrArg (fun u => u.regs) h) (congrArg (fun u => u.dies) h)
    (congrArg (fun u => u.engines) h)

theorem aside_modEng (s : State) (k : Nat) {f : Engine → Engine} (hf : ∀ e, workOf (f e) = workOf e) :
    Aside s (modEng s k f) := by
  refine ⟨rfl, rfl, rfl, rfl, rfl, rfl, fun _ => ⟨_, rfl⟩, fun j => ?_⟩
  by_cases h : k = j
  · rw [← h, engAt_modEng_self, hf]
  · rw [modEng, engAt_putEng_other s _ h]

theorem aside_putSweep (s : State) (d : Nat) (w : Sweep) : Aside s (putDie s d { dieAt s d with sweep := w }) := by
  refine ⟨rfl, rfl, rfl, rfl, rfl, rfl, fun c => ?_,
    fun k => congrArg workOf (engAt_putDie s (v := { dieAt s d with sweep := w }) rfl k)⟩
  by_cases h : d = c
  · exact ⟨w, by rw [← h, dieAt_putDie_self]⟩
  · exact ⟨_, dieAt_putDie_other s _ h⟩

theorem aside_modSweep (s : State) (d : Nat) (f : Sweep → Sweep) : Aside s (modSweep s d f) := aside_putSweep ..

theorem aside_setTodo (s : State) (d : Nat) (l again : List Nat) : Aside s (setTodo s d l again) := by
  refine (?_ : Aside s _).trans (aside_putSweep ..)
  refine List.foldlRecOn (motive := Aside s) _ _ (.refl s) fun u hu k _ => ?_
  exact .ite hu (hu.trans (aside_modEng u k fun _ => rfl))

theorem aside_reexamine (s : State) (d slot shard : Nat) : Aside s (reexamine s d slot shard) := by
  unfold reexamine
  dsimp only
  exact .ite ((aside_setTodo ..).trans (aside_putSweep ..)) (.refl s)

theorem aside_repairDone (s : State) (d slot shard tag : Nat) : Aside s (repairDone s d slot shard tag) := by
  unfold repairDone
  dsimp only
  exact .ite (.refl s) ((aside_setTodo ..).trans (aside_putSweep ..))

theorem aside_endPass (s : State) (d : Nat) : Aside s (endPass s d) :=
  (aside_modSweep s d _).trans (aside_reqs (sweepServe_rest ..))

theorem aside_leaveSweep (s : State) (d slot shard : Nat) (ks : List Nat) : Aside s (leaveSweep s d slot shard ks) := by
  have h := (aside_setTodo s d ((dieAt s d).sweep.todo.filter fun p => !ks.contains p)
      ks).trans (aside_modSweep _ d fun w => { w with
    buf := w.buf.filter fun b => !(b.slot == slot && b.shard == shard)
    plates := w.plates.filter fun p => !ks.contains p
    done := w.done.filter fun p => !ks.contains p
    repair := w.repair.filter fun r => r != (slot, shard) })
  exact .ite (h.trans (aside_endPass ..)) h

theorem aside_judgeStale (s : State) (k : Nat) : Aside s (judgeStale s k) := by
  obtain ⟨b, hb⟩ := judgeStale_eq s k
  have h : Aside s (putEng s k { engAt s k with stale := b }) := aside_modEng s k (f := fun e => { e with stale := b }) fun _ => rfl
  rw [hb]
  exact .ite (h.trans (aside_ev ..)) h

theorem calibrateDone_rest (s : State) (id : Nat) (l : Tab (Option Req)) : withReqs (calibrateDone s id) l = withReqs s l := by
  unfold calibrateDone
  split
  · split
    · exact modReq_rest ..
    · rfl
  · rfl

theorem foldl_calibrateDone_rest (s : State) (l : List Nat) : withReqs (l.foldl calibrateDone s) [] = withReqs s [] := by
  refine List.foldlRecOn (motive := fun u => withReqs u [] = withReqs s []) _ _ rfl fun u hu id _ => ?_
  rw [calibrateDone_rest, hu]

theorem aside_dropDue (s : State) (k : Nat) : Aside s (dropDue s k) := by
  have h := (aside_modEng s k (f := fun e => { e with due := false, cause := .none, confGrp := [] }) fun _ => rfl).trans
    (aside_judgeStale _ k)
  unfold dropDue
  split
  · exact .refl s
  · dsimp only
    refine h.trans ?_
    generalize judgeStale (modEng s k fun e => { e with due := false, cause := .none, confGrp := [] }) k = u
    exact (aside_reqs (s := u) rfl).trans (aside_reqs (foldl_calibrateDone_rest ..))

theorem aside_programFail (s : State) (d slot shard : Nat) : Aside s (programFail s d slot shard) :=
  (aside_putSlot ..).trans (aside_putSlot ..)

/-! ### Charges of the banks -/

theorem chargeBank_eq (s : State) (b n : Nat) (f : Bank → Bank) :
    ∃ q, chargeBank s b n f = { putBank s b { f (bankAt s b) with wear := (bankAt s b).wear + n } with evq := q } := by
  unfold chargeBank
  dsimp only
  (repeat' split) <;> exact ⟨_, rfl⟩

theorem bankAt_chargeBank_self (s : State) (b n : Nat) (f : Bank → Bank) :
    bankAt (chargeBank s b n f) b = { f (bankAt s b) with wear := (bankAt s b).wear + n } := by
  obtain ⟨q, hq⟩ := chargeBank_eq s b n f
  rw [hq]
  exact tget_tset_self ..

theorem aside_chargeBank (s : State) (b n : Nat) (f : Bank → Bank) : Aside s (chargeBank s b n f) := by
  obtain ⟨q, hq⟩ := chargeBank_eq s b n f
  rw [hq]
  exact .update rfl rfl rfl rfl rfl rfl rfl rfl

theorem aside_chargeErase (s : State) (k : Nat) (j : Job) : Aside s (chargeErase s k j) := by
  unfold chargeErase
  dsimp only
  exact .ite (.ite (.refl s) (aside_chargeBank ..)) (.ite (.refl s) (aside_chargeBank ..))

theorem aside_chargeTouch (s : State) (k : Nat) (j : Job) : Aside s (chargeTouch s k j) :=
  .ite (.refl s) (aside_chargeBank ..)

/-- A touch-up adds 1 to its bank's count at most (R135). -/
theorem wear_chargeTouch (s : State) (k : Nat) (j : Job) :
    (bankAt (chargeTouch s k j) (k * 8 + j.plate / 64)).wear ≤ (bankAt s (k * 8 + j.plate / 64)).wear + 1 := by
  unfold chargeTouch
  dsimp only
  split
  · exact Nat.le_succ _
  · rw [bankAt_chargeBank_self]

end Sys2Proof.Laws
end

section
/-! Programming a plate (R121 to R139, R148): how a write operation is charged and begins, and the touch-up. -/

namespace Sys2Proof.Laws

open Sys2Proof Sys2Proof.Machine

/-! ### Changes of one engine -/

theorem pgPrg0_ne_pgDie (d c : Nat) : pgPrg0 d ≠ pgDie c := by
  unfold pgPrg0 pgDie diePage
  omega

theorem pgPrg0_ne_pgCstat (d c : Nat) : pgPrg0 d ≠ pgCstat c := by
  unfold pgPrg0 pgCstat corePage diePage
  omega

theorem pgPwr_ne_pgDie (d : Nat) : pgPwr ≠ pgDie d := by
  unfold pgPwr pgDie diePage
  omega

theorem pgPwr_ne_pgCstat (c : Nat) : pgPwr ≠ pgCstat c := by
  unfold pgPwr pgCstat corePage
  omega

/-- From `s` to `t` engine `k` changes, with counters of dies and cores, and nothing else does. -/
structure EngineOnly (k : Nat) (s t : State) : Prop where
  plates : t.plates = s.plates
  weights : t.weights = s.weights
  belv : t.belv = s.belv
  wins : t.wins = s.wins
  pwr : t.pwr = s.pwr
  dies : t.dies = s.dies
  banks : t.banks = s.banks
  evq : t.evq = s.evq
  regs : ∀ p o, o < 4096 → (∀ d, p ≠ pgDie d) → (∀ c, p ≠ pgCstat c) → rget t p o = rget s p o
  rest : tdel t.engines k = tdel s.engines k

theorem EngineOnly.refl (k : Nat) (s : State) : EngineOnly k s s :=
  ⟨rfl, rfl, rfl, rfl, rfl, rfl, rfl, rfl, fun _ _ _ _ _ => rfl, rfl⟩

theorem EngineOnly.trans {k : Nat} {s t u : State} (h : EngineOnly k s t) (g : EngineOnly k t u) : EngineOnly k s u :=
  ⟨g.plates.trans h.plates, g.weights.trans h.weights, g.belv.trans h.belv, g.wins.trans h.wins, g.pwr.trans h.pwr,
    g.dies.trans h.dies, g.banks.trans h.banks, g.evq.trans h.evq,
    fun p o h1 h2 h3 => (g.regs p o h1 h2 h3).trans (h.regs p o h1 h2 h3), g.rest.trans h.rest⟩

theorem tdel_tins_self {α : Type} {t : Tab α} {k : Nat} (v : α) (h : ∀ e ∈ t, e.1 ≠ k) : tdel (tins t k v) k = t := by
  induction t with
  | nil => simp [tins, tdel]
  | cons e t ih =>
    have he : e.1 ≠ k := h e (.head _)
    have ht : tdel t k = t := List.filter_eq_self.mpr fun x hx => by simpa using h x (.tail _ hx)
    unfold tins
    split
    · simpa [tdel, he] using ht
    · simpa [tdel, he] using ih fun x hx => h x (.tail _ hx)

/-- Without its entry, a table does not tell what was written there. -/
theorem tdel_tset_self {α : Type} [DecidableEq α] (d : α) (t : Tab α) (k : Nat) (v : α) : tdel (tset d t k v) k = tdel t k := by
  unfold tset
  split
  · simp [tdel]
  · exact tdel_tins_self v fun e he => (mem_tdel.mp he).2

theorem engineOnly_modEng (s : State) (k : Nat) (f : Engine → Engine) : EngineOnly k s (modEng s k f) :=
  ⟨rfl, rfl, rfl, rfl, rfl, rfl, rfl, rfl, fun _ _ _ _ _ => rfl, tdel_tset_self ..⟩

theorem engineOnly_countDie (k : Nat) (s : State) (d n : Nat) : EngineOnly k s (count64 s (pgDie d) 0x44 n) := by
  refine ⟨?_, ?_, ?_, ?_, ?_, ?_, ?_, ?_, fun p o ho hd _ => rget_count64_page _ _ (hd _) (by omega) ho, ?_⟩
  all_goals simp

theorem engineOnly_countCore (k : Nat) (s : State) (c n : Nat) : EngineOnly k s (count s (pgCstat c) 0x64 n) :=
  ⟨rfl, rfl, rfl, rfl, rfl, rfl, rfl, rfl, fun _ _ ho _ hc => rget_count_page _ _ (hc _) (by omega) ho, rfl⟩

theorem engineOnly_chargeWrite (s : State) (k : Nat) : EngineOnly k s (chargeWrite s k) := by
  unfold chargeWrite
  dsimp only
  split
  · exact .refl k s
  · exact .trans (engineOnly_modEng ..) (engineOnly_countDie ..)

theorem engineOnly_selectPlate (s : State) (k p : Nat) : EngineOnly k s (selectPlate s k p) := by
  unfold selectPlate
  dsimp only
  split
  · exact .refl k s
  · exact .trans (engineOnly_modEng s k fun e => { e with sel := p }) (engineOnly_countCore ..)

theorem engAt_chargeWrite (s : State) (k : Nat) :
    engAt (chargeWrite s k) k = { engAt s k with charged := s.belv.tb / 1000 + 1 } := by
  unfold chargeWrite
  dsimp only
  split
  · next h => rw [← h]
  · rw [engAt_count64, engAt_modEng_self]

theorem engAt_selectPlate (s : State) (k p : Nat) : engAt (selectPlate s k p) k = { engAt s k with sel := p } := by
  unfold selectPlate
  dsimp only
  split
  · next h => rw [← h]
  · rw [engAt_count, engAt_putEng_self]

/-- The state in which an engine's operation on a plate is charged and has its plate selected. -/
def worked (s : State) (k p : Nat) : State := selectPlate (chargeWrite s k) k p

theorem engineOnly_worked (s : State) (k p : Nat) : EngineOnly k s (worked s k p) :=
  (engineOnly_chargeWrite s k).trans (engineOnly_selectPlate ..)

theorem engAt_worked (s : State) (k p : Nat) :
    engAt (worked s k p) k = { engAt s k with sel := p, charged := s.belv.tb / 1000 + 1 } := by
  rw [worked, engAt_selectPlate, engAt_chargeWrite]

theorem EngineOnly.plateAt {k : Nat} {s t : State} (h : EngineOnly k s t) (p : Nat) : plateAt t p = plateAt s p :=
  plateAt_congr h.plates p

theorem EngineOnly.dieAt {k : Nat} {s t : State} (h : EngineOnly k s t) (d : Nat) : dieAt t d = dieAt s d := by
  rw [Machine.dieAt, h.dies, Machine.dieAt]

theorem EngineOnly.bankAt {k : Nat} {s t : State} (h : EngineOnly k s t) (b : Nat) : bankAt t b = bankAt s b := by
  rw [Machine.bankAt, h.banks, Machine.bankAt]

theorem EngineOnly.retired {k : Nat} {s t : State} (h : EngineOnly k s t) (b : Nat) : retired t b = retired s b := by
  rw [Machine.retired, h.bankAt, Machine.retired]

theorem EngineOnly.prg0 {k : Nat} {s t : State} (h : EngineOnly k s t) (d : Nat) {o : Nat} (ho : o < 4096) :
    rget t (pgPrg0 d) o = rget s (pgPrg0 d) o := h.regs _ _ ho (pgPrg0_ne_pgDie d) (pgPrg0_ne_pgCstat d)

theorem EngineOnly.pgPwr {k : Nat} {s t : State} (h : EngineOnly k s t) {o : Nat} (ho : o < 4096) :
    rget t pgPwr o = rget s pgPwr o := h.regs _ _ ho pgPwr_ne_pgDie pgPwr_ne_pgCstat

/-! ### A program begins (R124, R372) -/

/-- A state whose plate of a job is written as one that the job programs. -/
theorem beginProgram_aside (s : State) (k : Nat) (j : Job) : ∃ v u, v.st = .programming ∧ v.owner = j.slot ∧ v.shard = j.shard ∧
    Aside (putPlate s (k * 512 + j.plate) v) u ∧ Aside (modEng u k fun e => { e with prog := some (Prog.start j) })
      (beginProgram s k j) :=
  ⟨_, _, rfl, rfl, rfl, aside_chargeErase .., (aside_dropDue ..).trans (aside_reexamine ..)⟩

theorem plateAt_modEng (s : State) (k : Nat) (f : Engine → Engine) (p : Nat) : plateAt (modEng s k f) p = plateAt s p := rfl

theorem Aside.plateAt {s t : State} (h : Aside s t) (p : Nat) : plateAt t p = plateAt s p := plateAt_congr h.plates p

theorem Aside.jobs {s t : State} (h : Aside s t) (k : Nat) : (engAt t k).jobs = (engAt s k).jobs :=
  (congrArg Engine.jobs (h.eng k) :)

theorem Aside.prog {s t : State} (h : Aside s t) (k : Nat) : (engAt t k).prog = (engAt s k).prog :=
  (congrArg Engine.prog (h.eng k) :)

theorem engAt_putPlate (s : State) (p : Nat) (v : Plate) (k : Nat) : engAt (putPlate s p v) k = engAt s k := by
  obtain ⟨u, hu⟩ := putPlate_eq s p v
  rw [hu]
  rfl

/-- What a job that begins leaves: its program in progress, and its plate PROGRAMMING. -/
structure ProgramBegun (s : State) (k : Nat) (j : Job) (t : State) : Prop where
  prog : (engAt t k).prog = some (Prog.start j)
  jobs : (engAt t k).jobs = (engAt s k).jobs
  st : (plateAt t (k * 512 + j.plate)).st = .programming
  owner : (plateAt t (k * 512 + j.plate)).owner = j.slot
  shard : (plateAt t (k * 512 + j.plate)).shard = j.shard
  others : ∀ p, p ≠ k * 512 + j.plate → plateAt t p = plateAt s p

theorem beginProgram_begun (s : State) (k : Nat) (j : Job) : ProgramBegun s k j (beginProgram s k j) := by
  obtain ⟨v, u, hst, howner, hshard, hu, ht⟩ := beginProgram_aside s k j
  have hkey : plateAt (beginProgram s k j) (k * 512 + j.plate) = v := by
    rw [ht.plateAt, plateAt_modEng, hu.plateAt, plateAt_putPlate_self]
  refine ⟨?_, ?_, hkey ▸ hst, hkey ▸ howner, hkey ▸ hshard, fun p hp => ?_⟩
  · rw [ht.prog, engAt_modEng_self]
  · rw [ht.jobs, engAt_modEng_self]
    exact (hu.jobs k).trans (by rw [engAt_putPlate])
  · rw [ht.plateAt, plateAt_modEng, hu.plateAt, plateAt_putPlate_other _ _ (Ne.symm hp)]

/-- The engine with its head job taken, charged for the microsecond. -/
def jobTaken (s : State) (k : Nat) (l : List Job) : State := chargeWrite (modEng s k fun e => { e with jobs := l }) k

theorem engineOnly_jobTaken (s : State) (k : Nat) (l : List Job) : EngineOnly k s (jobTaken s k l) :=
  (engineOnly_modEng s k _).trans (engineOnly_chargeWrite ..)

theorem engAt_jobTaken (s : State) (k : Nat) (l : List Job) :
    engAt (jobTaken s k l) k = { engAt s k with jobs := l, charged := s.belv.tb / 1000 + 1 } := by
  rw [jobTaken, engAt_chargeWrite, engAt_modEng_self]
  rfl

section
variable {s : State} {k : Nat} {j : Job} {l : List Job}

theorem programBeginOp_wait (hj : (engAt s k).jobs = j :: l) (hm : mayWrite s k = true) (ht : j.touch = false)
    (hf : writeFits s k = false) : programBeginOp s k = noteWait s (k / 8192) := by
  simp only [programBeginOp, hj, hm, touchGone, ht, hf]
  rfl

theorem programBeginOp_program (hj : (engAt s k).jobs = j :: l) (hm : mayWrite s k = true) (ht : j.touch = false)
    (hf : writeFits s k = true) (hr : retired s (k * 8 + j.plate / 64) = false) :
    programBeginOp s k = beginProgram (jobTaken s k l) k j := by
  have hr' : retired (chargeWrite (modEng s k fun e => { e with jobs := l }) k) (k * 8 + j.plate / 64) = false :=
    ((engineOnly_jobTaken s k l).retired _).trans hr
  simp only [programBeginOp, hj, hm, touchGone, ht, hf]
  simp [hr', jobTaken]

theorem programBeginOp_touch (hj : (engAt s k).jobs = j :: l) (hm : mayWrite s k = true) (ht : j.touch = true)
    (hs : (plateAt s (k * 512 + j.plate)).st = .valid ∨ (plateAt s (k * 512 + j.plate)).st = .drifted)
    (hf : writeFits s k = true) : programBeginOp s k = beginTouch (jobTaken s k l) k j := by
  have hg : touchGone s k j = false := by
    rcases hs with h | h <;> simp [touchGone, h]
  simp [programBeginOp, hj, hm, hg, hf, ht, jobTaken]

end

theorem settle_eng (s : State) (k : Nat) : engAt (settle s) k = engAt s k := (beside_settle s).engAt k

theorem settle_plate (s : State) (p : Nat) : plateAt (settle s) p = plateAt s p := plateAt_congr (settle_plates s) p

end Sys2Proof.Laws
end

section
/-! The slots that write operations take of a microsecond's budget, and the gates before a touch-up (R131, R148, R372). -/

namespace Sys2Proof.Laws

open Sys2Proof Sys2Proof.Machine

/-! ### The load of the engines on a die's budget (R372, R373) -/

/-- What the listed engines of a die add up to. -/
def load (f : Nat × Engine → Nat) (d : Nat) (t : Tab Engine) : Nat := ((t.filter fun x => engDie x.1 == d).map f).sum

section
variable (f : Nat × Engine → Nat) (d : Nat)

theorem load_cons (x : Nat × Engine) (t : Tab Engine) : load f d (x :: t) = (if engDie x.1 = d then f x else 0) + load f d t := by
  by_cases h : engDie x.1 = d <;> simp [load, h]

theorem load_tins_le (t : Tab Engine) (k : Nat) (v : Engine) : load f d (tins t k v) ≤ load f d t + f (k, v) := by
  induction t with
  | nil => rw [tins, load_cons]; split <;> omega
  | cons x t ih =>
    obtain ⟨i, w⟩ := x
    unfold tins
    split
    · rw [load_cons f d (k, v)]; split <;> omega
    · rw [load_cons, load_cons]; omega

theorem load_tdel_le (t : Tab Engine) (k : Nat) : load f d (tdel t k) ≤ load f d t := by
  induction t with
  | nil => exact le_rfl
  | cons x t ih =>
    unfold tdel at ih ⊢
    rw [List.filter_cons, load_cons]
    split
    · rw [load_cons]; omega
    · omega

theorem load_tset_le (c : Engine) (t : Tab Engine) (k : Nat) (v : Engine) :
    load f d (tset c t k v) ≤ load f d (tdel t k) + f (k, v) := by
  unfold tset
  split
  · omega
  · exact load_tins_le ..

/-- An engine that is listed counts in its die's load. -/
theorem load_tdel_add_le (c : Engine) {t : Tab Engine} {k : Nat} {v : Engine} (hk : engDie k = d) (h : (k, v) ∈ t) :
    load f d (tdel t k) + f (k, tget c t k) ≤ load f d t := by
  induction t with
  | nil => simp at h
  | cons x t ih =>
    have hle := load_tdel_le f d t k
    unfold tdel at ih hle ⊢
    rw [List.filter_cons, load_cons]
    by_cases hx : x.1 = k
    · obtain ⟨i, w⟩ := x
      obtain rfl : i = k := hx
      simp only [bne_self_eq_false, Bool.false_eq_true, if_false, tget, if_true, hk]
      omega
    · have hm : (k, v) ∈ t := (List.mem_cons.mp h).resolve_left fun e => hx (congrArg Prod.fst e).symm
      have := ih hm
      simp only [bne_iff_ne, ne_eq, hx, not_false_eq_true, if_true, tget, if_false, load_cons]
      omega

end

theorem sweepIdle_idem (e : Engine) : e.sweepIdle.sweepIdle = e.sweepIdle := rfl

/-- What a pass of the engines of a die whose sweep reads are dropped keeps, from `s` to `t`: the load, the dies, and that each
engine of `l` is listed or has none to drop. -/
structure Dropped (f : Nat × Engine → Nat) (d : Nat) (l : List Nat) (s t : State) : Prop where
  load : load f d t.engines ≤ load f d s.engines
  dies : t.dies = s.dies
  listed : ∀ k ∈ l, (∃ v, (k, v) ∈ t.engines) ∨ (dieAt s (k / 8192)).proto.sweepIdle = (dieAt s (k / 8192)).proto

section
variable {f : Nat × Engine → Nat} {d : Nat} {l : List Nat} {s u : State} {k : Nat}

theorem mem_tset_self {α : Type} [DecidableEq α] {c v : α} (t : Tab α) (k : Nat) (h : v ≠ c) : (k, v) ∈ tset c t k v := by
  rw [tset, if_neg h, mem_tins]
  exact .inl rfl

theorem mem_tset_other {α : Type} [DecidableEq α] {c v w : α} {t : Tab α} {k i : Nat} (h : i ≠ k) (hm : (i, w) ∈ t) :
    (i, w) ∈ tset c t k v := by
  have hd : (i, w) ∈ tdel t k := mem_tdel.mpr ⟨hm, h⟩
  unfold tset
  split
  · exact hd
  · exact mem_tins.mpr (.inr hd)

theorem tget_unlisted {α : Type} {c : α} {t : Tab α} {k : Nat} (h : ¬∃ v, (k, v) ∈ t) : tget c t k = c := by
  by_contra hn
  exact h ⟨_, mem_of_tget rfl hn⟩

theorem Dropped.sweepIdle (hf : ∀ i e, f (i, e.sweepIdle) = f (i, e)) (h : Dropped f d l s u) (hk : engDie k = d)
    (hl : k ∈ l) : Dropped f d l s (modEng u k Engine.sweepIdle) := by
  have hproto : dieAt u (k / 8192) = dieAt s (k / 8192) := by rw [dieAt, h.dies, dieAt]
  refine ⟨?_, h.dies, fun i hi => ?_⟩
  · refine le_trans ?_ h.load
    by_cases hm : ∃ v, (k, v) ∈ u.engines
    · obtain ⟨v, hv⟩ := hm
      refine le_trans (load_tset_le ..) ?_
      rw [hf]
      exact load_tdel_add_le f d _ hk hv
    · have hi := (h.listed k hl).resolve_left hm
      have hv : (engAt u k).sweepIdle = (dieAt u (k / 8192)).proto := by rw [engAt, tget_unlisted hm, hproto, hi]
      rw [modEng, putEng, hv, tset, if_pos rfl]
      exact load_tdel_le ..
  · by_cases hik : i = k
    · subst hik
      by_cases hv : (engAt u i).sweepIdle = (dieAt u (i / 8192)).proto
      · exact .inr (by rw [← hproto, ← hv, sweepIdle_idem])
      · exact .inl ⟨_, mem_tset_self _ _ hv⟩
    · exact (h.listed i hi).imp_left fun ⟨w, hw⟩ => ⟨w, mem_tset_other hik hw⟩

/-- The engines of a die some of whose sweep reads are taken. -/
def sweepers (s : State) (d : Nat) : List Nat := keysOf ((dieEngines s d).filter fun x => x.2.swRow != 0)

theorem dropped_foldl (hf : ∀ i e, f (i, e.sweepIdle) = f (i, e)) (s : State) (d : Nat) (p : Nat → Bool) :
    Dropped f d (sweepers s d) s ((sweepers s d).foldl (fun u k => if p k then u else modEng u k Engine.sweepIdle) s) := by
  have hkeys : ∀ k ∈ sweepers s d, engDie k = d ∧ ∃ v, (k, v) ∈ s.engines := by
    intro k hk
    obtain ⟨⟨i, v⟩, hx, rfl⟩ := List.mem_map.mp hk
    obtain ⟨hm, hd⟩ := List.mem_filter.mp (List.mem_filter.mp hx).1
    exact ⟨by simpa using hd, v, hm⟩
  refine List.foldlRecOn (motive := Dropped f d _ s) _ _ ⟨le_rfl, rfl, fun k hk => .inl (hkeys k hk).2⟩ fun u hu k hk => ?_
  split
  · exact hu
  · exact hu.sweepIdle hf (hkeys k hk).1 hk

/-- A die's load stays while the plates that await examination change, where sweep reads do not count in it. -/
theorem load_setTodo (hf : ∀ i e, f (i, e.sweepIdle) = f (i, e)) (s : State) (d : Nat) (l again : List Nat) :
    load f d (setTodo s d l again).engines ≤ load f d s.engines :=
  (dropped_foldl hf s d _).load

theorem load_reexamine (hf : ∀ i e, f (i, e.sweepIdle) = f (i, e)) (s : State) (d slot shard : Nat) :
    load f d (reexamine s d slot shard).engines ≤ load f d s.engines := by
  unfold reexamine
  dsimp only
  split
  · exact load_setTodo hf ..
  · exact le_rfl

end

/-! ### What the gates of a write operation read (R131, R132, R372) -/

/-- The states `s` and `t` agree in what the gates of a write operation read beside the engines. -/
structure SameGates (s t : State) : Prop where
  belv : t.belv = s.belv
  wins : t.wins = s.wins
  pwr : t.pwr = s.pwr
  mode : ∀ d, rget t (pgPrg0 d) 0x40 = rget s (pgPrg0 d) 0x40
  limit : rget t pgPwr 0x44 = rget s pgPwr 0x44
  die : ∀ d, ∃ w, dieAt t d = { dieAt s d with sweep := w }

theorem SameGates.trans {s t u : State} (h : SameGates s t) (g : SameGates t u) : SameGates s u := by
  refine ⟨g.belv.trans h.belv, g.wins.trans h.wins, g.pwr.trans h.pwr, fun d => (g.mode d).trans (h.mode d),
    g.limit.trans h.limit, fun d => ?_⟩
  obtain ⟨w, hw⟩ := h.die d
  obtain ⟨v, hv⟩ := g.die d
  exact ⟨v, by rw [hv, hw]⟩

theorem Aside.gates {s t : State} (h : Aside s t) : SameGates s t :=
  ⟨h.belv, h.wins, h.pwr, fun _ => rget_of_regs h.regs _ _, rget_of_regs h.regs _ _, h.die⟩

theorem EngineOnly.gates {k : Nat} {s t : State} (h : EngineOnly k s t) : SameGates s t :=
  ⟨h.belv, h.wins, h.pwr, fun d => h.prg0 d (by omega), h.pgPwr (by omega), fun d => ⟨_, h.dieAt d⟩⟩

section
variable {s t : State} (h : SameGates s t)
include h

theorem SameGates.prgMode (d : Nat) : prgMode t d = prgMode s d := by rw [Machine.prgMode, rfld, h.mode, Machine.prgMode, rfld]

theorem SameGates.budget (d : Nat) : budget t d = budget s d := by
  obtain ⟨w, hw⟩ := h.die d
  unfold Machine.budget rfld
  rw [h.limit, hw]

theorem SameGates.slotsUsed (d : Nat) : slotsUsed t d = slotsUsed s d := by
  obtain ⟨w, hw⟩ := h.die d
  unfold Machine.slotsUsed
  rw [h.belv, hw]

theorem SameGates.writeHeld (d : Nat) : writeHeld t d = writeHeld s d := by
  obtain ⟨w, hw⟩ := h.die d
  unfold Machine.writeHeld supHeld hotHeld
  rw [h.prgMode, hw, h.pwr, h.belv]

theorem SameGates.givesWay (k : Nat) (e : Engine) : givesWay t k e = givesWay s k e := by
  unfold Machine.givesWay readReady covered
  rw [h.prgMode, h.wins, h.belv]

theorem SameGates.opRunning (k : Nat) (e : Engine) : opRunning t k e = opRunning s k e := by
  unfold Machine.opRunning awake
  rw [h.pwr, h.writeHeld, h.givesWay]

theorem SameGates.writeSlots (k : Nat) (e : Engine) : writeSlots t k e = writeSlots s k e := by
  unfold Machine.writeSlots
  rw [h.opRunning, h.belv]

end

theorem givesWay_workOf (s : State) (k : Nat) (e : Engine) : givesWay s k (workOf e) = givesWay s k e := rfl

/-- The slots of a microsecond that an engine's write operation and calibration take. -/
def taken (s : State) (x : Nat × Engine) : Nat :=
  writeSlots s x.1 x.2 +
    (match x.2.calEnd with | some t => (calReads x.2.calDone t (s.belv.tb / 1000)).length | none => 0)

theorem slotsAhead_eq (s : State) (d : Nat) : slotsAhead s d = load (taken s) d s.engines := rfl

theorem SameGates.taken {s t : State} (h : SameGates s t) : taken t = taken s := by
  funext x
  unfold Laws.taken
  rw [h.writeSlots, h.belv]

/-- An operation of an engine with no calibration begun is within the budget where the die has not used it up without it. -/
theorem writeFits_of_load {s t : State} {k : Nat} (h : SameGates s t) (hc : (engAt t k).calEnd = none)
    (hl : load (taken s) (engDie k) t.engines ≤ load (taken s) (engDie k) s.engines + taken s (k, engAt t k))
    (hb : slotsUsed s (k / 8192) + slotsAhead s (k / 8192) < budget s (k / 8192)) : writeFits t k = true := by
  have ht : taken s (k, engAt t k) = writeSlots s k (engAt t k) := by simp [taken, hc]
  rw [ht, show engDie k = k / 8192 from rfl] at hl
  rw [slotsAhead_eq] at hb
  refine decide_eq_true ?_
  show slotsUsed t (k / 8192) + slotsAhead t (k / 8192) - writeSlots t k (engAt t k) < Machine.budget t (k / 8192)
  rw [slotsAhead_eq, h.taken, h.slotsUsed, h.budget, h.writeSlots]
  omega

end Sys2Proof.Laws
end

section
/-! Programs and touch-ups that begin and end (R124, R135, R139, R148, R372). -/

namespace Sys2Proof.Laws

open Sys2Proof Sys2Proof.Machine

/-! ### The end of a program or touch-up (R124, R148) -/

/-- The cells of a plate with codes stored from its first on. -/
def storeCodes (t : Tab Byte) (key : Nat) (codes : List Int) : Tab Byte :=
  (codes.zipIdx).foldl (fun t c => tset 0 t (key * 4096 + c.2) (BitVec.ofInt 8 c.1)) t

/-- A plate whose operation completes. -/
def doneAt (x : Plate) (now : Nat) (touch : Bool) (remap : W32) : Plate :=
  { x with st := if touch then x.st else .valid, remap := remap, tb := now, ref := true, lowFlag := touch && x.lowFlag }

theorem plateDone_aside (s : State) (k p : Nat) (touch : Bool) (codes : List Int) (remap : W32) :
    Aside (modEng { putPlate s (k * 512 + p) (doneAt (plateAt s (k * 512 + p)) s.belv.tb touch remap) with
        weights := storeCodes s.weights (k * 512 + p) codes } k fun e =>
        { e with coef := e.coef.map fun c => { c with cured := false } })
      (plateDone s k p touch codes remap) := by
  obtain ⟨u, hu⟩ := putPlate_eq s (k * 512 + p) (doneAt (plateAt s (k * 512 + p)) s.belv.tb touch remap)
  have hw : (putPlate s (k * 512 + p) (doneAt (plateAt s (k * 512 + p)) s.belv.tb touch remap)).weights = s.weights := by rw [hu]
  unfold plateDone
  dsimp only
  split
  · next h =>
    subst h
    have he : ∀ v : State, v.weights = s.weights → { v with weights := storeCodes s.weights (k * 512 + p) [] } = v := by
      rintro v hv
      show { v with weights := s.weights } = v
      rw [← hv]
    rw [he _ hw]
    exact aside_reexamine ..
  · rw [← hw]
    exact aside_reexamine ..

/-- What an operation of plate `p` that has completed leaves. -/
structure PlateDone (s : State) (k p : Nat) (touch : Bool) (codes : List Int) (t : State) : Prop where
  st : (plateAt t (k * 512 + p)).st = if touch then (plateAt s (k * 512 + p)).st else .valid
  tb : (plateAt t (k * 512 + p)).tb = s.belv.tb
  jobs : (engAt t k).jobs = (engAt s k).jobs
  prog : (engAt t k).prog = (engAt s k).prog
  weights : t.weights = storeCodes s.weights (k * 512 + p) codes
  regs : t.regs = s.regs

theorem plateDone_done (s : State) (k p : Nat) (touch : Bool) (codes : List Int) (remap : W32) :
    PlateDone s k p touch codes (plateDone s k p touch codes remap) := by
  have h := plateDone_aside s k p touch codes remap
  obtain ⟨u, hu⟩ := putPlate_eq s (k * 512 + p) (doneAt (plateAt s (k * 512 + p)) s.belv.tb touch remap)
  rw [hu] at h
  have hp : plateAt (plateDone s k p touch codes remap) (k * 512 + p) = doneAt (plateAt s (k * 512 + p)) s.belv.tb touch remap :=
    (h.plateAt _).trans (tget_tset_self ..)
  refine ⟨by rw [hp]; rfl, by rw [hp]; rfl, (h.jobs k).trans ?_, (h.prog k).trans ?_, h.weights, h.regs⟩
  all_goals
    rw [engAt_modEng_self]
    rfl

theorem PlateDone.aside {s t u : State} {k p : Nat} {touch : Bool} {codes : List Int} (h : PlateDone s k p touch codes t)
    (g : Aside t u) : PlateDone s k p touch codes u :=
  ⟨by rw [g.plateAt, h.st], by rw [g.plateAt, h.tb], (g.jobs k).trans h.jobs, (g.prog k).trans h.prog, g.weights.trans h.weights,
    g.regs.trans h.regs⟩

/-! ### The outcome of a touch-up (R148) -/

section
variable (e : Engine) (x : Plate) (j : Job) (v b a : List Int)

/-- The target of a cell of a plate for a job. -/
def cellTarget (i : Nat) : Int := target j.codes x.remap (i / 160) (i % 160)

/-- Whether a cell reads above its target. -/
def cellHigh (i : Nat) : Bool := cellOver j.codes x.remap (i / 160) (i % 160) ((levels e v).getD i 0)

/-- The cells of a plate that a job touches up. -/
def touchCells : List Nat := (List.range 10240).filter fun i => touches j (i % 160)

/-- Whether a touch-up finds or leaves a cell above its target, or leaves short one that was low. -/
def touchFails : Bool :=
  (touchCells j).any (fun i => cellHigh e x j b i || cellHigh e x j a i) ||
  ((touchCells j).filter fun i => decide (0 < cellTarget x j i) && levelLow (cellTarget x j i) ((levels e b).getD i 0)).any
    fun i => !levelPass (cellTarget x j i) ((levels e a).getD i 0)

theorem finishTouch_eq (s : State) (k : Nat) :
    finishTouch s k j b a =
      if touchFails (engAt s k) (plateAt s (k * 512 + j.plate)) j b a && !retired s (k * 8 + j.plate / 64) then
        beginProgram (modEng s k fun e => { e with prog := none }) k { j with touch := false, refOnly := false }
      else repairDone (plateDone (count (modEng s k fun e => { e with prog := none }) (pgPrg0 (engDie k)) 0x6C 1) k j.plate true
        (if j.refOnly then [] else j.codes) (plateAt s (k * 512 + j.plate)).remap) (engDie k) j.slot j.shard j.tag := rfl

theorem touchFails_eq_false (h : ∀ i, i < 10240 → touches j (i % 160) = true → cellHigh e x j b i = false ∧
    cellHigh e x j a i = false ∧ (0 < cellTarget x j i → levelLow (cellTarget x j i) ((levels e b).getD i 0) = true →
      levelPass (cellTarget x j i) ((levels e a).getD i 0) = true)) : touchFails e x j b a = false := by
  have hc : ∀ i ∈ touchCells j, i < 10240 ∧ touches j (i % 160) = true := fun i hi => by simpa [touchCells] using hi
  refine Bool.or_eq_false_iff.mpr ⟨List.any_eq_false.mpr fun i hi => ?_, List.any_eq_false.mpr fun i hi => ?_⟩
  · obtain ⟨hb, ha, -⟩ := h i (hc i hi).1 (hc i hi).2
    simp [hb, ha]
  · obtain ⟨hm, hl⟩ := List.mem_filter.mp hi
    obtain ⟨h0, hlow⟩ := Bool.and_eq_true_iff.mp hl
    rw [(h i (hc i hm).1 (hc i hm).2).2.2 (of_decide_eq_true h0) hlow]
    decide

theorem touchFails_of_high {i : Nat} (hi : i < 10240) (ht : touches j (i % 160) = true) (hh : cellHigh e x j b i = true) :
    touchFails e x j b a = true := by
  have hm : i ∈ touchCells j := by simp [touchCells, hi, ht]
  rw [touchFails, List.any_eq_true.mpr ⟨i, hm, by simp [hh]⟩, Bool.true_or]

end

/-! ### A touch-up begins (R135, R148) -/

theorem chargeTouch_eq (s : State) (k : Nat) (j : Job) : ∃ b q, chargeTouch s k j = { s with banks := b, evq := q } := by
  unfold chargeTouch
  dsimp only
  split
  · exact ⟨_, _, rfl⟩
  · obtain ⟨q, hq⟩ := chargeBank_eq s (k * 8 + j.plate / 64) 1 fun x => { x with touch := j.tag :: x.touch }
    exact ⟨_, q, hq⟩

theorem setTodo_banks (s : State) (d : Nat) (l again : List Nat) : (setTodo s d l again).banks = s.banks := by
  unfold setTodo
  show State.banks (List.foldl _ s _) = s.banks
  refine List.foldlRecOn (motive := fun u : State => u.banks = s.banks) _ _ rfl fun u hu k _ => ?_
  split
  · exact hu
  · exact hu

theorem reexamine_banks (s : State) (d slot shard : Nat) : (reexamine s d slot shard).banks = s.banks := by
  unfold reexamine
  dsimp only
  split
  · exact setTodo_banks ..
  · rfl

theorem taken_workOf (s : State) (k : Nat) (e : Engine) : taken s (k, workOf e) = taken s (k, e) := rfl

/-- What the touch-up that an engine's head job begins leaves. -/
structure TouchBegun (s : State) (k : Nat) (j : Job) (l : List Job) (t : State) : Prop where
  gates : SameGates s t
  plates : t.plates = s.plates
  eng : workOf (engAt t k) =
    workOf { engAt s k with jobs := l, charged := s.belv.tb / 1000 + 1, prog := some (Prog.start j) }
  load : load (taken s) (engDie k) t.engines ≤ load (taken s) (engDie k) s.engines + taken s (k, engAt t k)
  wear : (bankAt t (k * 8 + j.plate / 64)).wear ≤ (bankAt s (k * 8 + j.plate / 64)).wear + 1
  counted : rget t (pgPrg0 (engDie k)) 0x6C = rget s (pgPrg0 (engDie k)) 0x6C

/-- The state in which a touch-up has begun, before its replica is looked at. -/
def touching (s : State) (k : Nat) (j : Job) : State := modEng (chargeTouch s k j) k fun e => { e with prog := some (Prog.start j) }

theorem beginTouch_eq (s : State) (k : Nat) (j : Job) :
    beginTouch s k j = reexamine (touching s k j) (engDie k) j.slot j.shard := rfl

theorem touching_gates (s : State) (k : Nat) (j : Job) : SameGates s (touching s k j) :=
  (aside_chargeTouch s k j).gates.trans (engineOnly_modEng ..).gates

theorem touching_plates (s : State) (k : Nat) (j : Job) : (touching s k j).plates = s.plates :=
  (engineOnly_modEng ..).plates.trans (aside_chargeTouch s k j).plates

theorem touching_regs (s : State) (k : Nat) (j : Job) : (touching s k j).regs = s.regs :=
  (aside_chargeTouch s k j).regs

theorem engAt_touching (s : State) (k : Nat) (j : Job) :
    engAt (touching s k j) k = { engAt s k with prog := some (Prog.start j) } := by
  obtain ⟨b, q, h⟩ := chargeTouch_eq s k j
  rw [touching, engAt_modEng_self, h]
  rfl

theorem load_touching (f : Nat × Engine → Nat) (d : Nat) (s : State) (k : Nat) (j : Job) :
    load f d (touching s k j).engines ≤ load f d (tdel s.engines k) + f (k, engAt (touching s k j) k) := by
  obtain ⟨b, q, h⟩ := chargeTouch_eq s k j
  have hl := load_tset_le f d (dieAt (chargeTouch s k j) (k / 8192)).proto (chargeTouch s k j).engines k
    (engAt (touching s k j) k)
  have he : (touching s k j).engines = tset (dieAt (chargeTouch s k j) (k / 8192)).proto (chargeTouch s k j).engines k
      (engAt (touching s k j) k) := by
    rw [touching, engAt_modEng_self]
    rfl
  have hs : (chargeTouch s k j).engines = s.engines := by rw [h]
  rw [he]
  rwa [hs] at hl ⊢

theorem wear_touching (s : State) (k : Nat) (j : Job) :
    (bankAt (touching s k j) (k * 8 + j.plate / 64)).wear ≤ (bankAt s (k * 8 + j.plate / 64)).wear + 1 :=
  wear_chargeTouch s k j

theorem beginTouch_begun (s : State) (k : Nat) (j : Job) (l : List Job) :
    TouchBegun s k j l (beginTouch (jobTaken s k l) k j) := by
  have hu := engineOnly_jobTaken s k l
  have ht := aside_reexamine (touching (jobTaken s k l) k j) (engDie k) j.slot j.shard
  rw [beginTouch_eq]
  refine ⟨hu.gates.trans ((touching_gates ..).trans ht.gates), ht.plates.trans ((touching_plates ..).trans hu.plates), ?_, ?_,
      ?_, ?_⟩
  · rw [ht.eng, engAt_touching, engAt_jobTaken]
  · have hl := load_touching (taken s) (engDie k) (jobTaken s k l) k j
    have ht' : taken s (k, engAt (reexamine (touching (jobTaken s k l) k j) (engDie k) j.slot j.shard) k) =
        taken s (k, engAt (touching (jobTaken s k l) k j) k) := by
      rw [← taken_workOf, ht.eng, taken_workOf]
    rw [ht']
    rw [hu.rest] at hl
    exact (load_reexamine (fun _ _ => rfl) ..).trans (hl.trans (Nat.add_le_add_right (load_tdel_le ..) _))
  · rw [bankAt, reexamine_banks, ← bankAt, ← hu.bankAt]
    exact wear_touching ..
  · rw [rget_of_regs (ht.regs.trans (touching_regs ..)), hu.prg0 _ (by omega)]

/-! ### What the commands do with the head job (R131, R148, R372) -/

theorem mayWrite_iff (s : State) (k : Nat) : mayWrite s k = true ↔ awake s = true ∧ (dieAt s (engDie k)).up = true ∧
    (engAt s k).prog = none ∧ (engAt s k).due = false ∧ (engAt s k).calEnd = none ∧ writeHeld s (engDie k) = false ∧
    plateCount s (engDie k) < 128 := by
  simp [mayWrite, and_assoc]

section
variable {s : State} {k : Nat} {j : Job} {l : List Job}

theorem touchUpOp_givesWay (hj : (engAt s k).jobs = j :: l) (hm : mayWrite s k = true) (hg : givesWay s k (engAt s k) = true)
    (b a : List Int) : touchUpOp s k b a = s := by
  obtain ⟨-, -, hprog, -⟩ := (mayWrite_iff s k).mp hm
  simp [touchUpOp, hj, hg, hprog]

/-- A touch-up that begins within the budget and gives way to nothing also ends. -/
theorem touchUpOp_finishes (hj : (engAt s k).jobs = j :: l) (hm : mayWrite s k = true) (ht : j.touch = true)
    (hs : (plateAt s (k * 512 + j.plate)).st = .valid ∨ (plateAt s (k * 512 + j.plate)).st = .drifted)
    (hg : givesWay s k (engAt s k) = false)
    (hb : slotsUsed s (k / 8192) + slotsAhead s (k / 8192) < budget s (k / 8192)) (b a : List Int) :
    touchUpOp s k b a = finishTouch (worked (beginTouch (jobTaken s k l) k j) k j.plate) k j b a := by
  obtain ⟨hawake, -, -, -, hcal, hheld, -⟩ := (mayWrite_iff s k).mp hm
  have hf : writeFits s k = true := by
    refine decide_eq_true ?_
    show slotsUsed s (k / 8192) + slotsAhead s (k / 8192) - _ < budget s (k / 8192)
    omega
  have hbegin := programBeginOp_touch hj hm ht hs hf
  obtain ⟨hgates, -, heng, hload, -, -⟩ := beginTouch_begun s k j l
  generalize beginTouch (jobTaken s k l) k j = t at *
  have hprog : (engAt t k).prog = some (Prog.start j) := (congrArg Engine.prog heng :)
  have hcal' : (engAt t k).calEnd = none := (congrArg Engine.calEnd heng :).trans hcal
  have hgive : givesWay t k (engAt t k) = false := by
    rw [← givesWay_workOf, heng, givesWay_workOf, hgates.givesWay]
    exact hg
  have hrun : opRunning t k (engAt t k) = true := by
    have haw : awake t = true := by rw [awake, hgates.pwr]; exact hawake
    simp [opRunning, haw, hprog, hgates.writeHeld, hheld, hgive]
  have hfits := writeFits_of_load hgates hcal' hload hb
  simp only [touchUpOp, hj, ht, hg, hbegin]
  simp [hprog, Prog.start, ht, hrun, hfits, worked]

end

end Sys2Proof.Laws
end

section
/-! Programming a plate (R121 to R148): the outcomes of the commands that begin a job and touch a plate up. -/

namespace Sys2Proof.Laws

open Sys2Proof Sys2Proof.Machine

/-- What a touch-up that ends finds in its state `w`, where it began in `s`. -/
structure TouchReady (s : State) (k : Nat) (j : Job) (l : List Job) (w : State) : Prop where
  coef : (engAt w k).coef = (engAt s k).coef
  jobs : (engAt w k).jobs = l
  plate : plateAt w (k * 512 + j.plate) = plateAt s (k * 512 + j.plate)
  belv : w.belv = s.belv
  wear : (bankAt w (k * 8 + j.plate / 64)).wear ≤ (bankAt s (k * 8 + j.plate / 64)).wear + 1
  counted : rget w (pgPrg0 (engDie k)) 0x6C = rget s (pgPrg0 (engDie k)) 0x6C

theorem touchReady (s : State) (k : Nat) (j : Job) (l : List Job) :
    TouchReady s k j l (worked (beginTouch (jobTaken s k l) k j) k j.plate) := by
  obtain ⟨hgates, hplates, heng, -, hwear, hcounted⟩ := beginTouch_begun s k j l
  generalize beginTouch (jobTaken s k l) k j = t at *
  have hw := engineOnly_worked t k j.plate
  refine ⟨?_, ?_, ?_, hw.belv.trans hgates.belv, by rw [hw.bankAt]; exact hwear, by rw [hw.prg0 _ (by omega), hcounted]⟩
  · rw [engAt_worked]
    exact (congrArg Engine.coef heng :)
  · rw [engAt_worked]
    exact (congrArg Engine.jobs heng :)
  · rw [hw.plateAt, plateAt_congr hplates]

theorem touchFails_coef {e e' : Engine} (h : e.coef = e'.coef) (x : Plate) (j : Job) (b a : List Int) :
    touchFails e x j b a = touchFails e' x j b a := by
  simp only [touchFails, cellHigh, levels, h]

theorem exec_touchUp (s : State) (k : Nat) (b a : List Int) : exec (.touchUp k b a) s = .next (settle (touchUpOp s k b a)) := rfl

theorem exec_plateProgramBegin (s : State) (k : Nat) : exec (.plateProgramBegin k) s = .next (settle (programBeginOp s k)) := rfl

section
variable {s : State} {k : Nat} {j : Job} {l : List Job}

/-- The head job of an engine whose bank takes programs begins. -/
theorem plateProgramBegin_begins (hj : (engAt s k).jobs = j :: l) (hm : mayWrite s k = true) (ht : j.touch = false)
    (hf : writeFits s k = true) (hr : retired s (k * 8 + j.plate / 64) = false) :
    ∃ t g, exec (.plateProgramBegin k) s = .next t ∧ (engAt t k).jobs = l ∧ (engAt t k).prog = some g ∧
      g.job = j ∧ g.attempt = 1 ∧ g.seg = 0 ∧ g.erased = false ∧ (plateAt t (k * 512 + j.plate)).st = .programming ∧
      (plateAt t (k * 512 + j.plate)).owner = j.slot ∧ (plateAt t (k * 512 + j.plate)).shard = j.shard ∧
      (∀ p, p ≠ k * 512 + j.plate → plateAt t p = plateAt s p) ∧ t.weights = s.weights := by
  have hu := engineOnly_jobTaken s k l
  have hb := beginProgram_begun (jobTaken s k l) k j
  have hw : (beginProgram (jobTaken s k l) k j).weights = s.weights := by
    rw [← programBeginOp_program hj hm ht hf hr]
    exact congrArg Held.weights (held_programBeginOp ..)
  refine ⟨_, Prog.start j, exec_plateProgramBegin s k, ?_, ?_, rfl, rfl, rfl, rfl, ?_, ?_, ?_, fun p hp => ?_, ?_⟩
  all_goals rw [programBeginOp_program hj hm ht hf hr]
  · rw [settle_eng, hb.jobs, engAt_jobTaken]
  · rw [settle_eng, hb.prog]
  · rw [settle_plate, hb.st]
  · rw [settle_plate, hb.owner]
  · rw [settle_plate, hb.shard]
  · rw [settle_plate, hb.others p hp, hu.plateAt]
  · rw [settle_weights, hw]

variable (hj : (engAt s k).jobs = j :: l) (hm : mayWrite s k = true) (ht : j.touch = true)
  (hs : (plateAt s (k * 512 + j.plate)).st = .valid ∨ (plateAt s (k * 512 + j.plate)).st = .drifted)
  (hg : givesWay s k (engAt s k) = false)
  (hb : slotsUsed s (k / 8192) + slotsAhead s (k / 8192) < budget s (k / 8192)) {b a : List Int}
include hj hm ht hs hg hb

/-- A touch-up with no cell above its target and none left short completes. -/
theorem touchUp_completes (hok : touchFails (engAt s k) (plateAt s (k * 512 + j.plate)) j b a = false) :
    ∃ t, exec (.touchUp k b a) s = .next t ∧ (engAt t k).jobs = l ∧ (engAt t k).prog = none ∧
      (plateAt t (k * 512 + j.plate)).st = (plateAt s (k * 512 + j.plate)).st ∧
      (plateAt t (k * 512 + j.plate)).tb = s.belv.tb ∧
      (rget t (pgPrg0 (k / 8192)) 0x6C).toNat = min ((rget s (pgPrg0 (k / 8192)) 0x6C).toNat + 1) 0xFFFFFFFF := by
  have hr := touchReady s k j l
  have hend := touchUpOp_finishes hj hm ht hs hg hb b a
  generalize worked (beginTouch (jobTaken s k l) k j) k j.plate = w at *
  rw [finishTouch_eq, touchFails_coef hr.coef, hr.plate, hok, Bool.false_and, if_neg Bool.false_ne_true] at hend
  have hd := (plateDone_done (count (modEng w k fun e => { e with prog := none }) (pgPrg0 (engDie k)) 0x6C 1) k j.plate true
    (if j.refOnly then [] else j.codes) (plateAt s (k * 512 + j.plate)).remap).aside
    (aside_repairDone _ (engDie k) j.slot j.shard j.tag)
  rw [← hend] at hd
  refine ⟨_, exec_touchUp s k b a, ?_, ?_, ?_, ?_, ?_⟩
  · rw [settle_eng, hd.jobs, engAt_count, engAt_modEng_self, hr.jobs]
  · rw [settle_eng, hd.prog, engAt_count, engAt_modEng_self]
  · rw [settle_plate, hd.st, if_pos rfl]
    exact congrArg Plate.st hr.plate
  · rw [settle_plate, hd.tb]
    exact congrArg (fun x => x.tb) hr.belv
  · rw [rget_settle _ (by omega) (by omega) (by omega) (by omega) (by omega) (by omega), rget_of_regs hd.regs,
      show k / 8192 = engDie k from rfl, rget_count_self, ← hr.counted]
    rfl

/-- A touch-up that fails has its plate programmed in full, while its bank is not retired. -/
theorem touchUp_reprograms (hbad : touchFails (engAt s k) (plateAt s (k * 512 + j.plate)) j b a = true)
    (hwear : (bankAt s (k * 8 + j.plate / 64)).wear + 1 < 160000) :
    ∃ t, exec (.touchUp k b a) s = .next t ∧ (engAt t k).jobs = l ∧ (engAt t k).prog.isSome = true ∧
      (plateAt t (k * 512 + j.plate)).st = .programming := by
  have hr := touchReady s k j l
  have hend := touchUpOp_finishes hj hm ht hs hg hb b a
  generalize worked (beginTouch (jobTaken s k l) k j) k j.plate = w at *
  have hret : retired w (k * 8 + j.plate / 64) = false := by
    have := hr.wear
    exact decide_eq_false (by omega)
  rw [finishTouch_eq, touchFails_coef hr.coef, hr.plate, hbad, hret, if_pos (by decide)] at hend
  have hd := beginProgram_begun (modEng w k fun e => { e with prog := none }) k { j with touch := false, refOnly := false }
  rw [← hend] at hd
  refine ⟨_, exec_touchUp s k b a, ?_, ?_, ?_⟩
  · rw [settle_eng, hd.jobs, engAt_modEng_self, hr.jobs]
  · rw [settle_eng, hd.prog]
    rfl
  · rw [settle_plate]
    exact hd.st

end

end Sys2Proof.Laws
end

section
/-! Programming a plate (R121 to R129): erase segments and pulse-verify pairs. -/

namespace Sys2Proof.Laws

open Sys2Proof Sys2Proof.Machine

/-! ### Cells written -/

/-- A key that some of a list's writes meet, and where all of them that do write `v`, reads `v`. -/
theorem tget_foldl_tset_of {α β : Type} [DecidableEq β] (d : β) (κ : α → Nat) (ν : α → β) (l : List α) (t : Tab β) {k : Nat} {v : β}
    (hv : ∀ x ∈ l, κ x = k → ν x = v) (hk : (∃ x ∈ l, κ x = k) ∨ tget d t k = v) :
    tget d (l.foldl (fun t x => tset d t (κ x) (ν x)) t) k = v := by
  induction l generalizing t with
  | nil => simpa using hk
  | cons x l ih =>
    refine ih _ (fun y hy => hv y (.tail _ hy)) ?_
    by_cases hx : κ x = k
    · refine .inr ?_
      dsimp only
      rw [hx, tget_tset_self, hv x (.head _) hx]
    · dsimp only
      rw [tget_tset_other _ _ _ _ hx]
      exact hk.imp_left fun ⟨y, hy, hyk⟩ => ⟨y, (List.mem_cons.mp hy).resolve_left fun e => hx (e ▸ hyk), hyk⟩

theorem tget_eraseCells (s : State) (key : Nat) {i : Nat} (hi : i < 4096) : tget 0 (eraseCells s key).weights (key * 4096 + i)
    = 0 := by
  refine tget_unlisted fun ⟨v, hv⟩ => ?_
  have hne : (key * 4096 + i) / 4096 ≠ key := by simpa using (List.mem_filter.mp hv).2
  omega

theorem eraseCells_evq (s : State) (key : Nat) : (eraseCells s key).evq = s.evq := rfl

theorem tget_writeRow (s : State) (key r : Nat) (codes : List Int) {o : Nat} (ho : o < 64) :
    tget 0 (writeRow s key r codes).weights (key * 4096 + 64 * r + o) = BitVec.ofInt 8 (codes.getD (64 * r + o) 0) := by
  refine tget_foldl_tset_of 0 (fun o => key * 4096 + 64 * r + o) _ _ _ (fun x _ hx => ?_) (.inl ⟨o, by simpa using ho, rfl⟩)
  rw [show x = o by omega]

theorem tget_storeCodes (t : Tab Byte) (key : Nat) (codes : List Int) {i : Nat} (hi : i < codes.length) :
    tget 0 (storeCodes t key codes) (key * 4096 + i) = BitVec.ofInt 8 (codes.getD i 0) := by
  refine tget_foldl_tset_of 0 (fun c : Int × Nat => key * 4096 + c.2) _ _ _ ?_ (.inl ⟨(codes[i], i), ?_, rfl⟩)
  · rintro ⟨x, n⟩ hx hn
    obtain rfl : n = i := Nat.add_left_cancel hn
    rw [List.getD_eq_getElem?_getD, List.mk_mem_zipIdx_iff_getElem?.mp hx, Option.getD_some]
  · exact List.mk_mem_zipIdx_iff_getElem?.mpr (List.getElem?_eq_getElem hi)

/-! ### Erase segments (R121, R124, R128) -/

/-- The state in which an erase segment has ended. -/
def erasedState (s : State) (k p : Nat) : State := eraseCells (worked s k p) (k * 512 + p)

/-- A plate that is BAD, and an engine that programs nothing. -/
def GoneBad (k key : Nat) (t : State) : Prop := (plateAt t key).st = .bad ∧ (engAt t k).prog = none

theorem GoneBad.aside {k key : Nat} {t u : State} (h : GoneBad k key t) (g : Aside t u) : GoneBad k key u :=
  ⟨by rw [g.plateAt, h.1], (g.prog k).trans h.2⟩

theorem markBad_goneBad (s : State) (k : Nat) (j : Job) : GoneBad k (k * 512 + j.plate) (markBad s k j) := by
  unfold markBad
  dsimp only
  have hdrop := aside_dropDue (putPlate s (k * 512 + j.plate)
    { Plate.zero with st := .bad, tb := (plateAt s (k * 512 + j.plate)).tb }) k
  generalize dropDue _ k = u at *
  have h0 : GoneBad k (k * 512 + j.plate) (leaveSweep (modEng (ev (count u (pgPrg0 (engDie k)) 0x64 1) (pgPrg0 (engDie k))
      1 (k % 8192))
      k fun e => { e with prog := none }) (engDie k) j.slot j.shard [k * 512 + j.plate]) := by
    refine GoneBad.aside ⟨?_, ?_⟩ (aside_leaveSweep ..)
    · rw [plateAt_modEng]
      exact congrArg Plate.st ((hdrop.plateAt _).trans (plateAt_putPlate_self ..))
    · rw [engAt_modEng_self]
  generalize leaveSweep _ (engDie k) j.slot j.shard [k * 512 + j.plate] = v at *
  split
  · exact h0
  · split
    · exact h0.aside (aside_programFail ..)
    · split
      · exact h0.aside (aside_programFail ..)
      · exact ⟨h0.1, by rw [engAt_modEng_self]; exact h0.2⟩

section
variable {s : State} {k : Nat} {g : Prog}

theorem exec_eraseSegment (s : State) (k : Nat) (c : List Int) :
    exec (.eraseSegment k c) s = .next (settle (eraseSegmentOp s k c)) := rfl

/-- What an erase segment that runs within the budget does. -/
theorem eraseSegmentOp_eq (hp : (engAt s k).prog = some g) (ht : g.job.touch = false) (he : g.erased = false)
    (hrun : opRunning s k (engAt s k) = true) (hf : writeFits s k = true) (c : List Int) :
    eraseSegmentOp s k c =
      if g.seg < 7 then modEng (erasedState s k g.job.plate) k fun e => { e with prog := some { g with seg := g.seg + 1 } }
      else if (levels (engAt s k) c).all fun v => !levelOver 0 v then
        modEng (erasedState s k g.job.plate) k fun e => { e with prog := some { g with
          seg := 0, erased := true, row := 0, pulse := 0, inhibit := [], fails := [], aborted := false } }
      else if g.attempt < 3 then
        modEng (erasedState s k g.job.plate) k fun e => { e with prog := some { g with seg := 0, attempt := g.attempt + 1 } }
      else markBad (erasedState s k g.job.plate) k g.job := by
  simp only [eraseSegmentOp, hp, ht, he, hrun, hf]
  rfl

theorem eraseSegmentOp_weights (hp : (engAt s k).prog = some g) (ht : g.job.touch = false) (he : g.erased = false)
    (hrun : opRunning s k (engAt s k) = true) (hf : writeFits s k = true) (c : List Int) :
    (eraseSegmentOp s k c).weights = (erasedState s k g.job.plate).weights := by
  rw [eraseSegmentOp_eq hp ht he hrun hf]
  generalize erasedState s k g.job.plate = u
  split
  · rfl
  · split
    · rfl
    · split
      · rfl
      · exact congrArg Held.weights (held_markBad ..)

theorem settle_erased (hs : s.evq = []) (p : Nat) (f : Engine → Engine) :
    settle (modEng (erasedState s k p) k f) = modEng (erasedState s k p) k f :=
  settle_of_nil ((putEng_evq ..).trans ((eraseCells_evq ..).trans ((engineOnly_worked s k p).evq.trans hs)))

/-- What an erase segment does, by the segment's number, the levels and the attempt. -/
theorem eraseSegment_clauses (hs : s.evq = []) (hp : (engAt s k).prog = some g) (ht : g.job.touch = false)
    (he : g.erased = false) (hrun : opRunning s k (engAt s k) = true) (hf : writeFits s k = true) (c : List Int) :
    let next := fun (h : Prog) => Host.Outcome.next (modEng (erasedState s k g.job.plate) k fun x => { x with prog := some h })
    let sound := ∀ v, v ∈ levels (engAt s k) c → levelOver 0 v = false
    (∃ t, exec (.eraseSegment k c) s = .next t ∧
      ∀ i, i < 4096 → tget 0 t.weights ((k * 512 + g.job.plate) * 4096 + i) = 0) ∧
    (g.seg < 7 → exec (.eraseSegment k c) s = next { g with seg := g.seg + 1 }) ∧
    (7 ≤ g.seg → sound → exec (.eraseSegment k c) s = next { g with
      seg := 0, erased := true, row := 0, pulse := 0, inhibit := [], fails := [], aborted := false }) ∧
    (7 ≤ g.seg → ¬ sound → g.attempt < 3 → exec (.eraseSegment k c) s =
      next { g with seg := 0, attempt := g.attempt + 1 }) ∧
    (7 ≤ g.seg → ¬ sound → 3 ≤ g.attempt → ∃ t, exec (.eraseSegment k c) s = .next t ∧
      (plateAt t (k * 512 + g.job.plate)).st = .bad ∧ (engAt t k).prog = none) := by
  intro next sound
  have heq := eraseSegmentOp_eq hp ht he hrun hf c
  have hall : sound ↔ ((levels (engAt s k) c).all fun v => !levelOver 0 v) = true := by simp [sound]
  have hput : ∀ h : Prog, eraseSegmentOp s k c = modEng (erasedState s k g.job.plate) k (fun x => { x with prog := some h }) →
      exec (.eraseSegment k c) s = next h := fun h hh => by
    rw [exec_eraseSegment, hh, settle_erased hs]
  refine ⟨⟨_, exec_eraseSegment s k c, fun i hi => ?_⟩, fun h7 => hput _ ?_, fun h7 h => hput _ ?_, fun h7 h h3 => hput _ ?_,
    fun h7 h h3 => ⟨_, exec_eraseSegment s k c, ?_⟩⟩
  · rw [settle_weights, eraseSegmentOp_weights hp ht he hrun hf]
    exact tget_eraseCells _ _ hi
  · rw [heq, if_pos h7]
  · rw [heq, if_neg (by omega), if_pos (hall.mp h)]
  · rw [heq, if_neg (by omega), if_neg fun hn => h (hall.mpr hn), if_pos h3]
  · rw [settle_plate, settle_eng, heq, if_neg (by omega), if_neg fun hn => h (hall.mpr hn), if_neg (by omega)]
    exact markBad_goneBad ..

end

end Sys2Proof.Laws
end

section
/-! Programming a plate (R123 to R127): pulse-verify pairs, and the settling of O52. -/

namespace Sys2Proof.Laws

open Sys2Proof Sys2Proof.Machine

/-! ### A pulse-verify pair after the first (R123, R125) -/

section
variable (g : Prog) (lv : List Int)

/-- Whether a cell of the row in progress reads above its target, and whether it passes. -/
def pairOver (i : Nat) : Bool := levelOver ((rowTargets g).getD i 0) (lv.getD i 0)
def pairPass (i : Nat) : Bool := levelPass ((rowTargets g).getD i 0) (lv.getD i 0)

/-- The cells of a row that a pair pulses: those not yet inhibited. -/
def pairLive : List Nat := (List.range 160).filter fun c => !g.inhibit.contains c

/-- The cells that a pair inhibits: those above their targets, and those that pass; and those that it leaves to pulse. -/
def pairBad : List Nat := (pairLive g).filter fun c => pairOver g lv c
def pairGood : List Nat := (pairLive g).filter fun c => pairPass g lv c && !(pairBad g lv).contains c
def pairLeft : List Nat := (pairLive g).filter fun c => !(pairBad g lv).contains c && !(pairGood g lv).contains c

/-- The program after a pair. -/
def paired : Prog :=
  { g with pulse := g.pulse + 1, inhibit := g.inhibit ++ pairBad g lv ++ pairGood g lv, fails := g.fails ++ pairBad g lv }

theorem mem_pairLive (i : Nat) : i ∈ pairLive g ↔ i < 160 ∧ i ∉ g.inhibit := by simp [pairLive]

theorem mem_pairBad (i : Nat) : i ∈ pairBad g lv ↔ i ∈ pairLive g ∧ pairOver g lv i = true := by simp [pairBad]

theorem mem_pairGood (i : Nat) : i ∈ pairGood g lv ↔ i ∈ pairLive g ∧ pairPass g lv i = true ∧ i ∉ pairBad g lv :=
    by simp [pairGood]

theorem mem_pairLeft (i : Nat) : i ∈ pairLeft g lv ↔ i ∈ pairLive g ∧ i ∉ pairBad g lv ∧ i ∉ pairGood g lv := by simp [pairLeft]

/-- A cell that a pair pulsed is inhibited after it exactly where it is above its target or passes, and is marked as failed where
it is above. -/
theorem mem_paired {i : Nat} (hi : i ∈ pairLive g) :
    (i ∈ (paired g lv).inhibit ↔ pairOver g lv i = true ∨ pairPass g lv i = true) ∧
    (i ∈ (paired g lv).fails ↔ i ∈ g.fails ∨ pairOver g lv i = true) := by
  have hb : i ∈ pairBad g lv ↔ pairOver g lv i = true := by rw [mem_pairBad]; exact and_iff_right hi
  have hg : i ∈ pairGood g lv ↔ pairPass g lv i = true ∧ ¬pairOver g lv i = true := by
    rw [mem_pairGood, hb]
    exact and_iff_right hi
  have hn := ((mem_pairLive g i).mp hi).2
  simp only [paired, List.mem_append, hb, hg, hn, false_or]
  exact ⟨by tauto, trivial⟩

theorem paired_done (h : pairLive g = []) (hf : g.fails = []) : (paired g lv).fails = [] ∧ pairLeft g lv = [] := by
  simp [paired, pairLeft, pairBad, h, hf]

end

section
variable {s : State} {k : Nat} {g : Prog}

theorem exec_pulseVerifyPair (s : State) (k : Nat) (c : List Int) :
    exec (.pulseVerifyPair k c) s = .next (settle (pulsePairOp s k c)) := rfl

/-- What a pair after the first that runs within the budget, with no pulse aborted, does. -/
theorem pulsePairOp_eq (hp : (engAt s k).prog = some g) (ht : g.job.touch = false) (he : g.erased = true) (ha : g.aborted = false)
    (h0 : g.pulse ≠ 0) (hrun : opRunning s k (engAt s k) = true) (hf : writeFits s k = true) (c : List Int) :
    pulsePairOp s k c =
      if (pairLeft g (levels (engAt s k) c)).isEmpty then endRow (worked s k g.job.plate) k (paired g (levels (engAt s k) c))
      else if 32 ≤ g.pulse + 1 then
        endRow (worked s k g.job.plate) k { paired g (levels (engAt s k) c) with
          fails := (paired g (levels (engAt s k) c)).fails ++ pairLeft g (levels (engAt s k) c) }
      else modEng (worked s k g.job.plate) k fun e => { e with prog := some (paired g (levels (engAt s k) c)) } := by
  have hgo : (g.job.touch || !g.erased || !opRunning s k (engAt s k)) = false := by simp [ht, he, hrun]
  have hab : ¬g.aborted = true := by simp [ha]
  simp only [pulsePairOp, hp, hgo, hf, h0, Bool.not_true, Bool.false_eq_true, if_false]
  rw [if_neg hab]
  rfl

/-- A row operation that ends with nothing failed and no spare to program is followed by the next row. -/
theorem endRow_clean (s : State) (k : Nat) {g : Prog} (hf : g.fails = []) (hs : g.spareGo = []) :
    endRow s k g = nextRow s k { g with left := [] } := by
  simp [endRow, serveFails, hf, hs]

theorem nextRow_row (s : State) (k : Nat) {g : Prog} (h : g.row < 63) :
    nextRow s k g = modEng (writeRow s (k * 512 + g.job.plate) g.row g.job.codes) k fun e =>
      { e with prog := some { g with row := g.row + 1, pulse := 0, inhibit := [], fails := [] } } := by
  have : g.row + 1 < 64 := by omega
  simp only [nextRow, this, if_true]

/-- The state in which a plate's last row holds its codes. -/
def lastRow (s : State) (k : Nat) (g : Prog) : State :=
  count (modEng (writeRow s (k * 512 + g.job.plate) g.row g.job.codes) k fun e => { e with prog := none }) (pgPrg0 (engDie k))
      0x5C 1

theorem nextRow_last (s : State) (k : Nat) {g : Prog} (h : 63 ≤ g.row) :
    PlateDone (lastRow s k g) k g.job.plate false g.job.codes (nextRow s k g) := by
  have hrow : ¬g.row + 1 < 64 := by omega
  simp only [nextRow, hrow, if_false]
  exact (plateDone_done (lastRow s k g) k g.job.plate false g.job.codes g.remap).aside (aside_repairDone ..)

variable (hp : (engAt s k).prog = some g) (ht : g.job.touch = false) (he : g.erased = true) (ha : g.aborted = false)
  (h0 : g.pulse ≠ 0) (hrun : opRunning s k (engAt s k) = true) (hf : writeFits s k = true) (c : List Int)
include hp ht he ha h0 hrun hf

/-- A pair before the last that leaves a cell to pulse inhibits and marks cells alone. -/
theorem pulsePair_pulses (hlt : g.pulse < 31)
    (hleft : ∃ i, i < 160 ∧ i ∉ g.inhibit ∧ pairOver g (levels (engAt s k) c) i = false ∧ pairPass g (levels (engAt s k) c)
        i = false) :
    ∃ t h, exec (.pulseVerifyPair k c) s = .next t ∧ (engAt t k).prog = some h ∧ h.pulse = g.pulse + 1 ∧
      h.row = g.row ∧ h.job = g.job ∧ ∀ i, i < 160 → i ∉ g.inhibit →
        (i ∈ h.inhibit ↔ pairOver g (levels (engAt s k) c) i = true ∨ pairPass g (levels (engAt s k) c) i = true) ∧
        (i ∈ h.fails ↔ i ∈ g.fails ∨ pairOver g (levels (engAt s k) c) i = true) := by
  obtain ⟨i, hi, hn, hover, hpass⟩ := hleft
  have hmem : i ∈ pairLeft g (levels (engAt s k) c) := by
    simp [mem_pairLeft, mem_pairBad, mem_pairGood, mem_pairLive, hi, hn, hover, hpass]
  have hne : ¬(pairLeft g (levels (engAt s k) c)).isEmpty = true := by
    rw [List.isEmpty_iff]
    exact List.ne_nil_of_mem hmem
  refine ⟨_, paired g (levels (engAt s k) c), exec_pulseVerifyPair s k c, ?_, rfl, rfl, rfl, fun i h1 h2 =>
    mem_paired g _ ((mem_pairLive g i).mpr ⟨h1, h2⟩)⟩
  rw [settle_eng, pulsePairOp_eq hp ht he ha h0 hrun hf, if_neg hne, if_neg (by omega), engAt_modEng_self]

variable (hall : ∀ i, i < 160 → i ∈ g.inhibit) (hfails : g.fails = []) (hspare : g.spareGo = [])
include hall hfails hspare

/-- A pair of a row every cell of which is inhibited, with none failed and no spare to program, ends the row. -/
theorem pulsePairOp_clean :
    ∃ h, pulsePairOp s k c = nextRow (worked s k g.job.plate) k h ∧ h.job = g.job ∧ h.row = g.row := by
  have hlive : pairLive g = [] := List.eq_nil_iff_forall_not_mem.mpr fun i hi =>
    ((mem_pairLive g i).mp hi).2 (hall i ((mem_pairLive g i).mp hi).1)
  obtain ⟨hfl, hl⟩ := paired_done g (levels (engAt s k) c) hlive hfails
  refine ⟨{ paired g (levels (engAt s k) c) with left := [] }, ?_, rfl, rfl⟩
  rw [pulsePairOp_eq hp ht he ha h0 hrun hf, hl, if_pos List.isEmpty_nil, endRow_clean _ _ hfl hspare]

/-- The row holds its codes, and the next row comes. -/
theorem pulsePair_nextRow (hrow : g.row < 63) :
    ∃ t h, exec (.pulseVerifyPair k c) s = .next t ∧ (engAt t k).prog = some h ∧ h.row = g.row + 1 ∧
      h.pulse = 0 ∧ h.inhibit = [] ∧ h.job = g.job ∧ t.plates = s.plates ∧
      ∀ o, o < 64 → tget 0 t.weights ((k * 512 + g.job.plate) * 4096 + 64 * g.row + o) =
        BitVec.ofInt 8 (g.job.codes.getD (64 * g.row + o) 0) := by
  have hw := engineOnly_worked s k g.job.plate
  obtain ⟨h, hop, hjob, hr⟩ := pulsePairOp_clean hp ht he ha h0 hrun hf c hall hfails hspare
  generalize worked s k g.job.plate = w at *
  rw [nextRow_row w k (hr ▸ hrow), hr, hjob] at hop
  refine ⟨_, { h with job := g.job, row := g.row + 1, pulse := 0, inhibit := [], fails := [] },
    exec_pulseVerifyPair s k c, ?_, rfl, rfl, rfl, rfl, ?_, fun o ho => ?_⟩
  · rw [settle_eng, hop, engAt_modEng_self]
  · rw [settle_plates, hop]
    exact hw.plates
  · rw [settle_weights, hop]
    exact tget_writeRow w _ _ _ ho

/-- After the last row the plate is VALID, and holds the job's codes. -/
theorem pulsePair_lastRow (hrow : 63 ≤ g.row) :
    ∃ t, exec (.pulseVerifyPair k c) s = .next t ∧ (engAt t k).prog = none ∧
      (plateAt t (k * 512 + g.job.plate)).st = .valid ∧ (plateAt t (k * 512 + g.job.plate)).tb = s.belv.tb ∧
      ∀ i, i < g.job.codes.length → tget 0 t.weights ((k * 512 + g.job.plate) * 4096 + i) =
        BitVec.ofInt 8 (g.job.codes.getD i 0) := by
  have hw := engineOnly_worked s k g.job.plate
  obtain ⟨h, hop, hjob, hr⟩ := pulsePairOp_clean hp ht he ha h0 hrun hf c hall hfails hspare
  generalize worked s k g.job.plate = w at *
  have hd := nextRow_last w k (g := h) (hr ▸ hrow)
  rw [← hop, hjob] at hd
  refine ⟨_, exec_pulseVerifyPair s k c, ?_, ?_, ?_, fun i hi => ?_⟩
  · rw [settle_eng, hd.prog, lastRow, engAt_count, engAt_modEng_self]
  · rw [settle_plate, hd.st]
    rfl
  · rw [settle_plate, hd.tb]
    exact congrArg (fun x => x.tb) hw.belv
  · rw [settle_weights, hd.weights]
    exact tget_storeCodes _ _ _ hi

end

/-- Settles O52, one command at a time: the head job, the touch-up, the erase segment and the pulse-verify pair. -/
theorem plateProgramming : Obligations.PlateProgramming := by
  refine fun s k hs _ => ⟨fun j l hj hm => ⟨fun ht hf => ?_, fun ht hf hr => plateProgramBegin_begins hj hm ht hf hr,
    fun b a ht hst => ⟨fun hg => ?_, fun hg hb => ⟨fun hok => ?_, fun i hi htc hh hwear => ?_⟩⟩⟩,
    fun g hp ht hrun hf => ⟨fun c he => eraseSegment_clauses hs hp ht he hrun hf c, fun c he ha h0 => ⟨fun hlt hleft => ?_,
      fun hall hfails hspare => ⟨fun hrow => ?_, fun hrow => ?_⟩⟩⟩⟩
  · rw [exec_plateProgramBegin, programBeginOp_wait hj hm ht hf, settle_of_nil ((noteWait_evq ..).trans hs)]
  · rw [exec_touchUp, touchUpOp_givesWay hj hm hg, settle_of_nil hs]
  · exact touchUp_completes hj hm ht hst hg hb (touchFails_eq_false _ _ _ _ _ hok)
  · exact touchUp_reprograms hj hm ht hst hg hb (touchFails_of_high _ _ _ _ _ hi htc hh) hwear
  · exact pulsePair_pulses hp ht he ha h0 hrun hf c hlt hleft
  · exact pulsePair_nextRow hp ht he ha h0 hrun hf c hall hfails hspare hrow
  · exact pulsePair_lastRow hp ht he ha h0 hrun hf c hall hfails hspare hrow

end Sys2Proof.Laws
end

section
/-! Supply warnings, their end, and the hold of writes after them (R132, R150, R374, R375). -/

namespace Sys2Proof.Laws

open Sys2Proof Sys2Proof.Machine

/-! ### What a warning aborts (R150) -/

/-- From `s` to `t` neither the part, a die, the power state nor a register outside the pages PRG0 changes. -/
structure Unpowered (s t : State) : Prop where
  part : t.part = s.part
  dies : t.dies = s.dies
  pwr : t.pwr = s.pwr
  regs : ∀ p o, o < 4096 → (∀ d, p ≠ pgPrg0 d) → rget t p o = rget s p o

theorem Unpowered.refl (s : State) : Unpowered s s := ⟨rfl, rfl, rfl, fun _ _ _ _ => rfl⟩

theorem Unpowered.trans {s t u : State} (h : Unpowered s t) (g : Unpowered t u) : Unpowered s u :=
  ⟨g.part.trans h.part, g.dies.trans h.dies, g.pwr.trans h.pwr, fun p o h1 h2 => (g.regs p o h1 h2).trans (h.regs p o h1 h2)⟩

theorem Unpowered.ite {c : Prop} [Decidable c] {s t u : State} (ht : Unpowered s t) (hu : Unpowered s u) :
    Unpowered s (if c then t else u) := by
  split <;> assumption

theorem Unpowered.update {s t : State} (hp : t.part = s.part) (hd : t.dies = s.dies) (hw : t.pwr = s.pwr) (hr : t.regs = s.regs) :
    Unpowered s t := ⟨hp, hd, hw, fun _ _ _ _ => rget_of_regs hr _ _⟩

theorem unpowered_putPlate (s : State) (p : Nat) (v : Plate) : Unpowered s (putPlate s p v) := by
  obtain ⟨u, hu⟩ := putPlate_eq s p v
  rw [hu]
  exact .update rfl rfl rfl rfl

theorem unpowered_ev (s : State) (p b c : Nat) : Unpowered s (ev s p b c) := .update rfl rfl rfl rfl

theorem unpowered_countPrg0 (s : State) (d n : Nat) : Unpowered s (count s (pgPrg0 d) 0x68 n) :=
  ⟨rfl, rfl, rfl, fun _ _ ho hp => rget_count_page s _ (hp d) (by omega) ho⟩

theorem unpowered_abortOp (s : State) (k : Nat) : Unpowered s (abortOp s k) := by
  unfold abortOp
  dsimp only
  split
  · exact .refl s
  · have heng : ∀ v, Unpowered s (putEng s k v) := fun v => .update rfl rfl rfl rfl
    have hcount : ∀ (touch : Bool) v p x, Unpowered s (count (if touch then putEng s k v else putPlate (putEng s k v) p x)
        (pgPrg0 (engDie k)) 0x68 1) := fun _ v _ _ =>
      (Unpowered.ite (heng v) ((heng v).trans (unpowered_putPlate ..))).trans (unpowered_countPrg0 ..)
    exact .ite (hcount ..) ((hcount ..).trans (unpowered_ev ..))

theorem unpowered_abortOps (s : State) (d : Nat) : Unpowered s (abortOps s d) :=
  List.foldlRecOn (motive := Unpowered s) _ _ (.refl s) fun u hu k _ => hu.trans (unpowered_abortOp u k)

theorem unpowered_setQual (s : State) (id b : Nat) : Unpowered s (setQual s id b) := by
  have h := modReq_rest s id (fun q => { q with qual := q.qual ||| (1#16 <<< b) }) []
  exact .update (congrArg (fun u => u.part) h) (congrArg (fun u => u.dies) h) (congrArg (fun u => u.pwr) h)
    (congrArg (fun u => u.regs) h)

theorem unpowered_warnDie (s : State) (d : Nat) : Unpowered s (warnDie s d) := by
  unfold warnDie
  dsimp only
  refine List.foldlRecOn (motive := Unpowered s) _ _ ?_ fun u hu id _ => hu.trans (unpowered_setQual u id qLowsup)
  exact (unpowered_abortOps s d).trans (.update rfl rfl rfl rfl)

/-! ### A first warning (R374, R375) -/

theorem pgPwr_ne_pgPrg0 (d : Nat) : pgPwr ≠ pgPrg0 d := by
  unfold pgPwr pgPrg0 diePage
  omega

theorem pgDie_ne_pgPrg0 (c d : Nat) : pgDie c ≠ pgPrg0 d := by
  unfold pgDie pgPrg0 diePage
  omega

theorem getLsbD_or_bit {w : Nat} (x : BitVec w) {b : Nat} (hb : b < w) : (x ||| (BitVec.ofNat w 1 <<< b)).getLsbD b = true := by
  simp [hb]

theorem kindOf_die : ∀ {d : Nat}, d < 16 → kindOf (pgDie d) = some (.die, d) := by decide

theorem pageDie_pgDie : ∀ {d : Nat}, d < 16 → pageDie (pgDie d) = some d := by decide

theorem member_dies_le (m : Member) : m.dies ≤ 16 := by cases m <;> decide

/-- The pages of a die in service answer. -/
theorem pageReach_pgDie {s : State} {d : Nat} (hd : d < s.part.member.dies) (hst : (dieAt s d).st = .on)
    (hup : (dieAt s d).up = true) :
    pageReach s (pgDie d) = .ok := by
  have h16 : d < 16 := lt_of_lt_of_le hd (member_dies_le _)
  simp [pageReach, kindOf_die h16, pageDie_pgDie h16, dieReach, hst, hup, Nat.not_le.mpr hd]

theorem exec_supplyWarning (s : State) (m : Supply) : exec (.supplyWarning m) s = .next (settle (supplyWarningOp s m)) := rfl

theorem rget_settle_body (s : State) (p : Nat) {o : Nat} (ho : o < 4096) (h : 0x30 ≤ o) : rget (settle s) p o = rget s p o :=
  rget_settle s ho (by omega) (by omega) (by omega) (by omega) (by omega)

theorem modDie_regs (s : State) (d : Nat) (f : Die → Die) : (modDie s d f).regs = s.regs := rfl

/-- A counter of a state that differs from `s` elsewhere counts from what it is in `s`. -/
theorem rget_ev_count {s u : State} (h : u.regs = s.regs) (p o n q b c : Nat) :
    (rget (ev (count u p o n) q b c) p o).toNat = min ((rget s p o).toNat + n) 0xFFFFFFFF := by
  rw [← rget_of_regs h, ← rget_count_self]
  exact congrArg BitVec.toNat (rget_of_regs rfl p o)

section
variable {s : State} {m : Supply} {d b : Nat}

theorem supplyPlace_pavilion_lt (h : supplyPlace m = .inl b) : b < 5 := by
  cases m <;> simp [supplyPlace] at h <;> omega

theorem supplyPlace_die_lt (h : supplyPlace m = .inr (d, b)) : b < 2 := by
  cases m <;> simp [supplyPlace] at h <;> omega

/-- A first warning of a monitor of the Pavilion sets its live bit and its sticky bit, and is counted. -/
theorem supplyWarning_pavilion (hm : supplyPlace m = .inl b) (hl : s.pwr.live.getLsbD b = false) (hu : unmonitored s b = false) :
    ∃ t, exec (.supplyWarning m) s = .next t ∧ t.pwr.live.getLsbD b = true ∧ bit (rget t 0x40 0x18) b = true ∧
      (rget t 0x40 0x5C).toNat = min ((rget s 0x40 0x5C).toNat + 1) 0xFFFFFFFF ∧ t.weights = s.weights := by
  have hb := supplyPlace_pavilion_lt hm
  have habort : ∃ u, Unpowered s u ∧ supplyWarningOp s m =
      ev (count (modPwr u fun p => { p with live := p.live ||| (1#5 <<< b) }) pgPwr 0x5C 1) pgPwr b 0 := by
    simp only [supplyWarningOp, hm, hl, hu, Bool.false_eq_true, or_self, if_false]
    exact ⟨_, .ite (List.foldlRecOn (motive := Unpowered s) _ _ (.refl s) fun u hu d _ => hu.trans (unpowered_abortOps u d))
        (.refl s),
      rfl⟩
  obtain ⟨u, hsame, hop⟩ := habort
  refine ⟨_, exec_supplyWarning s m, ?_, ?_, ?_, ?_⟩
  · rw [settle_pwr, hop]
    exact getLsbD_or_bit _ hb
  · rw [hop]
    exact bit_settle (List.mem_append_right _ (List.mem_singleton.mpr rfl)) rfl (by omega)
  · rw [rget_settle_body _ _ (by omega) (by omega), hop, ← hsame.regs 0x40 0x5C (by omega) pgPwr_ne_pgPrg0]
    exact rget_ev_count (modPwr_regs ..) _ _ 1 _ _ _
  · rw [settle_weights]
    exact congrArg Held.weights (held_supplyWarningOp ..)

/-- A first warning of a monitor of a die in service sets its live bit and its sticky bit, and is counted. -/
theorem supplyWarning_die (hm : supplyPlace m = .inr (d, b)) (hd : d < s.part.member.dies) (hst : (dieAt s d).st = .on)
    (hup : (dieAt s d).up = true) (hw : (dieAt s d).warn.getLsbD b = false) :
    ∃ t, exec (.supplyWarning m) s = .next t ∧ (dieAt t d).warn.getLsbD b = true ∧ bit (rget t (pgDie d) 0x18) b = true ∧
      (rget t (pgDie d) 0x50).toNat = min ((rget s (pgDie d) 0x50).toNat + 1) 0xFFFFFFFF := by
  have hb := supplyPlace_die_lt hm
  have hop : supplyWarningOp s m = ev (count (modDie (warnDie s d) d fun x => { x with warn := x.warn ||| (1#2 <<< b) })
      (pgDie d) 0x50 1) (pgDie d) b 0 := by
    simp [supplyWarningOp, hm, hst, hup, hw]
  have hsame := unpowered_warnDie s d
  generalize warnDie s d = u at *
  have hdie : dieAt u d = dieAt s d := by rw [dieAt, hsame.dies, dieAt]
  have hself : dieAt (supplyWarningOp s m) d = { dieAt s d with warn := (dieAt s d).warn ||| (1#2 <<< b) } := by
    rw [hop, ← hdie]
    exact dieAt_putDie_self ..
  have hreach : pageReach (supplyWarningOp s m) (pgDie d) = .ok := by
    refine pageReach_pgDie ?_ (by rw [hself]; exact hst) (by rw [hself]; exact hup)
    rw [hop]
    exact (congrArg (fun p => d < p.member.dies) hsame.part).mpr hd
  refine ⟨_, exec_supplyWarning s m, ?_, ?_, ?_⟩
  · rw [(beside_settle _).dieAt, hself]
    exact getLsbD_or_bit _ hb
  · refine bit_settle (c := 0) ?_ hreach (by omega)
    rw [hop]
    exact List.mem_append_right _ (List.mem_singleton.mpr rfl)
  · rw [rget_settle_body _ _ (by omega) (by omega), hop, ← hsame.regs _ 0x50 (by omega) (pgDie_ne_pgPrg0 d)]
    exact rget_ev_count (modDie_regs ..) _ _ 1 _ _ _

end

/-! ### A warning that is cleared, and the hold after it (R132) -/

/-- A key written twice holds the second entry alone. -/
theorem tset_tset_self {α : Type} [DecidableEq α] (d : α) (t : Tab α) (k : Nat) (v w : α) :
    tset d (tset d t k v) k w = tset d t k w := by
  rw [tset, tdel_tset_self, ← tset]

theorem putDie_putDie (s : State) (d : Nat) (v w : Die) : putDie (putDie s d v) d w = putDie s d w := by
  unfold putDie
  exact congrArg (fun l => { s with dies := l }) (tset_tset_self ..)

theorem holdFrom_eq (s : State) (d : Nat) : ∃ l : Tab Die, holdFrom s d = { s with dies := l } := by
  unfold holdFrom
  split <;> exact ⟨_, rfl⟩

theorem holdFrom_putDie (s : State) (d : Nat) (x : Die) :
    holdFrom (putDie s d x) d = putDie s d (if x.warn = 0 ∧ s.pwr.live.getLsbD 0 = false then
      { x with holdTill := some (s.belv.tb + rfld s (pgPrg0 d) 0x40 23 16 * 1000000) } else x) := by
  unfold holdFrom modDie
  rw [dieAt_putDie_self]
  by_cases h : x.warn = 0 ∧ s.pwr.live.getLsbD 0 = false
  · rw [if_pos h]
    exact (if_pos h).trans (putDie_putDie ..)
  · rw [if_neg h]
    exact if_neg h

theorem foldl_holdFrom_eq (s : State) (l : List Nat) : ∃ x : Tab Die, l.foldl holdFrom s = { s with dies := x } := by
  refine List.foldlRecOn (motive := fun u => ∃ x : Tab Die, u = { s with dies := x }) _ _ ⟨s.dies, rfl⟩ fun u ⟨x, hx⟩ d _ => ?_
  obtain ⟨y, hy⟩ := holdFrom_eq u d
  exact ⟨y, by rw [hy, hx]⟩

theorem exec_supplyWarningClear (s : State) (m : Supply) :
    exec (.supplyWarningClear m) s = .next (settle (supplyClearOp s m)) := rfl

section
variable {s : State} {m : Supply} {d b : Nat}

/-- A warning of the Pavilion that is cleared clears its live bit, and where it is V_AUX's may start holds of dies. -/
theorem supplyClearOp_pavilion (hm : supplyPlace m = .inl b) (hl : s.pwr.live.getLsbD b = true) :
    ∃ x, supplyClearOp s m = { s with pwr := { s.pwr with live := s.pwr.live &&& ~~~(1#5 <<< b) }, dies := x } ∧
      (b ≠ 0 → x = s.dies) := by
  simp only [supplyClearOp, hm, hl, if_true]
  split
  · next hb =>
    obtain ⟨x, hx⟩ := foldl_holdFrom_eq (modPwr s fun p => { p with live := p.live &&& ~~~(1#5 <<< b) })
      (List.range s.part.member.dies)
    exact ⟨x, hx, fun h => absurd hb h⟩
  · exact ⟨s.dies, rfl, fun _ => rfl⟩

/-- The hold of a die's writes begins with its last warning cleared, while V_AUX has none. -/
theorem supplyClearOp_die (hm : supplyPlace m = .inr (d, b)) (hw : (dieAt s d).warn.getLsbD b = true) :
    let x := { dieAt s d with warn := (dieAt s d).warn &&& ~~~(1#2 <<< b) }
    supplyClearOp s m = putDie s d (if x.warn = 0 ∧ s.pwr.live.getLsbD 0 = false then
      { x with holdTill := some (s.belv.tb + rfld s (pgPrg0 d) 0x40 23 16 * 1000000) } else x) := by
  intro x
  simp only [supplyClearOp, hm, hw, if_true]
  exact holdFrom_putDie s d x

/-- The end of a hold changes nothing else. -/
theorem supHoldEndOp_ends {t : Nat} (h : (dieAt s d).holdTill = some t) (ht : t ≤ s.belv.tb) :
    supHoldEndOp s d = putDie s d { dieAt s d with holdTill := none } := by
  simp only [supHoldEndOp, h, ht, if_true]
  rfl

end

end Sys2Proof.Laws
end

section
/-! Reset crossings of supplies (R350, R376): what the requests and the work that end with them leave of the dies that bear a
warning, of the ports and of the ISU. -/

namespace Sys2Proof.Laws

open Sys2Proof Sys2Proof.Machine

/-! ### Requests and work that end -/

/-- From `s` to `t` requests and work may end, but the ports, the ISU and the standing of the dies under a warning stay. -/
structure WorkEnds (s t : State) : Prop where
  streams : t.streams = s.streams
  isu : t.isu = s.isu
  die : ∀ d, (dieAt s d).warn ≠ 0 →
    (dieAt t d).warn = (dieAt s d).warn ∧ (dieAt t d).st = (dieAt s d).st ∧ (dieAt t d).up = (dieAt s d).up

theorem WorkEnds.same {s t : State} (hs : t.streams = s.streams) (hi : t.isu = s.isu) (hd : t.dies = s.dies) : WorkEnds s t :=
  ⟨hs, hi, fun d _ => by simp [dieAt, hd]⟩

theorem WorkEnds.refl (s : State) : WorkEnds s s := .same rfl rfl rfl

theorem WorkEnds.trans {s t u : State} (h : WorkEnds s t) (g : WorkEnds t u) : WorkEnds s u := by
  refine ⟨g.streams.trans h.streams, g.isu.trans h.isu, fun d hd => ?_⟩
  obtain ⟨hw, hs, hu⟩ := h.die d hd
  obtain ⟨hw', hs', hu'⟩ := g.die d (hw ▸ hd)
  exact ⟨hw'.trans hw, hs'.trans hs, hu'.trans hu⟩

theorem WorkEnds.ite {c : Prop} [Decidable c] {s t u : State} (ht : WorkEnds s t) (hu : WorkEnds s u) :
    WorkEnds s (if c then t else u) := by
  split <;> assumption

theorem workEnds_foldl {α : Type} (l : List α) {f : State → α → State} (h : ∀ u x, WorkEnds u (f u x)) (s : State) :
    WorkEnds s (l.foldl f s) :=
  List.foldlRecOn (motive := WorkEnds s) _ _ (.refl s) fun u hu x _ => hu.trans (h u x)

/-- A function applied to every die that keeps the warnings and the standing of each. -/
theorem WorkEnds.dies {s t : State} {f : Nat → Die → Die} (hs : t.streams = s.streams) (hi : t.isu = s.isu)
    (hd : t.dies = tmapi Die.zero f s.dies) (hf : ∀ k x, (f k x).warn = x.warn ∧ (f k x).st = x.st ∧ (f k x).up = x.up) :
    WorkEnds s t := by
  refine ⟨hs, hi, fun d hw => ?_⟩
  have hne : ∀ {x : Die}, x.warn ≠ 0 → x ≠ Die.zero := fun h e => h (congrArg Die.warn e)
  have ht : dieAt t d = f d (dieAt s d) := by
    rw [dieAt, hd]
    exact tget_tmapi_of_ne (hne hw) (hne (by rw [(hf d _).1]; exact hw))
  rw [ht]
  exact hf d _

theorem workEnds_putDie (s : State) (d : Nat) {v : Die} (hw : v.warn = (dieAt s d).warn) (hs : v.st = (dieAt s d).st)
    (hu : v.up = (dieAt s d).up) : WorkEnds s (putDie s d v) := by
  refine ⟨rfl, rfl, fun c _ => ?_⟩
  by_cases h : d = c
  · subst h
    rw [dieAt_putDie_self]
    exact ⟨hw, hs, hu⟩
  · rw [dieAt_putDie_other s _ h]
    exact ⟨rfl, rfl, rfl⟩

theorem workEnds_reqs {s t : State} (h : withReqs t [] = withReqs s []) : WorkEnds s t :=
  .same (congrArg (fun u => u.streams) h) (congrArg (fun u => u.isu) h) (congrArg (fun u => u.dies) h)

theorem workEnds_modReq (s : State) (id : Nat) (f : Req → Req) : WorkEnds s (modReq s id f) := workEnds_reqs (modReq_rest ..)

theorem workEnds_freeTilesOf (s : State) (ids : List Nat) : WorkEnds s (freeTilesOf s ids) := by
  refine workEnds_foldl _ (fun u x => ?_) s
  dsimp only
  exact .ite (.refl u) (.same rfl rfl rfl)

theorem workEnds_exhaustCtrs (s : State) (id : Nat) : WorkEnds s (exhaustCtrs s id) := by
  unfold exhaustCtrs
  split
  · exact .refl s
  · refine workEnds_foldl _ (fun u e => ?_) s
    split
    · exact .refl u
    · exact .ite (.same rfl rfl rfl) (.refl u)

theorem workEnds_mapEngines (s : State) (p : Nat → Bool) (f : Engine → Engine) : WorkEnds s (mapEngines s p f) :=
  .dies (f := fun k d => if p k then { d with proto := f d.proto } else d) rfl rfl rfl fun k x => by
    by_cases h : p k <;> simp [h]

theorem workEnds_dropWork (s : State) (id : Nat) : WorkEnds s (dropWork s id) := by
  have hu := (workEnds_freeTilesOf s ((reqRuns s id).map fun e => e.1)).trans (workEnds_exhaustCtrs _ id)
  unfold dropWork
  dsimp only
  generalize exhaustCtrs (freeTilesOf s ((reqRuns s id).map fun e => e.1)) id = u at *
  have hv := workEnds_mapEngines u (fun _ => true) fun e => e.forget ((reqRuns s id).map fun e => e.1)
  generalize mapEngines u (fun _ => true) _ = v at *
  exact (hu.trans hv).trans (.dies
    (f := fun _ d => { d with sweep := { d.sweep with reqs := d.sweep.reqs.filter fun i => i != id } })
    rfl rfl rfl fun _ _ => ⟨rfl, rfl, rfl⟩)

theorem workEnds_failReq (s : State) (id code : Nat) : WorkEnds s (failReq s id code) := by
  unfold failReq
  split
  · exact .refl s
  · exact .ite (.refl s) ((workEnds_dropWork s id).trans ((workEnds_modReq ..).trans (workEnds_modReq ..)))

theorem workEnds_slowReady (s : State) (r mb : Nat) : WorkEnds s (slowReady s r mb) := .ite (.refl s) (.same rfl rfl rfl)

theorem workEnds_putRun (s : State) (r : Nat) (v : Option Run) : WorkEnds s (putRun s r v) := .same rfl rfl rfl

theorem workEnds_landTo (s : State) (w : Run) (mb n : Nat) : WorkEnds s (landTo s w mb n) := by
  refine .ite (workEnds_foldl _ (fun u e => ?_) s) (.refl s)
  exact .ite ((workEnds_putRun u _ _).trans (workEnds_slowReady ..)) (workEnds_putRun ..)

theorem workEnds_takeFeed (s : State) (f : Feed) (id : Nat) : WorkEnds s (takeFeed s f id) := by
  unfold takeFeed
  dsimp only
  refine .ite ?_ (.same rfl rfl rfl)
  split
  · refine .trans ?_ (workEnds_foldl _ (fun u x => ?_) _)
    · exact .same rfl rfl rfl
    · exact workEnds_landTo ..
  · exact .same rfl rfl rfl

theorem workEnds_feeds (s : State) (l : List Feed) : WorkEnds s { s with feeds := l } := .same rfl rfl rfl

theorem workEnds_newFeed (s : State) (f : Feed) : WorkEnds s (newFeed s f) := by
  have h : WorkEnds s { s with feeds := s.feeds ++ [f] } := .same rfl rfl rfl
  unfold newFeed
  dsimp only
  split
  · exact h.trans (workEnds_takeFeed ..)
  · exact h

theorem workEnds_loseFeed (s : State) (slot layer src key : Nat) : WorkEnds s (loseFeed s slot layer src key) := by
  unfold loseFeed
  dsimp only
  split
  · exact .ite (workEnds_newFeed ..) (.refl s)
  · split
    · refine .trans ?_ (workEnds_failReq ..)
      exact .ite (workEnds_newFeed ..) (.refl s)
    · refine .trans ?_ (workEnds_feeds ..)
      exact .ite (workEnds_newFeed ..) (.refl s)

theorem workEnds_loseCargo (s : State) (c : Cargo) : WorkEnds s (loseCargo s c) := by
  unfold loseCargo
  split
  · exact .ite (workEnds_failReq ..) ((workEnds_failReq ..).trans (workEnds_loseFeed ..))
  · exact workEnds_failReq ..
  · exact workEnds_loseFeed ..

/-! ### A die whose work is lost -/

theorem workEnds_setTodo (s : State) (d : Nat) (l again : List Nat) : WorkEnds s (setTodo s d l again) := by
  unfold setTodo
  dsimp only
  refine .trans ?_ (workEnds_putDie _ _ rfl rfl rfl)
  refine workEnds_foldl _ (fun u k => ?_) s
  exact .ite (.refl u) (.same rfl rfl rfl)

theorem workEnds_modSweep (s : State) (d : Nat) (f : Sweep → Sweep) : WorkEnds s (modSweep s d f) :=
  workEnds_putDie s d rfl rfl rfl

theorem workEnds_cutPass (s : State) (d : Nat) : WorkEnds s (cutPass s d) := by
  unfold cutPass
  exact .trans (.trans (workEnds_setTodo ..) (workEnds_modSweep ..)) (workEnds_reqs (sweepServe_rest ..))

theorem workEnds_putPlate (s : State) (p : Nat) (v : Plate) : WorkEnds s (putPlate s p v) := by
  obtain ⟨u, hu⟩ := putPlate_eq s p v
  rw [hu]
  exact .same rfl rfl rfl

theorem workEnds_cutTouches (s : State) (l : List (Nat × Engine)) : WorkEnds s (cutTouches s l) := by
  refine workEnds_foldl _ (fun u x => ?_) s
  split
  · exact .ite (workEnds_putPlate ..) (.refl u)
  · exact .refl u

theorem workEnds_modShard (s : State) (slot shard : Nat) (f : ShardSt → ShardSt) : WorkEnds s (modShard s slot shard f) :=
  .same rfl rfl rfl

theorem workEnds_dropUnwritten (s : State) (d : Nat) : WorkEnds s (dropUnwritten s d) :=
  workEnds_foldl _ (fun _ _ => workEnds_modShard ..) s

theorem workEnds_clearDie (s : State) (d : Nat) : WorkEnds s (clearDie s d) := by
  have h := ((workEnds_cutPass s d).trans (workEnds_cutTouches (cutPass s d) (dieEngines s d))).trans (workEnds_dropUnwritten _ d)
  unfold clearDie
  dsimp only
  generalize dropUnwritten (cutTouches (cutPass s d) (dieEngines s d)) d = u at *
  exact (h.trans (workEnds_putDie u d (v := { dieAt u d with proto := Engine.zero }) rfl rfl rfl)).trans (.same rfl rfl rfl)

theorem workEnds_failWork (s : State) (d code : Nat) : WorkEnds s (failWork s d code) :=
  (workEnds_foldl _ (fun u id => workEnds_failReq u id code) s).trans (.same rfl rfl rfl)

theorem workEnds_failWaiting (s : State) (d code : Nat) : WorkEnds s (failWaiting s d code) := by
  refine workEnds_foldl _ (fun u id => ?_) s
  split
  · exact .ite (workEnds_failReq ..) (.refl u)
  · exact .refl u

theorem workEnds_setLink (s : State) (d port : Nat) (f : Link → Link) : WorkEnds s (setLink s d port f) :=
  .ite (.same rfl rfl rfl) (.same rfl rfl rfl)

theorem workEnds_dropLinks (s : State) (d : Nat) : WorkEnds s (dropLinks s d) :=
  workEnds_foldl _ (fun u p => workEnds_setLink u d p _) s

theorem workEnds_dropFlows (s : State) (d : Nat) : WorkEnds s (dropFlows s d) := .same rfl rfl rfl

theorem workEnds_resetPages (s : State) (p : Nat → Bool) (keep : Nat → W32) : WorkEnds s (resetPages s p keep) := .same rfl rfl rfl

theorem workEnds_rset (s : State) (p o : Nat) (w : W32) : WorkEnds s (rset s p o w) := .same rfl rfl rfl

/-- The state of a die that is off, before what was on its way to it is lost. -/
def unplugged (s : State) (d : Nat) (st : DieSt) : State :=
  modDie s d fun x => { x with
    st := st, up := false, online := false, temps := [], hkNext := none, hot := false, rise := false, trips := 0, slope := 0
    holdTill := none, fell := false }

theorem dieAt_unplugged (s : State) (d : Nat) (st : DieSt) : (dieAt (unplugged s d st) d).warn = (dieAt s d).warn ∧
    (dieAt (unplugged s d st) d).st = st ∧ (dieAt (unplugged s d st) d).up = false := by
  rw [unplugged, modDie, dieAt_putDie_self]
  exact ⟨rfl, rfl, rfl⟩

theorem dieOff_eq (s : State) (d code : Nat) (st : DieSt) : ∃ u, WorkEnds s u ∧ WorkEnds (unplugged u d st)
    (dieOff s d code st) := by
  refine ⟨resetDiePages (rset (clearDie (failWork s d code) d) pgPwr (0x80 + 4 * d)
    (put16 (dieAt (clearDie (failWork s d code) d) d).lastTemp)) d, ?_, ?_⟩
  · exact ((workEnds_failWork s d code).trans (workEnds_clearDie ..)).trans ((workEnds_rset ..).trans (workEnds_resetPages ..))
  · have hdrop := fun u => (workEnds_dropLinks u d).trans (workEnds_dropFlows (dropLinks u d) d)
    exact (hdrop _).trans (workEnds_foldl _ (fun u c => workEnds_loseCargo u c) _)

/-- A die goes off with its warnings: it stands as told, and it is down. -/
theorem dieOff_warned {s : State} {d : Nat} (hw : (dieAt s d).warn ≠ 0) (code : Nat) (st : DieSt) :
    (dieAt (dieOff s d code st) d).warn = (dieAt s d).warn ∧ (dieAt (dieOff s d code st) d).st = st ∧
      (dieAt (dieOff s d code st) d).up = false := by
  obtain ⟨u, hu, ht⟩ := dieOff_eq s d code st
  obtain ⟨hwarn, -, -⟩ := hu.die d hw
  obtain ⟨hw', hst', hup'⟩ := dieAt_unplugged u d st
  obtain ⟨h1, h2, h3⟩ := ht.die d (by rw [hw', hwarn]; exact hw)
  exact ⟨by rw [h1, hw', hwarn], by rw [h2, hst'], by rw [h3, hup']⟩

theorem workEnds_lostBy (s : State) (d code : Nat) : WorkEnds s (modDie s d fun x => { x with lostBy := code }) :=
  workEnds_putDie s d rfl rfl rfl

/-- A die is left out with its warnings. -/
theorem leaveOut_warned {s : State} {d : Nat} (hw : (dieAt s d).warn ≠ 0) (code : Nat) :
    (dieAt (leaveOut s d code) d).warn = (dieAt s d).warn ∧ (dieAt (leaveOut s d code) d).st = .leftOut ∧
      (dieAt (leaveOut s d code) d).up = false := by
  obtain ⟨h1, h2, h3⟩ := dieOff_warned hw code .leftOut
  unfold leaveOut
  dsimp only
  generalize dieOff s d code .leftOut = u at *
  obtain ⟨g1, g2, g3⟩ := ((workEnds_lostBy u d code).trans (workEnds_failWaiting _ d code)).die d (by rw [h1]; exact hw)
  exact ⟨g1.trans h1, g2.trans h2, g3.trans h3⟩

theorem leaveOut_weights (s : State) (d code : Nat) : (leaveOut s d code).weights = s.weights := by
  have h : held (leaveOut s d code) = held (dieOff s d code .leftOut) := by simp [leaveOut]
  rw [weights_of_held h, dieOff_weights]

end Sys2Proof.Laws
end

section
/-! Reset crossings of supplies (R350, R376), and the loss and return of SYSCLK (R427, R433). -/

namespace Sys2Proof.Laws

open Sys2Proof Sys2Proof.Machine

/-! ### A reset crossing of V_ISU or of a die -/

theorem exec_supplyReset (s : State) (m : Supply) : exec (.supplyReset m) s = .next (settle (supplyResetOp s m)) := rfl

/-- A line position that Belvedere holds through a reset of D3 (R220). -/
def linePlace (x : Stream) : Stream :=
  { Stream.zero with frame := x.frame, line := x.line, stamp := x.stamp, endStamp := x.endStamp }

/-- The state in which the requests that wait for a stripe have ended, and the pages of D3 are at reset values. -/
def unstriped (s : State) : State :=
  resetPages (((keysOf s.reqs).filter fun id => awaitsStripe s id).foldl (fun s id => failReq s id 0x61) s) d3Page fun a =>
    if a % 1024 = 3 then 0xFFFFFFFF else 0

theorem workEnds_unstriped (s : State) : WorkEnds s (unstriped s) :=
  (workEnds_foldl _ (fun u id => workEnds_failReq u id 0x61) s).trans (workEnds_resetPages ..)

theorem standing_unstriped (s : State) : SameStanding s (unstriped s) :=
  standing_resetPages (standing_foldl _ _ (fun u id => standing_failReq (.refl u) id 0x61) (.refl s)) ..

theorem resetD3_eq (s : State) : ∃ l, resetD3 s = setDests { unstriped s with
    streams := tmap Stream.zero linePlace (unstriped s).streams, lp11 := [], feeds := l, isu := (unstriped s).isu.tripKept } :=
  ⟨_, rfl⟩

theorem workEnds_setDests (s : State) : WorkEnds s (setDests s) := workEnds_foldl _ (fun _ _ => workEnds_rset ..) s

theorem resetD3_isu (s : State) : (resetD3 s).isu = s.isu.tripKept := by
  obtain ⟨l, h⟩ := resetD3_eq s
  rw [h, (workEnds_setDests _).isu]
  exact congrArg Isu.tripKept (workEnds_unstriped s).isu

theorem streamAt_resetD3 {s : State} (hs : tabOk (fun _ => Stream.zero) s.streams = true) (n : Nat) :
    streamAt (resetD3 s) n = linePlace (streamAt s n) := by
  obtain ⟨l, h⟩ := resetD3_eq s
  rw [streamAt, h, (workEnds_setDests _).streams]
  show tget Stream.zero (tmap Stream.zero linePlace (unstriped s).streams) n = _
  rw [(workEnds_unstriped s).streams]
  exact tget_tmapi (f := fun _ => linePlace) (fun _ => rfl) hs n

theorem standing_resetD3 (s : State) : SameStanding s (resetD3 s) := by
  obtain ⟨l, h⟩ := resetD3_eq s
  rw [h]
  refine standing_foldl _ _ (fun u n => standing_rset (.refl u) ..) ?_
  exact (standing_unstriped s).trans (.of_dies rfl)

section
variable {s : State}

/-- A reset crossing of V_ISU. -/
theorem supplyReset_visu (hoff : s.pwr.d3off = false) (hheld : s.pwr.held = false)
    (hdies : tabOk (fun _ => Die.zero) s.dies = true) (hstreams : tabOk (fun _ => Stream.zero) s.streams = true) :
    ∃ t, exec (.supplyReset .visu) s = .next t ∧
      (∀ n, let x := streamAt s n
        streamAt t n = { Stream.zero with frame := x.frame, line := x.line, stamp := x.stamp, endStamp := x.endStamp }) ∧
      t.isu = { Isu.zero with tripped := s.isu.tripped, byPlaus := s.isu.byPlaus, watchNo := s.isu.watchNo } ∧
      (∀ d, (dieAt t d).st = (dieAt s d).st ∧ (dieAt t d).up = (dieAt s d).up) ∧ t.weights = s.weights := by
  have hop : supplyResetOp s .visu = resetD3 (count s pgPwr 0x60 1) := by simp [supplyResetOp, hoff, hheld]
  have hh : held (resetD3 (count s pgPwr 0x60 1)) = held s := by simp
  refine ⟨_, exec_supplyReset s .visu, fun n => ?_, ?_, fun d => ?_, ?_⟩
  all_goals rw [hop]
  · show streamAt (settle _) n = linePlace (streamAt s n)
    rw [streamAt, settle_streams]
    exact streamAt_resetD3 (s := count s pgPwr 0x60 1) hstreams n
  · rw [settle_isu]
    exact resetD3_isu _
  · rw [(beside_settle _).dieAt]
    exact ((standing_resetD3 (count s pgPwr 0x60 1)).keeps hdies).2 d
  · rw [settle_weights]
    exact weights_of_held hh

theorem ne_zero_of_getLsbD {w : Nat} {x : BitVec w} {b : Nat} (h : x.getLsbD b = true) : x ≠ 0 := by
  rintro rfl
  simp at h

/-- The crossings of a die in the last 60 s, with the one at this instant. -/
def crossings (s : State) (d : Nat) : List Int :=
  ((s.belv.tb : Int) :: (dieAt s d).resetsAt).filter fun t => decide ((s.belv.tb : Int) < t + 60000000000)

/-- The crossing at this instant counts with those before it: with three of them it is the fourth. -/
theorem four_le_crossings (s : State) (d : Nat) : 4 ≤ (crossings s d).length ↔
    3 ≤ ((dieAt s d).resetsAt.filter fun x => decide ((s.belv.tb : Int) < x + 60000000000)).length := by
  rw [crossings, List.filter_cons_of_pos (by simp), List.length_cons]
  omega

/-- The state in which a die's crossing is counted and noted. -/
def crossed (s : State) (d b : Nat) : State :=
  modDie (count s pgPwr 0x60 1) d fun x => { x with resetsAt := crossings s d, warn := x.warn ||| (1#2 <<< b) }

theorem warn_crossed (s : State) (d b : Nat) : (dieAt (crossed s d b) d).warn = (dieAt s d).warn ||| (1#2 <<< b) :=
  congrArg Die.warn (dieAt_putDie_self ..)

theorem dieSupplyReset_on {d : Nat} (hst : (dieAt s d).st = .on) (b : Nat) :
    dieSupplyReset s d b =
      if 4 ≤ (crossings s d).length then leaveOut (crossed s d b) d 0x61 else dieOff (crossed s d b) d 0x61 .supplyReset := by
  simp only [dieSupplyReset, hst]
  rfl

/-- A reset crossing of a die in service. -/
theorem supplyReset_die {m : Supply} {d b : Nat} (hm : supplyPlace m = .inr (d, b)) (hd : d < s.part.member.dies)
    (hst : (dieAt s d).st = .on) :
    ∃ t, exec (.supplyReset m) s = .next t ∧ (dieAt t d).up = false ∧ (dieAt t d).warn.getLsbD b = true ∧
      t.weights = s.weights ∧ (dieAt t d).st = (if 3 ≤ ((dieAt s d).resetsAt.filter fun x =>
        decide ((s.belv.tb : Int) < x + 60000000000)).length then .leftOut else .supplyReset) := by
  have hb := supplyPlace_die_lt hm
  have hop : supplyResetOp s m = dieSupplyReset s d b := by
    cases m <;> simp_all [supplyPlace, supplyResetOp]
  have hbit : (dieAt (crossed s d b) d).warn.getLsbD b = true := by rw [warn_crossed]; exact getLsbD_or_bit _ hb
  have hne := ne_zero_of_getLsbD hbit
  have hw : (crossed s d b).weights = s.weights := rfl
  refine ⟨_, exec_supplyReset s m, ?_⟩
  rw [(beside_settle _).dieAt, settle_weights, hop, dieSupplyReset_on hst]
  generalize crossed s d b = u at *
  by_cases h4 : 4 ≤ (crossings s d).length
  · obtain ⟨hwarn, hleft, hup⟩ := leaveOut_warned hne 0x61
    rw [if_pos h4, if_pos ((four_le_crossings s d).mp h4)]
    exact ⟨hup, by rw [hwarn, hbit], (leaveOut_weights ..).trans hw, hleft⟩
  · obtain ⟨hwarn, hoff, hup⟩ := dieOff_warned hne 0x61 .supplyReset
    rw [if_neg h4, if_neg fun h => h4 ((four_le_crossings s d).mpr h)]
    exact ⟨hup, by rw [hwarn, hbit], (dieOff_weights ..).trans hw, hoff⟩

end

/-! ### The module held in reset (R376, R427, R433) -/

theorem exec_sysclkLoss (s : State) : exec .sysclkLoss s = .next (settle (holdInReset s none)) := rfl

theorem exec_sysclkReturn (s : State) : exec .sysclkReturn s = .next (settle (sysclkReturnOp s)) := rfl

/-- What a hold of the module in reset leaves: TB at 0, no request, the weights and the fuses. -/
structure HeldInReset (s t : State) : Prop where
  tb : t.belv.tb = 0
  weights : t.weights = s.weights
  otp : t.otp = s.otp
  reqs : t.reqs = []

theorem HeldInReset.settle {s t : State} (h : HeldInReset s t) : HeldInReset s (settle t) := by
  obtain ⟨ht, hw, ho, hr⟩ := h
  constructor <;> simpa

theorem holdInReset_held (s : State) (m : Option Supply) : HeldInReset s (holdInReset s m) := by
  obtain ⟨t, hq, hh, -, hreqs, hotp, -, hw, htb, -⟩ := coldState_from s false false
  unfold holdInReset
  dsimp only
  generalize coldState s false false = u at *
  exact ⟨(congrArg Belv.tb hq.belv).trans htb, (congrArg Held.weights hh).trans hw, hq.otp.trans hotp, hq.idle hreqs⟩

/-- What holds the module: a supply, where one did before or does now, and SYSCLK's absence. -/
structure HoldNoted (s : State) (m : Option Supply) (t : State) : Prop where
  noClk : t.pwr.noClk = (s.pwr.noClk || m.isNone)
  resetBy : t.pwr.resetBy = if s.pwr.resetBy.isSome then s.pwr.resetBy else m
  tripped : t.isu.tripped = if m = some .vaux then false else s.isu.tripped

theorem holdInReset_noted (s : State) (m : Option Supply) : HoldNoted s m (settle (holdInReset s m)) := by
  refine ⟨by rw [settle_pwr]; rfl, by rw [settle_pwr]; rfl, ?_⟩
  rw [settle_isu]
  show (if m = some .vaux then Isu.zero else s.isu.tripKept).tripped = _
  split <;> rfl

section
variable {s : State}

/-- A reset crossing of V_AUX or V_IO holds the module. -/
theorem supplyReset_holds {m : Supply} (hm : m = .vaux ∨ m = .vio) :
    ∃ t, exec (.supplyReset m) s = .next t ∧ t.pwr.held = true ∧
      t.pwr.resetBy = some (s.pwr.resetBy.getD m) ∧ t.pwr.noClk = s.pwr.noClk ∧
      t.isu.tripped = (if m = .vaux then false else s.isu.tripped) ∧ t.belv.tb = 0 ∧ t.weights = s.weights ∧ t.otp = s.otp ∧
      t.reqs = [] := by
  have hop : supplyResetOp s m = holdInReset s (some m) := by
    rcases hm with rfl | rfl <;> rfl
  obtain ⟨hclk, hby, htrip⟩ := holdInReset_noted s (some m)
  obtain ⟨htb, hw, ho, hr⟩ := (holdInReset_held s (some m)).settle
  have hby' : (settle (holdInReset s (some m))).pwr.resetBy = some (s.pwr.resetBy.getD m) := by
    rw [hby]
    cases s.pwr.resetBy <;> rfl
  refine ⟨_, exec_supplyReset s m, ?_⟩
  rw [hop]
  refine ⟨by rw [Pwr.held, hby']; exact Bool.or_true _, hby', by rw [hclk]; simp, by rw [htrip]; simp, htb, hw, ho, hr⟩

/-- The loss of SYSCLK holds the module, and a hold by a supply stays. -/
theorem sysclkLoss_holds (s : State) :
    ∃ t, exec .sysclkLoss s = .next t ∧ t.pwr.held = true ∧ t.pwr.noClk = true ∧ t.pwr.resetBy = s.pwr.resetBy ∧ t.belv.tb = 0 ∧
      t.weights = s.weights ∧ t.otp = s.otp ∧ t.reqs = [] := by
  obtain ⟨hclk, hby, -⟩ := holdInReset_noted s none
  obtain ⟨htb, hw, ho, hr⟩ := (holdInReset_held s none).settle
  have hclk' : (settle (holdInReset s none)).pwr.noClk = true := by rw [hclk]; exact Bool.or_true _
  refine ⟨_, exec_sysclkLoss s, by rw [Pwr.held, hclk']; rfl, hclk', ?_, htb, hw, ho, hr⟩
  rw [hby]
  cases s.pwr.resetBy <;> rfl

end

end Sys2Proof.Laws
end

section
/-! The return of SYSCLK (R427, R433), a die that rejoins (R376, R380), and the settling of O44. -/

namespace Sys2Proof.Laws

open Sys2Proof Sys2Proof.Machine

/-- What no step of a fold changes, the fold does not change. -/
theorem foldl_keeps {α β : Type} {π : State → β} (l : List α) {f : State → α → State} (h : ∀ u x, π (f u x) = π u) (s : State) :
    π (l.foldl f s) = π s :=
  List.foldlRecOn (motive := fun u => π u = π s) _ _ rfl fun u hu x _ => (h u x).trans hu

/-! ### A cold start has no hold (R433) -/

theorem putPlate_pwr (s : State) (p : Nat) (v : Plate) : (putPlate s p v).pwr = s.pwr := by
  obtain ⟨u, hu⟩ := putPlate_eq s p v
  rw [hu]

theorem freeReplica_pwr (s : State) (d slot shard : Nat) : (freeReplica s d slot shard).pwr = s.pwr := by
  unfold freeReplica
  dsimp only
  rw [(aside_leaveSweep ..).pwr]
  exact foldl_keeps (π := State.pwr) _ (fun u x => putPlate_pwr u _ _) s

theorem freeReplicas_pwr (s : State) (k : Nat) (p : Nat → Bool) : (freeReplicas s k p).pwr = s.pwr :=
  foldl_keeps (π := State.pwr) _ (fun u _ => freeReplica_pwr u _ _ _) s

theorem setDests_pwr (s : State) : (setDests s).pwr = s.pwr := foldl_keeps (π := State.pwr) _ (fun _ _ => rset_pwr ..) s

theorem newQSlots_pwr (s : State) (m : Manifest) (k : Nat) : (newQSlots s m k).pwr = s.pwr := by
  refine foldl_keeps (π := State.pwr) _ (fun u x => ?_) s
  rfl

theorem recordDrift_pwr (s : State) (k : Nat) : (recordDrift s k).pwr = s.pwr := by
  refine foldl_keeps (π := State.pwr) _ (fun u x => ?_) s
  rfl

theorem recordLoad_pwr (s : State) (k : Nat) : (recordLoad s k).pwr = s.pwr := by
  unfold recordLoad
  dsimp only
  rw [recordDrift_pwr, newQSlots_pwr]
  refine foldl_keeps (π := State.pwr) _ (fun u x => ?_) s
  rfl

theorem recordSlots_pwr (s : State) : (recordSlots s).pwr = s.pwr := by
  unfold recordSlots
  dsimp only
  rw [setDests_pwr, foldl_keeps (π := State.pwr) _ recordLoad_pwr]
  refine (foldl_keeps (π := State.pwr) _ (fun u k => ?_) _).trans (foldl_keeps (π := State.pwr)
      _ (fun u k => freeReplicas_pwr u k _) s)
  refine foldl_keeps (π := State.pwr) _ (fun v e => ?_) u
  split
  · exact putPlate_pwr ..
  · rfl

theorem loseArea_pwr (s : State) (k : Nat) : (loseArea s k).pwr = s.pwr := by
  unfold loseArea
  dsimp only
  split <;> rfl

theorem keepStored_pwr (s : State) (old : Tab Slot) (keep : Bool) : (keepStored s old keep).pwr = s.pwr := by
  unfold keepStored
  dsimp only
  split
  · rfl
  · exact foldl_keeps (π := State.pwr) _ loseArea_pwr _

theorem coldState_pwr (s : State) (keepTb keepMem : Bool) :
    ∃ l, (coldState s keepTb keepMem).pwr = { Pwr.zero with live := l } := by
  unfold coldState
  dsimp only
  rw [keepStored_pwr, recordSlots_pwr]
  split <;> exact ⟨_, rfl⟩

theorem otherPath_pwr (s : State) : (otherPath s).1.pwr = s.pwr := by
  unfold otherPath
  dsimp only
  (repeat' split) <;> rfl

theorem beginStart_pwr (s : State) (cause first : Nat) : (beginStart s cause first).pwr = s.pwr := by
  have hpath : (if startFailed s then otherPath (if startFailed s then modNv s fun n => { n with failRun := min (n.failRun + 1) 3 }
      else s) else (if startFailed s then modNv s fun n =>
        { n with failRun := min (n.failRun + 1) 3 } else s, false)).1.pwr = s.pwr := by
    split
    · rw [otherPath_pwr]
      rfl
    · rfl
  unfold beginStart
  dsimp only
  generalize (if startFailed s = true then _ else _ : State × Bool) = r at *
  refine Eq.trans ?_ hpath
  refine (foldl_keeps (π := State.pwr) _ (fun u d => ?_) _).trans (foldl_keeps (π := State.pwr) _ (fun u d => ?_) _)
  · rfl
  · rfl

theorem powerOn_free (s : State) (cause : Nat) : (powerOn s cause).pwr.held = false := by
  obtain ⟨l, h⟩ := coldState_pwr s false false
  unfold powerOn
  generalize coldState s false false = u at *
  rw [beginStart_pwr]
  exact congrArg Pwr.held h

section
variable {s : State}

theorem sysclkReturn_supplyHeld (hs : s.evq = []) (hc : s.pwr.noClk = true) (hb : s.pwr.resetBy.isSome = true) :
    exec .sysclkReturn s = .next { s with pwr := { s.pwr with noClk := false } } := by
  have hop : sysclkReturnOp s = { s with pwr := { s.pwr with noClk := false } } := by
    simp only [sysclkReturnOp, hc, hb, Bool.true_eq_false, if_false, if_true]
    rfl
  rw [exec_sysclkReturn, hop]
  exact congrArg _ (settle_of_nil hs)

theorem sysclkReturn_starts (hc : s.pwr.noClk = true) (hb : s.pwr.resetBy = none) :
    ∃ t, exec .sysclkReturn s = .next t ∧ t.pwr.held = false ∧ t.boot.active = true ∧ t.boot.begun = 1 ∧ t.boot.cause = 2 ∧
      t.weights = s.weights ∧ t.otp = s.otp := by
  have hop : sysclkReturnOp s = powerOn s 2 := by simp [sysclkReturnOp, hc, hb]
  have h := (powerOn_started s 2).settle
  refine ⟨_, exec_sysclkReturn s, ?_⟩
  rw [hop]
  exact ⟨by rw [settle_pwr]; exact powerOn_free s 2, h.active, h.begun, h.cause, h.weights, h.otp⟩

end

/-! ### A die that rejoins (R376, R380) -/

theorem exec_dieRejoin (s : State) (d : Nat) : exec (.dieRejoin d) s = .next (settle (dieRejoinOp s d)) := rfl

/-- An image that verifies leaves no record. -/
theorem tryImage_verified {s : State} {x : Image} {ucode : Bool} (h : (tryImage s x ucode).1 = true)
    : (tryImage s x ucode).2 = s := by
  unfold tryImage at h ⊢
  dsimp only at h ⊢
  split
  · rfl
  · next h1 =>
    rw [if_neg h1] at h
    split
    · next h2 =>
      rw [if_pos h2] at h
      exact if_pos (by simpa using h)
    · next h2 =>
      rw [if_neg h2] at h
      exact if_pos (by simpa [verify] using h)

theorem judgeStale_dies (s : State) (k : Nat) : (judgeStale s k).dies = s.dies := by
  obtain ⟨b, hb⟩ := judgeStale_eq s k
  rw [hb]
  split <;> rfl

theorem chargeCal_dies (s : State) (k : Nat) : (chargeCal s k).dies = s.dies := by
  unfold chargeCal
  dsimp only
  split
  · rfl
  · exact count64_dies ..

theorem beginCal_dies (s : State) (k : Nat) : (beginCal s k).dies = s.dies := by
  unfold beginCal
  split
  · rfl
  · exact chargeCal_dies ..

theorem implicitWindow_dies (s : State) (d : Nat) (t : Tab Saved) : (implicitWindow s d t).dies = s.dies := by
  unfold implicitWindow loadCoefs
  refine (foldl_keeps (π := State.dies) _ (fun u k => ?_) _).trans (foldl_keeps (π := State.dies) _ (fun u k => ?_) s)
  · split
    · rw [beginCal_dies, dueBringUp, judgeStale_dies]
      rfl
    · rfl
  · rfl

theorem setLink_dies (s : State) (d port : Nat) (f : Link → Link) : (setLink s d port f).dies = s.dies := by
  unfold setLink
  dsimp only
  split <;> rfl

theorem trainLinks_dies (s : State) (there : Nat → Bool) (d : Nat) : (trainLinks s there d).dies = s.dies := by
  unfold trainLinks
  dsimp only
  split
  · rw [setLink_dies]
    refine foldl_keeps (π := State.dies) _ (fun u p => ?_) s
    split
    · exact setLink_dies ..
    · rfl
  · refine foldl_keeps (π := State.dies) _ (fun u p => ?_) s
    split
    · exact setLink_dies ..
    · rfl

theorem dieUp_congr {s t : State} (h : t.dies = s.dies) (d : Nat) : dieUp t d = dieUp s d := by
  simp only [dieUp, dieAt, h]

/-- A die that is brought up is in service. -/
theorem dieUp_bringUp (s : State) (d : Nat) (t : Tab Saved) : dieUp (bringUp s d t) d = true := by
  unfold bringUp
  dsimp only
  rw [dieUp, dieAt, implicitWindow_dies, trainLinks_dies, ← dieAt, modDie, dieAt_putDie_self]
  rfl

theorem recordWindow_dies (s : State) : (recordWindow s).dies = s.dies := by
  unfold recordWindow
  split <;> rfl

theorem recordStep_dies (s : State) (begun ended : Nat) : (recordStep s begun ended).dies = s.dies := rfl

/-- A die that may rejoin and whose microcode verifies comes into service. -/
theorem dieRejoin_inService {s : State} {d : Nat} (hd : d < s.part.member.dies) (hsafe : s.boot.safe = false)
    (hready : s.boot.ready = true) (hon : diesOn s = true) (hup : (dieAt s d).up = false)
    (hst : ((dieAt s d).st = .supplyReset ∧ (dieAt s d).warn = 0) ∨
      ((dieAt s d).st = .on ∧ ((dieAt s d).fell = true → (dieAt s d).warn = 0)))
    (himg : (tryImage s (running s) true).1 = true) :
    ∃ t, exec (.dieRejoin d) s = .next t ∧ dieUp t d = true ∧ t.weights = s.weights ∧ t.hostMem = s.hostMem := by
  have hmay : mayRejoin s d = true := by
    rcases hst with ⟨h1, h2⟩ | ⟨h1, h2⟩
    · simp [mayRejoin, hd, hsafe, hready, hon, hup, h1, h2]
    · have hw : (dieAt s d).fell = false ∨ (dieAt s d).warn = 0#2 := (Bool.eq_false_or_eq_true _).symm.imp_right h2
      simpa [mayRejoin, hd, hsafe, hready, hon, hup, h1] using hw
  have hop : dieRejoinOp s d = if (dieAt s d).fell then recordWindow (recordStep (bringUp s d s.slc) 0x0B 0x0A)
      else bringUp s d s.slc := by
    simp only [dieRejoinOp, hmay, himg, tryImage_verified himg]
    rfl
  have hh := held_dieRejoinOp (s := s) d
  refine ⟨_, exec_dieRejoin s d, ?_, ?_, ?_⟩
  · have hdies : (dieRejoinOp s d).dies = (bringUp s d s.slc).dies := by
      rw [hop]
      split
      · rw [recordWindow_dies, recordStep_dies]
      · rfl
    rw [dieUp_congr ((settle_dies _).trans hdies)]
    exact dieUp_bringUp ..
  · rw [settle_weights]
    exact congrArg Held.weights hh
  · rw [settle_hostMem]
    exact congrArg Held.hostMem hh

/-- Settles O44, one command at a time: the warnings, their end, the reset crossings, SYSCLK, and the rejoining of a die. -/
theorem supplies : Obligations.Supplies := by
  refine fun s hs => ⟨fun m b => supplyWarning_pavilion, fun m d b => supplyWarning_die, fun m b hm hl => ?_, fun m d b hm hw => ?_,
    fun d t ht hle => ?_, supplyReset_visu, fun m d b => supplyReset_die, fun m => supplyReset_holds, sysclkLoss_holds s,
    sysclkReturn_supplyHeld hs, sysclkReturn_starts, fun d => dieRejoin_inService⟩
  · obtain ⟨x, hx, hne⟩ := supplyClearOp_pavilion hm hl
    have hset : ∀ p y, settle { s with pwr := p, dies := y } = { s with pwr := p, dies := y } := fun _ _ => settle_of_nil hs
    refine ⟨fun hb => ?_, _, exec_supplyWarningClear s m, ?_⟩
    · rw [exec_supplyWarningClear, hx, hset, hne hb]
    · rw [hx, hset]
      exact ⟨rfl, rfl, rfl⟩
  · have hop := supplyClearOp_die hm hw
    rw [exec_supplyWarningClear, hop]
    exact congrArg _ (settle_of_nil hs)
  · have hop := supHoldEndOp_ends ht hle
    have he : exec (.supHoldEnd d) s = .next (settle (supHoldEndOp s d)) := rfl
    rw [he, hop]
    exact congrArg _ (settle_of_nil hs)

end Sys2Proof.Laws
end

section
/-! Operands of the vector unit (R163 to R166): instruction words, lanes, masks and scalars after a write, and the elements of a
core's memory (R159). -/

namespace Sys2Proof.Laws

open Sys2Proof Sys2Proof.Machine

/-! ### Instruction words (R165) -/

/-- The operation is in the highest byte of the word. -/
theorem vOp_vWord {op : Nat} (f : VF) (h : op < 256) : vOp (vWord op f) = op := by
  have hdt := f.dt.isLt
  have hvd := f.vd.isLt
  have hva := f.va.isLt
  have hvb := f.vb.isLt
  have hmsk := f.msk.isLt
  have himm := f.imm.isLt
  have hmz : (if f.mz then 2 ^ 33 else 0) ≤ 2 ^ 33 := by split <;> omega
  have hsat : (if f.sat then 2 ^ 32 else 0) ≤ 2 ^ 32 := by split <;> omega
  rw [vOp, vWord, BitVec.toNat_ofNat]
  omega

theorem vWord_ne {a b : Nat} (f g : VF) (ha : a < 256) (hb : b < 256) (h : a ≠ b) : vWord a f ≠ vWord b g := fun e =>
  h (by rw [← vOp_vWord f ha, e, vOp_vWord g hb])

/-! ### Lanes, masks and scalars (R163) -/

/-- A vector register with its lanes written: that register reads as written, and every other as before. -/
theorem lane_setVec (k : Core) (r : Nat) (g : Nat → W32) (q : Nat) {i : Nat} (hi : i < 64) :
    (k.setVec r g).lane q i = if q = r then g i else k.lane q i := by
  unfold Core.lane Core.setVec
  split
  · next h =>
    subst h
    refine tget_foldl_tset_of 0 (fun i => 64 * q + i) g _ _ (fun x _ hx => ?_) (.inl ⟨i, List.mem_range.mpr hi, rfl⟩)
    rw [Nat.add_left_cancel hx]
  · next h =>
    refine tget_foldl_tset_of 0 (fun i => 64 * r + i) g _ _ (fun x hx hk => ?_) (.inr rfl)
    have := List.mem_range.mp hx
    exact absurd (show q = r by omega) h

theorem mask_setMask (k : Core) (r : Nat) (w : W64) (j : Nat) :
    (k.setMask r w).mask j = if j = r ∧ j ≠ 0 then w else k.mask j := by
  unfold Core.mask Core.setMask
  by_cases hr : r = 0
  · simp +contextual [hr]
  · by_cases hj : j = r
    · subst hj
      simp [hr, tget_tset_self]
    · simp [hr, hj, tget_tset_other _ _ _ _ (Ne.symm hj)]

theorem scalar_setScalar (k : Core) (r : Nat) (w : W32) (j : Nat) :
    (k.setScalar r w).scalar j = if j = r ∧ j ≠ 0 then w else k.scalar j := by
  unfold Core.scalar Core.setScalar
  by_cases hr : r = 0
  · simp +contextual [hr]
  · by_cases hj : j = r
    · subst hj
      simp [hr, tget_tset_self]
    · simp [hr, hj, tget_tset_other _ _ _ _ (Ne.symm hj)]

theorem setMask_eq (k : Core) (r : Nat) (w : W64) : ∃ m, k.setMask r w = { k with m := m } := by
  unfold Core.setMask
  split
  · exact ⟨k.m, rfl⟩
  · exact ⟨_, rfl⟩

theorem setScalar_eq (k : Core) (r : Nat) (w : W32) : ∃ m, k.setScalar r w = { k with sc := m } := by
  unfold Core.setScalar
  split
  · exact ⟨k.sc, rfl⟩
  · exact ⟨_, rfl⟩

/-- A word made of listed bits has exactly these. -/
theorem getLsbD_ofBits {n : Nat} (l : List Nat) {i : Nat} (hi : i < n) : (ofBits n l).getLsbD i = decide (i ∈ l) := by
  have h (m : BitVec n) : (l.foldl (fun m i => m ||| (1#n <<< i)) m).getLsbD i = (m.getLsbD i || decide (i ∈ l)) := by
    induction l generalizing m with
    | nil => simp
    | cons j l ih =>
      rw [List.foldl_cons, ih, BitVec.getLsbD_or, Bool.or_assoc]
      congr 1
      by_cases hij : i = j
      · subst hij
        simp [hi]
      · have : i < j ∨ i - j ≠ 0 := by omega
        rcases this with h | h <;> simp [h, hij]
  exact (h 0).trans (by simp)

theorem mem_on {k : Core} {f : VF} {i : Nat} : i ∈ k.on f ↔ i < 64 ∧ k.enabled f i = true := by
  simp [Core.on]

/-- A test of the elements of the enabled lanes. -/
theorem all_on {k : Core} {f : VF} {q : Nat → Bool} :
    (k.on f).all q = true ↔ ∀ i, i < 64 → k.enabled f i = true → q i = true := by
  simp [mem_on]

/-! ### Bytes (R159) -/

@[simp] theorem length_leBytes (n v : Nat) : (leBytes n v).length = n := by
  induction n generalizing v with
  | zero => rfl
  | succ n ih => rw [leBytes, List.length_cons, ih]

theorem leVal_leBytes (n v : Nat) : leVal (leBytes n v) = v % 256 ^ n := by
  induction n generalizing v with
  | zero => simp [leBytes, leVal, Nat.mod_one]
  | succ n ih =>
    rw [leBytes, leVal, ih, BitVec.toNat_ofNat, pow_succ' 256 n, Nat.mod_mul]

/-- The bytes written read as written. -/
theorem bytesAt_putBytes (t : Tab Byte) (a : Nat) (l : List Byte) : bytesAt (putBytes t a l) a l.length = l := by
  refine List.ext_getElem (by simp [bytesAt]) fun i _ hi => ?_
  simp only [bytesAt, List.getElem_map, List.getElem_range, putBytes]
  refine tget_foldl_tset_of 0 (fun e : Byte × Nat => a + e.2) Prod.fst _ _ (fun x hx hk => ?_) (.inl ⟨(l[i], i), ?_, rfl⟩)
  · obtain ⟨v, j⟩ := x
    obtain ⟨_, _, hv⟩ := List.mem_zipIdx hx
    obtain rfl : j = i := Nat.add_left_cancel hk
    simpa using hv
  · exact List.mem_zipIdx_iff_getElem?.mpr (List.getElem?_eq_getElem hi)

theorem numAt_congr {t u : Tab Byte} {a n : Nat} (h : ∀ i, i < n → tget 0 u (a + i) = tget 0 t (a + i)) :
    numAt u a n = numAt t a n := by
  rw [numAt, numAt, bytesAt, bytesAt, List.map_congr_left fun i hi => h i (List.mem_range.mp hi)]

theorem numAt_putBytes_leBytes (t : Tab Byte) (a n v : Nat) : numAt (putBytes t a (leBytes n v)) a n = v % 256 ^ n := by
  have h := bytesAt_putBytes t a (leBytes n v)
  rw [length_leBytes] at h
  rw [numAt, h, leVal_leBytes]

/-! ### Elements of a core's memory (R159) -/

theorem fmtWidth_cases (dt : Nat) : fmtWidth dt = 4 ∨ fmtWidth dt = 8 ∨ fmtWidth dt = 16 ∨ fmtWidth dt = 32 := by
  unfold fmtWidth
  split_ifs <;> simp

/-- The byte with one nibble replaced: the low one for an even place. -/
def nibblePut (old i raw : Nat) : Nat := if i % 2 = 0 then old / 16 * 16 + raw % 16 else raw % 16 * 16 + old % 16

theorem nibblePut_self (old i raw : Nat) : nibblePut old i raw % 256 / 2 ^ (4 * (i % 2)) % 16 = raw % 16 := by
  unfold nibblePut
  rcases Nat.mod_two_eq_zero_or_one i with hi | hi
  · rw [hi, if_pos rfl]
    omega
  · rw [hi, if_neg one_ne_zero]
    omega

theorem nibblePut_other {i j : Nat} (old raw : Nat) (hij : i % 2 ≠ j % 2) :
    nibblePut old j raw % 256 / 2 ^ (4 * (i % 2)) % 16 = old / 2 ^ (4 * (i % 2)) % 16 := by
  unfold nibblePut
  rcases Nat.mod_two_eq_zero_or_one j with hj | hj
  · obtain hi : i % 2 = 1 := by omega
    rw [hi, hj, if_pos rfl]
    omega
  · obtain hi : i % 2 = 0 := by omega
    rw [hi, hj, if_neg one_ne_zero]
    omega

/-- An element of 4 bits is written by its byte, and any other by its own bytes. -/
theorem coreElemPut_nibble {dt : Nat} (s : State) (c base i raw : Nat) (h : fmtWidth dt = 4) :
    coreElemPut s c dt base i raw = corePut s c (elemAddr dt base i)
      (leBytes 1 (nibblePut (numAt s.coreMem (coreKey c (elemAddr dt base i)) 1) i raw)) := by
  unfold coreElemPut nibblePut
  exact if_pos h

theorem coreElemPut_bytes {dt : Nat} (s : State) (c base i raw : Nat) (h : fmtWidth dt ≠ 4) :
    coreElemPut s c dt base i raw = corePut s c (elemAddr dt base i) (leBytes (fmtWidth dt / 8) raw) := if_neg h

theorem coreElem_nibble {dt : Nat} (s : State) (c base i : Nat) (h : fmtWidth dt = 4) :
    coreElem s c dt base i = numAt s.coreMem (coreKey c (elemAddr dt base i)) 1 / 2 ^ (4 * (i % 2)) % 16 := if_pos h

theorem coreElem_bytes {dt : Nat} (s : State) (c base i : Nat) (h : fmtWidth dt ≠ 4) :
    coreElem s c dt base i = numAt s.coreMem (coreKey c (elemAddr dt base i)) (fmtWidth dt / 8) := if_neg h

/-- Of the state, a store changes the cores' memory alone. -/
theorem coreElemPut_rest (s : State) (c dt base i raw : Nat) :
    { coreElemPut s c dt base i raw with coreMem := s.coreMem } = s := by
  unfold coreElemPut
  dsimp only
  split <;> rfl

theorem tget_coreElemPut_other (s : State) (c dt base i raw : Nat) {x : Nat}
    (h : x < coreKey c (elemAddr dt base i) ∨ coreKey c (elemAddr dt base i) + elemBytes dt ≤ x) :
    tget 0 (coreElemPut s c dt base i raw).coreMem x = tget 0 s.coreMem x := by
  have hb : 1 ≤ elemBytes dt ∧ fmtWidth dt / 8 ≤ elemBytes dt := by unfold elemBytes; omega
  by_cases hw : fmtWidth dt = 4
  · rw [coreElemPut_nibble _ _ _ _ _ hw]
    exact tget_putBytes_other _ _ _ _ (by rw [length_leBytes]; omega)
  · rw [coreElemPut_bytes _ _ _ _ _ hw]
    exact tget_putBytes_other _ _ _ _ (by rw [length_leBytes]; omega)

theorem coreElem_coreElemPut_self (s : State) (c dt base i raw : Nat) :
    coreElem (coreElemPut s c dt base i raw) c dt base i = raw % 2 ^ fmtWidth dt := by
  by_cases hw : fmtWidth dt = 4
  · rw [coreElemPut_nibble _ _ _ _ _ hw, coreElem_nibble _ _ _ _ hw, corePut, numAt_putBytes_leBytes, hw, pow_one,
      nibblePut_self]
    rfl
  · rw [coreElemPut_bytes _ _ _ _ _ hw, coreElem_bytes _ _ _ _ hw, corePut, numAt_putBytes_leBytes]
    rcases fmtWidth_cases dt with h | h | h | h <;> simp_all

/-- The places of two elements are apart, but for the two nibbles of a byte. -/
theorem elemAddr_apart {dt i j : Nat} (base : Nat) (h : i ≠ j) (hw : fmtWidth dt ≠ 4) :
    elemAddr dt base i + fmtWidth dt / 8 ≤ elemAddr dt base j ∨ elemAddr dt base j + fmtWidth dt / 8 ≤ elemAddr dt base i := by
  unfold elemAddr
  rcases fmtWidth_cases dt with h | h | h | h <;> rw [h] <;> omega

theorem coreElem_coreElemPut_other (s : State) (c dt base raw : Nat) {i j : Nat} (hij : i ≠ j) :
    coreElem (coreElemPut s c dt base j raw) c dt base i = coreElem s c dt base i := by
  by_cases hw : fmtWidth dt = 4
  · rw [coreElem_nibble _ _ _ _ hw, coreElem_nibble _ _ _ _ hw]
    by_cases ha : elemAddr dt base i = elemAddr dt base j
    · rw [coreElemPut_nibble _ _ _ _ _ hw, corePut, ha, numAt_putBytes_leBytes, pow_one,
        nibblePut_other _ _ (by unfold elemAddr at ha; rw [hw] at ha; omega)]
    · rw [numAt_congr fun n hn => tget_coreElemPut_other _ _ _ _ _ _ ?_]
      unfold elemBytes coreKey
      rw [hw]
      omega
  · rw [coreElem_bytes _ _ _ _ hw, coreElem_bytes _ _ _ _ hw, numAt_congr fun n hn => ?_]
    rw [coreElemPut_bytes _ _ _ _ _ hw]
    refine tget_putBytes_other _ _ _ _ ?_
    have := elemAddr_apart base hij hw
    rw [length_leBytes]
    unfold coreKey
    omega

/-! ### Elements stored one after another -/

/-- Elements of some lanes stored in turn. -/
def storeLanes (s : State) (c dt base : Nat) (g : Nat → Nat) (l : List Nat) : State :=
  l.foldl (fun s i => coreElemPut s c dt base i (g i)) s

theorem storeLanes_rest (s : State) (c dt base : Nat) (g : Nat → Nat) (l : List Nat) :
    { storeLanes s c dt base g l with coreMem := s.coreMem } = s := by
  induction l generalizing s with
  | nil => rfl
  | cons i l ih =>
    have h := congrArg (fun t : State => { t with coreMem := s.coreMem }) (ih (coreElemPut s c dt base i (g i)))
    exact h.trans (coreElemPut_rest ..)

theorem coreElem_storeLanes (s : State) (c dt base : Nat) (g : Nat → Nat) (l : List Nat) (i : Nat) :
    coreElem (storeLanes s c dt base g l) c dt base i = if i ∈ l then g i % 2 ^ fmtWidth dt else coreElem s c dt base i := by
  induction l generalizing s with
  | nil => rfl
  | cons j l ih =>
    rw [storeLanes, List.foldl_cons, ← storeLanes, ih]
    by_cases hl : i ∈ l
    · simp [hl]
    · by_cases hj : i = j
      · subst hj
        simp [hl, coreElem_coreElemPut_self]
      · simp [hl, hj, coreElem_coreElemPut_other _ _ _ _ _ hj]

theorem tget_storeLanes_other (s : State) (c dt base : Nat) (g : Nat → Nat) (l : List Nat) {x : Nat}
    (h : ∀ i ∈ l, x < coreKey c (elemAddr dt base i) ∨ coreKey c (elemAddr dt base i) + elemBytes dt ≤ x) :
    tget 0 (storeLanes s c dt base g l).coreMem x = tget 0 s.coreMem x := by
  induction l generalizing s with
  | nil => rfl
  | cons j l ih =>
    rw [storeLanes, List.foldl_cons, ← storeLanes, ih _ fun i hi => h i (.tail _ hi),
      tget_coreElemPut_other _ _ _ _ _ _ (h j (.head _))]

end Sys2Proof.Laws
end

section
/-! The issue of an instruction (R163, R167, R169): what the program leaves and sets where it goes on, and where it faults. -/

namespace Sys2Proof.Laws

open Sys2Proof Sys2Proof.Machine

/-! ### The issue cycles (R167, R182) -/

/-- A counter at another offset leaves a core's count of issue cycles, at 0x4C and 0x50 of its VEC page. -/
theorem rget64_count_other (s : State) (c : Nat) {p o : Nat} (n : Nat) (ho : o < 4096) (h1 : o / 4 ≠ 19) (h2 : o / 4 ≠ 20) :
    rget64 (count s p o n) (pgVec c) 0x4C = rget64 s (pgVec c) 0x4C := by
  rw [rget64, rget64, rget_count_other, rget_count_other] <;> rw [Ne, dwAddr_inj ho (by omega)] <;> omega

theorem rget64_congr {s t : State} {p o : Nat} (hl : rget t p o = rget s p o) (hh : rget t p (o + 4) = rget s p (o + 4)) :
    rget64 t p o = rget64 s p o := by
  rw [rget64, rget64, hl, hh]

theorem cycles_putCore (s : State) (c : Nat) (k : Core) : rget64 (putCore s c k) (pgVec c) 0x4C = rget64 s (pgVec c) 0x4C :=
  rget64_congr (rget_of_regs (putCore_regs ..) _ _) (rget_of_regs (putCore_regs ..) _ _)

theorem coreAt_congr {s t : State} (h : t.cores = s.cores) (c : Nat) : coreAt t c = coreAt s c := by rw [coreAt, h, coreAt]

theorem coreAt_putCore_self (s : State) (c : Nat) (k : Core) : coreAt (putCore s c k) c = k := tget_tset_self ..

theorem coreAt_putCore_other (s : State) {c e : Nat} (k : Core) (h : e ≠ c) : coreAt (putCore s c k) e = coreAt s e :=
  tget_tset_other _ _ _ _ (Ne.symm h)

theorem qslotAt_congr {s t : State} (h : t.qslots = s.qslots) (k : Nat) : qslotAt t k = qslotAt s k := by rw [qslotAt, h, qslotAt]

theorem runAt_congr {s t : State} (h : t.runs = s.runs) (r : Nat) : runAt t r = runAt s r := by rw [runAt, h, runAt]

/-! ### Where a program runs -/

/-- A program runs on a core whose clocks run, and which is not halted or may issue one instruction (R167, R408). -/
structure CoreRuns (s : State) (c : Nat) (p : VRun) : Prop where
  clocks : coreClocks s = true
  vrun : (coreAt s c).vrun = some p
  go : halted s c = false ∨ (coreAt s c).step = true

theorem vecReady_of_runs {s : State} {c op : Nat} {f : VF} {p : VRun} (h : CoreRuns s c p)
    (hw : progWord s c (coreAt s c).pc = some (vWord op f)) : vecReady s c op f = true := by
  have hgo : (!halted s c || (coreAt s c).step) = true := by simpa using h.go
  simp [vecReady, h.clocks, h.vrun, hgo, hw]

/-! ### The program goes on -/

/-- A core whose program stands at an index, within the levels of LOOP `ls`. -/
def placed (k : Core) (ls : List LoopSt) (pc : Nat) : Core := { k with loops := ls, pc := pc, step := false }

section

variable (k : Core) (ls : List LoopSt) (pc : Nat)

@[simp] theorem placed_v : (placed k ls pc).v = k.v := rfl
@[simp] theorem placed_m : (placed k ls pc).m = k.m := rfl
@[simp] theorem placed_sc : (placed k ls pc).sc = k.sc := rfl
@[simp] theorem placed_pc : (placed k ls pc).pc = pc := rfl
@[simp] theorem placed_vrun : (placed k ls pc).vrun = k.vrun := rfl
@[simp] theorem placed_loops : (placed k ls pc).loops = ls := rfl
@[simp] theorem placed_step : (placed k ls pc).step = false := rfl
@[simp] theorem placed_lane (r i : Nat) : (placed k ls pc).lane r i = k.lane r i := rfl
@[simp] theorem placed_mask (r : Nat) : (placed k ls pc).mask r = k.mask r := rfl
@[simp] theorem placed_scalar (r : Nat) : (placed k ls pc).scalar r = k.scalar r := rfl

end

/-- From `u` to `t` the program of a core goes on at an index, with the levels of LOOP `ls`: of the tables that an instruction
reaches, only that core has changed. -/
structure WentOn (u t : State) (c : Nat) (ls : List LoopSt) (pc : Nat) : Prop where
  core : coreAt t c = placed (coreAt u c) ls pc
  others : ∀ e, e ≠ c → coreAt t e = coreAt u e
  coreMem : t.coreMem = u.coreMem
  progs : t.progs = u.progs
  reqs : t.reqs = u.reqs
  qslots : t.qslots = u.qslots
  free : t.free = u.free
  cycles : rget64 t (pgVec c) 0x4C = rget64 u (pgVec c) 0x4C

theorem rget64_settle (s : State) (c : Nat) : rget64 (settle s) (pgVec c) 0x4C = rget64 s (pgVec c) 0x4C :=
  rget64_congr (rget_settle _ (by omega) (by omega) (by omega) (by omega) (by omega) (by omega))
    (rget_settle _ (by omega) (by omega) (by omega) (by omega) (by omega) (by omega))

/-- Inside its own instructions the program goes on. -/
theorem wentOn_vecNext {u : State} {c pc pc' : Nat} {ls : List LoopSt} {p : VRun} (hv : (coreAt u c).vrun = some p)
    (hl : loopBack (coreAt u c).loops pc = (ls, pc')) (hb : p.first ≤ pc' ∧ pc' < p.first + p.count) :
    WentOn u (settle (vecNext u c pc)) c ls pc' := by
  have hn : vecNext u c pc = putCore u c (placed (coreAt u c) ls pc') := by
    unfold vecNext
    dsimp only
    rw [hv]
    dsimp only
    rw [hl, placed, hv]
    exact if_pos hb
  rw [hn]
  constructor
  · rw [coreAt_congr (settle_cores _), coreAt_putCore_self]
  · intro e he
    rw [coreAt_congr (settle_cores _), coreAt_putCore_other _ _ he]
  · rw [settle_coreMem, putCore_coreMem]
  · rw [settle_progs, putCore_progs]
  · rw [settle_reqs, putCore_reqs]
  · rw [settle_qslots, putCore_qslots]
  · rw [settle_free, putCore_free]
  · rw [rget64_settle, cycles_putCore]

/-- Outside any loop it goes on at the given index. -/
theorem wentOn_unlooped {u : State} {c pc : Nat} {p : VRun} (hv : (coreAt u c).vrun = some p) (hl : (coreAt u c).loops = [])
    (hb : p.first ≤ pc ∧ pc < p.first + p.count) : WentOn u (settle (vecNext u c pc)) c [] pc :=
  wentOn_vecNext hv (by rw [hl]; rfl) hb

/-- An instruction that does not fault counts its cycles, is done, and the program goes on with the next one. -/
theorem issue_goesOn {s u : State} {c op : Nat} {f : VF} {p : VRun} {act : VAct} (h : CoreRuns s c p)
    (hb : p.first ≤ (coreAt s c).pc + 1 ∧ (coreAt s c).pc + 1 < p.first + p.count)
    (hw : progWord s c (coreAt s c).pc = some (vWord op f))
    (ha : act f c (coreAt s c) (count64 s (pgVec c) 0x4C (vecCycles op)) = some u) (hv : (coreAt u c).vrun = some p)
    (hl : (coreAt u c).loops = []) : WentOn u (settle (issue s c op f act)) c [] ((coreAt s c).pc + 1) := by
  have hi : issue s c op f act = vecNext u c ((coreAt s c).pc + 1) := by
    unfold issue
    rw [if_pos (vecReady_of_runs h hw)]
    dsimp only
    rw [ha]
  rw [hi]
  exact wentOn_unlooped hv hl hb

/-- One that faults stops the program at it. -/
theorem issue_faults {s : State} {c op : Nat} {f : VF} {p : VRun} {act : VAct} (h : CoreRuns s c p)
    (hw : progWord s c (coreAt s c).pc = some (vWord op f))
    (ha : act f c (coreAt s c) (count64 s (pgVec c) 0x4C (vecCycles op)) = none) :
    issue s c op f act = progFault (count64 s (pgVec c) 0x4C (vecCycles op)) c (coreAt s c).pc := by
  unfold issue
  rw [if_pos (vecReady_of_runs h hw)]
  dsimp only
  rw [ha]

end Sys2Proof.Laws
end

section
/-! Arithmetic, comparisons, selections, reductions, moves and conversions (R160 to R168): what each of them leaves and sets, and
the settling of O59. -/

namespace Sys2Proof.Laws

open Sys2Proof Sys2Proof.Machine

/-! ### What an operation of the lanes does -/

/-- Of the state, an operation changes its core `c`, to `z` but for the place of the program. -/
structure ActsOn (s u : State) (c : Nat) (z : Core) : Prop where
  core : coreAt u c = z
  others : ∀ e, e ≠ c → coreAt u e = coreAt s e
  coreMem : u.coreMem = s.coreMem
  progs : u.progs = s.progs
  reqs : u.reqs = s.reqs
  cycles : rget64 u (pgVec c) 0x4C = rget64 s (pgVec c) 0x4C

theorem actsOn_putCore (s : State) (c : Nat) (z : Core) : ActsOn s (putCore s c z) c z where
  core := coreAt_putCore_self ..
  others _ he := coreAt_putCore_other _ _ he
  coreMem := putCore_coreMem ..
  progs := putCore_progs ..
  reqs := putCore_reqs ..
  cycles := cycles_putCore ..

theorem actsOn_refl (s : State) (c : Nat) : ActsOn s s c (coreAt s c) := ⟨rfl, fun _ _ => rfl, rfl, rfl, rfl, rfl⟩

theorem actsOn_noteNans {s u : State} {c : Nat} {z : Core} (h : ActsOn s u c z) (n code : Nat) :
    ActsOn s (noteNans u c n code) c z := by
  unfold noteNans
  split
  · exact h
  · exact ⟨(coreAt_congr rfl c).trans h.core, fun e he => (coreAt_congr rfl e).trans (h.others e he), h.coreMem, h.progs, h.reqs,
      (rget64_count_other u c n (by omega) (by omega) (by omega)).trans h.cycles⟩

/-- An instruction of the word at the program's place ends in a state whose core meets `post`: its cycles are counted, the program
goes on with the next one, and no other core, byte, program or request changes. -/
def Gives (s : State) (c op : Nat) (f : VF) (o : Host.Outcome State Fault Refusal) (post : Core → Prop) : Prop :=
  progWord s c (coreAt s c).pc = some (vWord op f) → ∃ t, o = .next t ∧ post (coreAt t c) ∧
    (coreAt t c).pc = (coreAt s c).pc + 1 ∧ (coreAt t c).vrun = (coreAt s c).vrun ∧ (coreAt t c).step = false ∧
    t.coreMem = s.coreMem ∧ t.progs = s.progs ∧ t.reqs = s.reqs ∧ (∀ e, e ≠ c → coreAt t e = coreAt s e) ∧
    rget64 t (pgVec c) 0x4C = (rget64 s (pgVec c) 0x4C + vecCycles op) % 2 ^ 64

/-- The lanes of VD hold the results where they are enabled and keep or lose theirs elsewhere; nothing else changes. -/
def LanesSet (k : Core) (f : VF) (g : Nat → W32) (z : Core) : Prop :=
  z.m = k.m ∧ z.sc = k.sc ∧
    (∀ i, i < 64 → z.lane f.vd.toNat i = if k.enabled f i then g i else if f.mz then 0 else k.lane f.vd.toNat i) ∧
    (∀ r i, r ≠ f.vd.toNat → i < 64 → z.lane r i = k.lane r i)

/-- The scalar of VD holds a word; nothing else changes. -/
def ScalarSet (k : Core) (f : VF) (w : W32) (z : Core) : Prop :=
  z.m = k.m ∧ z.v = k.v ∧ (∀ j, z.scalar j = if j = f.vd.toNat % 16 ∧ j ≠ 0 then w else k.scalar j)

theorem lanesSet_setLanes (k : Core) (f : VF) (g : Nat → W32) : LanesSet k f g (k.setLanes f g) :=
  ⟨rfl, rfl, fun _ hi => (lane_setVec _ _ _ _ hi).trans (if_pos rfl), fun _ _ hr hi => (lane_setVec _ _ _ _ hi).trans (if_neg hr)⟩

theorem LanesSet.placed {k z : Core} {f : VF} {g : Nat → W32} (h : LanesSet k f g z) (ls : List LoopSt) (pc : Nat) :
    LanesSet k f g (placed z ls pc) := by
  simpa [LanesSet] using h

theorem ScalarSet.placed {k z : Core} {f : VF} {w : W32} (h : ScalarSet k f w z) (ls : List LoopSt) (pc : Nat) :
    ScalarSet k f w (placed z ls pc) := by
  simpa [ScalarSet] using h

theorem scalarSet_setScalar (k : Core) (f : VF) (w : W32) : ScalarSet k f w (k.setScalar (f.vd.toNat % 16) w) := by
  obtain ⟨sc, h⟩ := setScalar_eq k (f.vd.toNat % 16) w
  exact ⟨by rw [h], by rw [h], scalar_setScalar k _ w⟩

/-- The products of the four bytes of a lane, added one after another. -/
theorem vdotAct_eq : vdotAct = lanes fun k f i => ofLane (intFit 5 f.sat (laneInt 5 (k.lane f.vd.toNat i) +
    (byteInt (k.lane f.va.toNat i) 0 * byteInt (k.laneB f i) 0 + byteInt (k.lane f.va.toNat i) 1 * byteInt (k.laneB f i) 1 +
      byteInt (k.lane f.va.toNat i) 2 * byteInt (k.laneB f i) 2 +
      byteInt (k.lane f.va.toNat i) 3 * byteInt (k.laneB f i) 3))) := by
  unfold vdotAct
  simp only [show List.range 4 = [0, 1, 2, 3] from rfl, List.map_cons, List.map_nil, List.sum_cons, List.sum_nil, add_zero,
    add_assoc]

section

variable {s : State} {c op : Nat} {f : VF} {p : VRun} (h : CoreRuns s c p) (hl : (coreAt s c).loops = [])
  (hb : p.first ≤ (coreAt s c).pc + 1 ∧ (coreAt s c).pc + 1 < p.first + p.count)

include h hl hb

/-- An operation that only writes operands. -/
theorem gives_of_acts {act : VAct} {u : State} {z : Core} {post : Core → Prop}
    (ha : act f c (coreAt s c) (count64 s (pgVec c) 0x4C (vecCycles op)) = some u)
    (hu : ActsOn (count64 s (pgVec c) 0x4C (vecCycles op)) u c z) (hz : z.vrun = (coreAt s c).vrun ∧ z.loops = (coreAt s c).loops)
    (hp : post (placed z [] ((coreAt s c).pc + 1))) :
    Gives s c op f (done (issue s c op f act)) post := by
  intro hw
  have ht := issue_goesOn h hb hw ha (by rw [hu.core, hz.1, h.vrun]) (by rw [hu.core, hz.2, hl])
  have hc := ht.core
  rw [hu.core] at hc
  refine ⟨_, done_eq _, by rwa [hc], by rw [hc, placed_pc], by rw [hc, placed_vrun, hz.1], by rw [hc, placed_step],
    ?_, ?_, ?_, fun e he => ?_, ?_⟩
  · rw [ht.coreMem, hu.coreMem, count64_coreMem]
  · rw [ht.progs, hu.progs, count64_progs]
  · rw [ht.reqs, hu.reqs, count64_reqs]
  · rw [ht.others e he, hu.others e he, coreAt_congr (count64_cores ..)]
  · rw [ht.cycles, hu.cycles, rget64_count64]

/-- One that puts its core. -/
theorem gives_of_putCore {act : VAct} {z : Core} {post : Core → Prop} (ha : ∀ t, act f c (coreAt s c) t = some (putCore t c z))
    (hz : z.vrun = (coreAt s c).vrun ∧ z.loops = (coreAt s c).loops)
    (hp : post (placed z [] ((coreAt s c).pc + 1))) :
    Gives s c op f (done (issue s c op f act)) post :=
  gives_of_acts h hl hb (ha _) (actsOn_putCore ..) hz hp

theorem gives_lanes (g : Core → VF → Nat → W32) :
    Gives s c op f (done (issue s c op f (lanes g))) (LanesSet (coreAt s c) f (g (coreAt s c) f)) :=
  gives_of_putCore h hl hb (z := (coreAt s c).setLanes f (g (coreAt s c) f)) (fun _ => rfl) ⟨rfl, rfl⟩
    ((lanesSet_setLanes ..).placed ..)

theorem gives_vdot : Gives s c op f (done (issue s c op f vdotAct)) (LanesSet (coreAt s c) f fun i =>
    ofLane (intFit 5 f.sat (laneInt 5 ((coreAt s c).lane f.vd.toNat i) +
      (byteInt ((coreAt s c).lane f.va.toNat i) 0 * byteInt ((coreAt s c).laneB f i) 0 +
        byteInt ((coreAt s c).lane f.va.toNat i) 1 * byteInt ((coreAt s c).laneB f i) 1 +
        byteInt ((coreAt s c).lane f.va.toNat i) 2 * byteInt ((coreAt s c).laneB f i) 2 +
        byteInt ((coreAt s c).lane f.va.toNat i) 3 * byteInt ((coreAt s c).laneB f i) 3)))) := by
  rw [vdotAct_eq]
  exact gives_lanes h hl hb _

theorem gives_reduce (r : VF → W32 → W32 → W32) (z : VF → W32) (g : W32 → W32) :
    Gives s c op f (done (issue s c op f (reduce r z g))) (ScalarSet (coreAt s c) f ((tree (r f) 6 ((List.range 64).map fun i =>
      if (coreAt s c).enabled f i then g ((coreAt s c).lane f.va.toNat i) else z f)).headD 0)) := by
  refine gives_of_putCore h hl hb (fun _ => rfl) ?_ ?_
  · obtain ⟨sc, hs⟩ := setScalar_eq (coreAt s c) (f.vd.toNat % 16) ((tree (r f) 6 ((List.range 64).map fun i =>
      if (coreAt s c).enabled f i then g ((coreAt s c).lane f.va.toNat i) else z f)).headD 0)
    rw [hs]
    exact ⟨rfl, rfl⟩
  · exact (scalarSet_setScalar ..).placed ..

theorem gives_nop : Gives s c op f (done (issue s c op f nopAct)) fun z =>
    z.v = (coreAt s c).v ∧ z.m = (coreAt s c).m ∧ z.sc = (coreAt s c).sc := by
  have hu := actsOn_refl (count64 s (pgVec c) 0x4C (vecCycles op)) c
  rw [coreAt_congr (count64_cores ..)] at hu
  exact gives_of_acts h hl hb rfl hu ⟨rfl, rfl⟩ ⟨placed_v .., placed_m .., placed_sc ..⟩

theorem gives_vcmp : Gives s c op f (done (issue s c op f vcmpAct)) fun z =>
    z.v = (coreAt s c).v ∧ z.sc = (coreAt s c).sc ∧ (∀ j, j ≠ f.vd.toNat % 8 → z.mask j = (coreAt s c).mask j) ∧
      (∀ i, i < 64 → f.vd.toNat % 8 ≠ 0 → (z.mask (f.vd.toNat % 8)).getLsbD i =
        if (coreAt s c).enabled f i then condHolds (f.imm.toNat % 8) (laneOrder (coreAt s c) f i)
        else !f.mz && ((coreAt s c).mask (f.vd.toNat % 8)).getLsbD i) := by
  have hm (w : W64) : ((coreAt s c).setMask (f.vd.toNat % 8) w).v = (coreAt s c).v ∧
      ((coreAt s c).setMask (f.vd.toNat % 8) w).sc = (coreAt s c).sc ∧
      ((coreAt s c).setMask (f.vd.toNat % 8) w).vrun = (coreAt s c).vrun ∧
      ((coreAt s c).setMask (f.vd.toNat % 8) w).loops = (coreAt s c).loops := by
    obtain ⟨m, hm⟩ := setMask_eq (coreAt s c) (f.vd.toNat % 8) w
    rw [hm]
    exact ⟨rfl, rfl, rfl, rfl⟩
  refine gives_of_putCore h hl hb (fun _ => rfl) (hm _).2.2 ?_
  simp only [placed_v, placed_sc, placed_mask, mask_setMask]
  refine ⟨(hm _).1, (hm _).2.1, fun j hj => if_neg fun e => hj e.1, fun i hi h0 => ?_⟩
  rw [if_pos ⟨trivial, h0⟩, getLsbD_ofBits _ hi]
  simp [hi]

theorem gives_vsel : Gives s c op f (done (issue s c op f vselAct)) fun z =>
    z.m = (coreAt s c).m ∧ z.sc = (coreAt s c).sc ∧
      (∀ i, i < 64 → z.lane f.vd.toNat i =
        if (coreAt s c).enabled f i then (coreAt s c).lane f.va.toNat i else (coreAt s c).laneB f i) ∧
      (∀ r i, r ≠ f.vd.toNat → i < 64 → z.lane r i = (coreAt s c).lane r i) := by
  refine gives_of_putCore h hl hb (fun _ => rfl) ⟨rfl, rfl⟩ ⟨rfl, rfl, fun i hi => ?_, fun r i hr hi => ?_⟩
  · rw [placed_lane, lane_setVec _ _ _ _ hi, if_pos rfl]
  · rw [placed_lane, lane_setVec _ _ _ _ hi, if_neg hr]

theorem gives_vcvt : Gives s c op f (done (issue s c op f vcvtAct)) (LanesSet (coreAt s c) f fun i =>
    convert f.dt.toNat (f.imm.toNat % 16) f.sat ((coreAt s c).lane f.va.toNat i)) :=
  gives_of_acts h hl hb (z := (coreAt s c).setLanes f fun i =>
    convert f.dt.toNat (f.imm.toNat % 16) f.sat ((coreAt s c).lane f.va.toNat i)) rfl
    (actsOn_noteNans (actsOn_putCore ..) _ _) ⟨rfl, rfl⟩ ((lanesSet_setLanes ..).placed ..)

end

/-- Settles O59: each operation is one of the lanes, a reduction, a comparison, a selection, a conversion or NOP. -/
theorem vectorAlu : Obligations.VectorAlu := by
  intro s c f p _ hclk hv hl h1 h2 hgo
  have h : CoreRuns s c p := ⟨hclk, hv, hgo⟩
  have onLanes (op : Nat) (g) := gives_lanes (op := op) (f := f) h hl ⟨h1, h2⟩ g
  have onTree (op : Nat) (r z g) := gives_reduce (op := op) (f := f) h hl ⟨h1, h2⟩ r z g
  exact ⟨gives_nop h hl ⟨h1, h2⟩, onLanes 0x10 _, onLanes 0x11 _, onLanes 0x12 _, onLanes 0x14 _, onLanes 0x15 _, onLanes 0x13 _,
    onLanes 0x16 _, onLanes 0x17 _, gives_vdot h hl ⟨h1, h2⟩, onLanes 0x19 _, onLanes 0x20 _, onLanes 0x21 _, onLanes 0x22 _,
    onLanes 0x23 _, onLanes 0x24 _, onLanes 0x25 _, gives_vcmp h hl ⟨h1, h2⟩, gives_vsel h hl ⟨h1, h2⟩, onLanes 0x30 _,
    onLanes 0x31 _, onLanes 0x32 _, onLanes 0x33 _, onLanes 0x34 _, onLanes 0x35 _, onLanes 0x36 _, onTree 0x38 _ _ _,
    onTree 0x39 _ _ _, onTree 0x3A _ _ _, onLanes 0x3B _, onLanes 0x3C _, gives_vcvt h hl ⟨h1, h2⟩⟩

end Sys2Proof.Laws
end

section
/-! Work that ends (R169, R192, R207): what it leaves of a core's program and of the registers of vector units; and what a
fault of a program leaves and sets. -/

namespace Sys2Proof.Laws

open Sys2Proof Sys2Proof.Machine

/-! ### Tables with entries taken out -/

/-- A key that is read without entries of other keys reads as before, or as unlisted. -/
theorem tget_filter_keys {α : Type} (d : α) (p : Nat → Bool) (t : Tab α) (k : Nat) :
    tget d (t.filter fun e => p e.1) k = if p k then tget d t k else d := by
  induction t with
  | nil => simp [tget]
  | cons e t ih =>
    obtain ⟨j, v⟩ := e
    rw [List.filter_cons]
    by_cases hj : j = k
    · subst hj
      by_cases hp : p j <;> simp [hp, tget, ih]
    · by_cases hp : p j <;> simp [hp, tget, ih, hj]

theorem mem_tset_key {α : Type} [DecidableEq α] {d v w : α} {t : Tab α} {k : Nat} (h : (k, w) ∈ tset d t k v) : w = v := by
  unfold tset at h
  split at h
  · exact absurd rfl (mem_tdel.mp h).2
  · rcases mem_tins.mp h with h | h
    · exact (Prod.mk.inj h).2
    · exact absurd rfl (mem_tdel.mp h).2

/-! ### A core without a program -/

/-- No entry of the table of cores has a program on core `c`. -/
def NoProgram (s : State) (c : Nat) : Prop := ∀ k, (c, k) ∈ s.cores → k.vrun = none

theorem NoProgram.vrun {s : State} {c : Nat} (h : NoProgram s c) : (coreAt s c).vrun = none := by
  by_cases hm : ∃ k, (c, k) ∈ s.cores
  · exact h _ (mem_tget_of_key Core.zero hm.choose_spec)
  · rw [coreAt, tget_unlisted hm]
    rfl

theorem noProgram_putCore (s : State) (c : Nat) {k : Core} (h : k.vrun = none) : NoProgram (putCore s c k) c := fun z hz => by
  rw [mem_tset_key hz, h]

theorem NoProgram.congr {s t : State} {c : Nat} (h : NoProgram s c) (ht : t.cores = s.cores) : NoProgram t c := fun k hk =>
  h k (ht ▸ hk)

/-! ### Work that ends -/

theorem pgVec_ne_pgAcc (c e : Nat) : pgVec c ≠ pgAcc e := by
  unfold pgVec pgAcc corePage
  omega

/-- From `s` to `t` work ends: registers of vector units, waiting events and the cores' memory stay, no program begins, pages that
answer still do, and no layer work begins or changes. -/
structure EndsWork (s t : State) : Prop where
  vec : ∀ c o, o < 4096 → rget t (pgVec c) o = rget s (pgVec c) o
  evq : t.evq = s.evq
  coreMem : t.coreMem = s.coreMem
  idle : ∀ c, NoProgram s c → NoProgram t c
  reach : ∀ p, pageReach s p = .ok → pageReach t p = .ok
  runs : ∀ r v, runAt t r = some v → runAt s r = some v

theorem EndsWork.refl (s : State) : EndsWork s s := ⟨fun _ _ _ => rfl, rfl, rfl, fun _ => id, fun _ => id, fun _ _ => id⟩

theorem EndsWork.trans {s t u : State} (h : EndsWork s t) (k : EndsWork t u) : EndsWork s u :=
  ⟨fun c o ho => (k.vec c o ho).trans (h.vec c o ho), k.evq.trans h.evq, k.coreMem.trans h.coreMem,
    fun c hc => k.idle c (h.idle c hc), fun p hp => k.reach p (h.reach p hp), fun r v hv => h.runs r v (k.runs r v hv)⟩

theorem EndsWork.cycles {s t : State} (h : EndsWork s t) (c : Nat) : rget64 t (pgVec c) 0x4C = rget64 s (pgVec c) 0x4C :=
  rget64_congr (h.vec c _ (by omega)) (h.vec c _ (by omega))

theorem endsWork_modReq (s : State) (id : Nat) (f : Req → Req) : EndsWork s (modReq s id f) := by
  have hr := modReq_rest s id f
  have same {α : Type} (π : State → α) (hπ : ∀ u : State, π (withReqs u []) = π u) : π (modReq s id f) = π s := by
    rw [← hπ (modReq s id f), hr [], hπ]
  refine ⟨fun c o _ => rget_of_regs (same State.regs fun _ => rfl) _ _, same State.evq fun _ => rfl,
    same State.coreMem fun _ => rfl, fun c hc => hc.congr (same State.cores fun _ => rfl), fun p hp => ?_, fun r v hv => ?_⟩
  · rwa [pageReach_congr (same State.part fun _ => rfl) (same State.dies fun _ => rfl)]
  · rwa [← runAt_congr (same State.runs fun _ => rfl)]

theorem freeTilesOf_rest (s : State) (ids : List Nat) : { freeTilesOf s ids with regs := s.regs } = s := by
  refine foldl_keeps (π := fun u : State => { u with regs := s.regs }) _ (fun u e => ?_) s
  dsimp only
  split <;> rfl

theorem rget_freeTilesOf (s : State) (ids : List Nat) (c : Nat) {o : Nat} (ho : o < 4096) :
    rget (freeTilesOf s ids) (pgVec c) o = rget s (pgVec c) o := by
  refine foldl_keeps (π := fun u => rget u (pgVec c) o) _ (fun u e => ?_) s
  dsimp only
  split
  · rfl
  · exact rget_count_other _ _ fun h => pgVec_ne_pgAcc c e.1 ((dwAddr_inj (by omega) ho).mp h).1.symm

theorem exhaustCtrs_rest (s : State) (id : Nat) : { exhaustCtrs s id with ctrs := s.ctrs } = s := by
  unfold exhaustCtrs
  split
  · rfl
  · refine foldl_keeps (π := fun u : State => { u with ctrs := s.ctrs }) _ (fun u e => ?_) s
    dsimp only
    split
    · rfl
    · split <;> rfl

/-- The tables that are dropped from, after a request's tiles and counters are freed, are still those of the state. -/
theorem dropped_same {α : Type} {π : State → α} (hr : ∀ u regs, π { u with regs := regs } = π u)
    (hc : ∀ u ctrs, π { u with ctrs := ctrs } = π u) (s : State) (ids : List Nat) (id : Nat) :
    π (exhaustCtrs (freeTilesOf s ids) id) = π s := by
  have hf := congrArg π (freeTilesOf_rest s ids)
  have he := congrArg π (exhaustCtrs_rest (freeTilesOf s ids) id)
  rw [hr] at hf
  rw [hc] at he
  rw [he, hf]

/-- The layer works that end with a request. -/
def endedRuns (s : State) (id : Nat) : List Nat := (reqRuns s id).map fun e => e.1

theorem dropWork_cores (s : State) (id : Nat) :
    (dropWork s id).cores = tmap Core.zero (fun k => k.forget (endedRuns s id)) s.cores :=
  congrArg (tmap Core.zero fun k => k.forget (endedRuns s id))
    (dropped_same (π := State.cores) (fun _ _ => rfl) (fun _ _ => rfl) s _ id)

theorem dropWork_runs (s : State) (id : Nat) :
    (dropWork s id).runs = s.runs.filter fun e => !(endedRuns s id).contains e.1 :=
  congrArg (List.filter _) (dropped_same (π := State.runs) (fun _ _ => rfl) (fun _ _ => rfl) s _ id)

/-- A die without the requests that wait for a pass and have ended. -/
def sweepLeft (id : Nat) (x : Die) : Die := { x with sweep := { x.sweep with reqs := x.sweep.reqs.filter fun i => i != id } }

theorem dropWork_dies (s : State) (id : Nat) : (dropWork s id).dies =
    tmapi Die.zero (fun _ => sweepLeft id) (tmapi Die.zero (reproto (fun _ => true) fun e => e.forget (endedRuns s id)) s.dies) :=
  congrArg (fun t => tmapi Die.zero (fun _ => sweepLeft id)
      (tmapi Die.zero (reproto (fun _ => true) fun e => e.forget (endedRuns s id)) t))
    (dropped_same (π := State.dies) (fun _ _ => rfl) (fun _ _ => rfl) s _ id)

theorem forget_vrun {k : Core} (h : k.vrun = none) (ids : List Nat) : (k.forget ids).vrun = none := by
  unfold Core.forget
  simp [h]

/-- A die that is on and up is not as an unlisted one. -/
theorem ne_zero_of_up {x : Die} (h : x.up = true) : x ≠ Die.zero := fun e => by simp [e, Die.zero] at h

/-- A function that keeps the standing of dies keeps each that is on and up. -/
theorem tget_tmapi_up {f : Nat → Die → Die} (hf : ∀ k x, (f k x).st = x.st ∧ (f k x).up = x.up) {t : Tab Die} {d : Nat}
    (h : (tget Die.zero t d).up = true) : (tget Die.zero (tmapi Die.zero f t) d).st = (tget Die.zero t d).st ∧
      (tget Die.zero (tmapi Die.zero f t) d).up = true := by
  rw [tget_tmapi_of_ne (ne_zero_of_up h) (ne_zero_of_up ((hf ..).2.trans h))]
  exact ⟨(hf ..).1, (hf ..).2.trans h⟩

/-- The pages of a die answer where it is one of the module's, on and up. -/
theorem dieReach_ok {s : State} {d : Nat} :
    dieReach s d = .ok ↔ d < s.part.member.dies ∧ (dieAt s d).st = .on ∧ (dieAt s d).up = true := by
  unfold dieReach
  by_cases hd : s.part.member.dies ≤ d
  · simp [hd]
  · rw [if_neg hd]
    cases hst : (dieAt s d).st <;> cases hup : (dieAt s d).up <;> simp [hd, Nat.lt_of_not_le]

theorem dieReach_dropWork {s : State} {d : Nat} (h : dieReach s d = .ok) (id : Nat) : dieReach (dropWork s id) d = .ok := by
  obtain ⟨hd, hst, hup⟩ := dieReach_ok.mp h
  have hp : (dropWork s id).part = s.part := congrArg Held.part (held_dropWork s id)
  obtain ⟨hst1, hup1⟩ := tget_tmapi_up (f := reproto (fun _ => true) fun e => e.forget (endedRuns s id)) (t := s.dies)
    (fun k x => by unfold reproto; split <;> exact ⟨rfl, rfl⟩) hup
  obtain ⟨hst2, hup2⟩ := tget_tmapi_up (f := fun _ => sweepLeft id) (fun _ _ => ⟨rfl, rfl⟩) hup1
  rw [dieReach_ok, hp, dieAt, dropWork_dies]
  exact ⟨hd, hst2.trans (hst1.trans hst), hup2⟩

theorem pageReach_of_dies {s t : State} (h : ∀ d, dieReach s d = .ok → dieReach t d = .ok) {p : Nat} (hp : pageReach s p = .ok) :
    pageReach t p = .ok := by
  unfold pageReach at hp ⊢
  split at hp
  · cases hp
  · split at hp
    · rfl
    · exact h _ hp

theorem endsWork_dropWork (s : State) (id : Nat) : EndsWork s (dropWork s id) := by
  refine ⟨fun c o ho => ?_, dropWork_evq s id, congrArg Held.coreMem (held_dropWork s id), fun c hc k hk => ?_,
    fun p => pageReach_of_dies fun d hd => dieReach_dropWork hd id, fun r v hr => ?_⟩
  · rw [← rget_freeTilesOf s (endedRuns s id) c ho]
    exact rget_of_regs (congrArg State.regs (exhaustCtrs_rest _ id)) _ _
  · rw [dropWork_cores] at hk
    obtain ⟨⟨j, z⟩, hz, hj⟩ := List.mem_map.mp (List.mem_filter.mp hk).1
    obtain ⟨rfl, rfl⟩ := Prod.mk.inj hj
    exact forget_vrun (hc z hz) _
  · rw [runAt, dropWork_runs, tget_filter_keys none (fun j => !(endedRuns s id).contains j)] at hr
    split at hr
    · exact hr
    · cases hr

theorem endsWork_failReq (s : State) (id code : Nat) : EndsWork s (failReq s id code) := by
  unfold failReq
  split
  · exact .refl s
  · split
    · exact .refl s
    · exact ((endsWork_dropWork s id).trans (endsWork_modReq ..)).trans (endsWork_modReq ..)

theorem endsWork_checkDone (s : State) (id : Nat) : EndsWork s (checkDone s id) := by
  unfold checkDone
  split
  · exact .refl s
  · split
    · exact (endsWork_dropWork s id).trans (endsWork_modReq ..)
    · exact .refl s

/-! ### A program that faults (R169) -/

/-- The program stopped, its index held and the event noted, before its request ends. -/
def faultNoted (s : State) (c pc : Nat) : State :=
  ev (rset (modCore s c fun k => { k with vrun := none, loops := [], step := false }) (pgVec c) 0x48 (put 14 0 pc)) (pgVec c) 0
    (pc % 65536)

theorem endsWork_progFault (s : State) (c pc : Nat) : EndsWork (faultNoted s c pc) (progFault s c pc) := by
  unfold progFault
  dsimp only
  split
  · exact endsWork_failReq ..
  · exact .refl _

/-- What a fault leaves and sets. -/
structure FaultedAt (s t : State) (c pc : Nat) : Prop where
  vrun : (coreAt t c).vrun = none
  coreMem : t.coreMem = s.coreMem
  cycles : rget64 t (pgVec c) 0x4C = rget64 s (pgVec c) 0x4C
  index : rget t (pgVec c) 0x48 = put 14 0 pc
  sticky : bit (rget t (pgVec c) 0x18) 0 = true

theorem progFault_faultedAt {s : State} {c : Nat} (hr : pageReach s (pgVec c) = .ok) (pc : Nat) :
    FaultedAt s (settle (progFault s c pc)) c pc := by
  have h := endsWork_progFault s c pc
  have hidle : NoProgram (faultNoted s c pc) c := (noProgram_putCore s c rfl).congr rfl
  have hreach : pageReach (progFault s c pc) (pgVec c) = .ok := h.reach _ hr
  have hev : (⟨pgVec c, 0, pc % 65536⟩ : Ev) ∈ (progFault s c pc).evq := by
    rw [h.evq]
    exact List.mem_append_right _ (List.mem_singleton_self _)
  refine ⟨?_, ?_, ?_, ?_, ?_⟩
  · rw [coreAt_congr (settle_cores _)]
    exact (h.idle c hidle).vrun
  · rw [settle_coreMem, h.coreMem]
    rfl
  · rw [rget64_settle, h.cycles]
    exact rget64_congr (rget_rset_other _ _ (dwAddr_ne (by omega) (by omega) rfl rfl (.inr (by omega))))
      (rget_rset_other _ _ (dwAddr_ne (by omega) (by omega) rfl rfl (.inr (by omega))))
  · rw [rget_settle _ (by omega) (by omega) (by omega) (by omega) (by omega) (by omega), h.vec c _ (by omega)]
    exact rget_rset_self ..
  · exact bit_settle hev hreach (by omega)

end Sys2Proof.Laws
end

section
/-! Loads, stores and scalars (R163 to R167), and the two ways an instruction ends (R167, R169). -/

namespace Sys2Proof.Laws

open Sys2Proof Sys2Proof.Machine

/-- An element depends on the cores' memory alone. -/
theorem coreElem_congr {s t : State} (ht : t.coreMem = s.coreMem) (c dt base i : Nat) :
    coreElem t c dt base i = coreElem s c dt base i := by
  unfold coreElem
  rw [ht]

/-! ### The two ways an instruction ends -/

/-- The issue cycles of the instruction at the program's place: two of VLUT, and one of the others that are meant here. -/
def CyclesCounted (s : State) (c : Nat) (f : VF) (t : State) : Prop := rget64 t (pgVec c) 0x4C =
  (rget64 s (pgVec c) 0x4C + if progWord s c (coreAt s c).pc = some (vWord 0x05 f) then 2 else 1) % 2 ^ 64

theorem cyclesCounted_of {s t : State} {c op n : Nat} {f : VF} (hw : progWord s c (coreAt s c).pc = some (vWord op f))
    (hop : op < 256) (hn : n = if op = 5 then 2 else 1) (h : rget64 t (pgVec c) 0x4C = (rget64 s (pgVec c) 0x4C + n) % 2 ^ 64) :
    CyclesCounted s c f t := by
  have he : vWord op f = vWord 0x05 f ↔ op = 5 :=
    ⟨fun e => by_contra fun ho => vWord_ne f f hop (by omega) ho e, fun e => by rw [e]⟩
  unfold CyclesCounted
  simp only [hw, Option.some_inj, he]
  rw [h, hn]

/-- Outside any loop the program goes on with the next instruction, in a state that meets `post`. -/
def GoesOn (s : State) (c : Nat) (f : VF) (p : VRun) (o : Host.Outcome State Fault Refusal) (post : State → Prop) : Prop :=
  (coreAt s c).loops = [] → p.first ≤ (coreAt s c).pc + 1 ∧ (coreAt s c).pc + 1 < p.first + p.count →
    ∃ t, o = .next t ∧ (coreAt t c).pc = (coreAt s c).pc + 1 ∧ (coreAt t c).vrun = (coreAt s c).vrun ∧ (coreAt t c).loops = [] ∧
      (coreAt t c).m = (coreAt s c).m ∧ CyclesCounted s c f t ∧ post t

/-- The program stops at the instruction, whose index is held, and no byte changes. -/
def Faults (s : State) (c : Nat) (f : VF) (o : Host.Outcome State Fault Refusal) : Prop :=
  pageReach s (pgVec c) = .ok → ∃ t, o = .next t ∧ (coreAt t c).vrun = none ∧ t.coreMem = s.coreMem ∧ CyclesCounted s c f t ∧
    rget t (pgVec c) 0x48 = put 14 0 (coreAt s c).pc ∧ bit (rget t (pgVec c) 0x18) 0 = true

section

variable {s : State} {c op : Nat} {f : VF} {p : VRun} (h : CoreRuns s c p)
  (hw : progWord s c (coreAt s c).pc = some (vWord op f)) (hop : op < 256) (hc : vecCycles op = if op = 5 then 2 else 1)

include h hw hop hc

theorem goesOn_of_act {act : VAct} {u : State} {post : State → Prop}
    (ha : act f c (coreAt s c) (count64 s (pgVec c) 0x4C (vecCycles op)) = some u)
    (hk : (coreAt u c).vrun = (coreAt s c).vrun ∧ (coreAt u c).loops = (coreAt s c).loops ∧ (coreAt u c).m = (coreAt s c).m)
    (hu : rget64 u (pgVec c) 0x4C = rget64 (count64 s (pgVec c) 0x4C (vecCycles op)) (pgVec c) 0x4C)
    (hp : ∀ t, WentOn u t c [] ((coreAt s c).pc + 1) → post t) : GoesOn s c f p (done (issue s c op f act)) post := by
  intro hl hb
  obtain ⟨hv, hlo, hm⟩ := hk
  have ht := issue_goesOn h hb hw ha (by rw [hv, h.vrun]) (by rw [hlo, hl])
  refine ⟨_, done_eq _, by rw [ht.core, placed_pc], by rw [ht.core, placed_vrun, hv], by rw [ht.core, placed_loops],
    by rw [ht.core, placed_m, hm], cyclesCounted_of hw hop hc ?_, hp _ ht⟩
  rw [ht.cycles, hu, rget64_count64]

theorem faults_of_act {act : VAct} (ha : act f c (coreAt s c) (count64 s (pgVec c) 0x4C (vecCycles op)) = none) :
    Faults s c f (done (issue s c op f act)) := by
  intro hr
  have hu : pageReach (count64 s (pgVec c) 0x4C (vecCycles op)) (pgVec c) = .ok := by
    rwa [pageReach_congr (count64_part ..) (count64_dies ..)]
  have ht := progFault_faultedAt hu (coreAt s c).pc
  rw [issue_faults h hw ha]
  refine ⟨_, done_eq _, ht.vrun, by rw [ht.coreMem, count64_coreMem], cyclesCounted_of hw hop hc ?_, ht.index, ht.sticky⟩
  rw [ht.cycles, rget64_count64]

/-! ### Loads and stores (R164, R166) -/

/-- Of the state, an operation fills the lanes of VD. -/
def Fills (s : State) (c : Nat) (f : VF) (g : Nat → W32) (t : State) : Prop :=
  t.coreMem = s.coreMem ∧ (coreAt t c).sc = (coreAt s c).sc ∧
    (∀ i, i < 64 → (coreAt t c).lane f.vd.toNat i =
      if (coreAt s c).enabled f i then g i else if f.mz then 0 else (coreAt s c).lane f.vd.toNat i) ∧
    (∀ r i, r ≠ f.vd.toNat → i < 64 → (coreAt t c).lane r i = (coreAt s c).lane r i)

theorem fills_of_act {act : VAct} {g : Nat → W32} (ha : act f c (coreAt s c) (count64 s (pgVec c) 0x4C (vecCycles op)) =
      some (putCore (count64 s (pgVec c) 0x4C (vecCycles op)) c ((coreAt s c).setLanes f g))) :
    GoesOn s c f p (done (issue s c op f act)) (Fills s c f g) := by
  have hk := coreAt_putCore_self (count64 s (pgVec c) 0x4C (vecCycles op)) c ((coreAt s c).setLanes f g)
  refine goesOn_of_act h hw hop hc ha (by rw [hk]; exact ⟨rfl, rfl, rfl⟩) (cycles_putCore ..) fun t ht => ?_
  obtain ⟨-, hsc, hd, ho⟩ := lanesSet_setLanes (coreAt s c) f g
  have hcore := ht.core
  rw [hk] at hcore
  refine ⟨by rw [ht.coreMem, putCore_coreMem, count64_coreMem], by rw [hcore, placed_sc, hsc], fun i hi => ?_,
    fun r i hr hi => ?_⟩
  · rw [hcore, placed_lane, hd i hi]
  · rw [hcore, placed_lane, ho r i hr hi]

end

section

variable {s : State} {c : Nat} {f : VF} {p : VRun} (h : CoreRuns s c p)

include h

theorem vld_goesOn (hw : progWord s c (coreAt s c).pc = some (vWord 0x01 f))
    (hf : ∀ i, i < 64 → (coreAt s c).enabled f i = true →
      accessOk (elemAddr f.dt.toNat ((coreAt s c).base f f.va.toNat) i) (elemBytes f.dt.toNat) = true) :
    GoesOn s c f p (exec (.vld c f) s) (Fills s c f fun i =>
      widen f.dt.toNat (coreElem s c f.dt.toNat ((coreAt s c).base f f.va.toNat) i)) := by
  refine fills_of_act h hw (by omega) rfl ?_
  unfold vldAct
  dsimp only
  rw [if_pos (all_on.mpr hf)]
  simp only [coreElem_congr (count64_coreMem ..)]

theorem vld_faults (hw : progWord s c (coreAt s c).pc = some (vWord 0x01 f))
    (hf : ¬∀ i, i < 64 → (coreAt s c).enabled f i = true →
      accessOk (elemAddr f.dt.toNat ((coreAt s c).base f f.va.toNat) i) (elemBytes f.dt.toNat) = true) :
    Faults s c f (exec (.vld c f) s) := by
  refine faults_of_act h hw (by omega) rfl ?_
  unfold vldAct
  exact if_neg fun ha => hf (all_on.mp ha)

theorem vldb_goesOn (hw : progWord s c (coreAt s c).pc = some (vWord 0x03 f))
    (hf : (∀ i, i < 64 → (coreAt s c).enabled f i = false) ∨
      accessOk ((coreAt s c).base f f.va.toNat) (elemBytes f.dt.toNat) = true) :
    GoesOn s c f p (exec (.vldb c f) s) (Fills s c f fun _ =>
      widen f.dt.toNat (coreElem s c f.dt.toNat ((coreAt s c).base f f.va.toNat) 0)) := by
  refine fills_of_act h hw (by omega) rfl ?_
  have hon : ((coreAt s c).on f).isEmpty = true ∨ accessOk ((coreAt s c).base f f.va.toNat) (elemBytes f.dt.toNat) = true :=
    hf.imp_left fun hf => by simpa [Core.on] using hf
  unfold vldbAct
  dsimp only
  rw [if_pos (Bool.or_eq_true_iff.mpr hon)]
  simp only [coreElem_congr (count64_coreMem ..)]

theorem vldb_faults (hw : progWord s c (coreAt s c).pc = some (vWord 0x03 f))
    (hf : ¬((∀ i, i < 64 → (coreAt s c).enabled f i = false) ∨
      accessOk ((coreAt s c).base f f.va.toNat) (elemBytes f.dt.toNat) = true)) : Faults s c f (exec (.vldb c f) s) := by
  refine faults_of_act h hw (by omega) rfl ?_
  unfold vldbAct
  refine if_neg fun ha => hf ((Bool.or_eq_true_iff.mp ha).imp_left fun ha => ?_)
  simpa [Core.on] using ha

theorem vlut_goesOn (hw : progWord s c (coreAt s c).pc = some (vWord 0x05 f))
    (hf : ∀ i, i < 64 → (coreAt s c).enabled f i = true → accessOk (((coreAt s c).scalar (f.imm.toNat % 16)).toNat +
      4 * (((coreAt s c).lane f.va.toNat i).toNat % 256)) 4 = true) :
    GoesOn s c f p (exec (.vlut c f) s) (Fills s c f fun i => BitVec.ofNat 32 (numAt s.coreMem (coreKey c
      (((coreAt s c).scalar (f.imm.toNat % 16)).toNat + 4 * (((coreAt s c).lane f.va.toNat i).toNat % 256))) 4)) := by
  refine fills_of_act h hw (by omega) rfl ?_
  unfold vlutAct
  dsimp only
  rw [if_pos (all_on.mpr hf)]
  simp only [count64_coreMem]

theorem vlut_faults (hw : progWord s c (coreAt s c).pc = some (vWord 0x05 f))
    (hf : ¬∀ i, i < 64 → (coreAt s c).enabled f i = true → accessOk (((coreAt s c).scalar (f.imm.toNat % 16)).toNat +
      4 * (((coreAt s c).lane f.va.toNat i).toNat % 256)) 4 = true) : Faults s c f (exec (.vlut c f) s) := by
  refine faults_of_act h hw (by omega) rfl ?_
  unfold vlutAct
  exact if_neg fun ha => hf (all_on.mp ha)

/-- Of the state, a store changes the enabled lanes' elements alone. -/
def Stores (s : State) (c : Nat) (f : VF) (t : State) : Prop :=
  (coreAt t c).v = (coreAt s c).v ∧ (coreAt t c).sc = (coreAt s c).sc ∧
    (∀ i, i < 64 → (coreAt s c).enabled f i = true → fmtWidth f.dt.toNat ∈ [4, 8, 16, 32] →
      coreElem t c f.dt.toNat ((coreAt s c).base f f.vb.toNat) i =
        narrow f.dt.toNat f.sat ((coreAt s c).lane f.va.toNat i) % 2 ^ fmtWidth f.dt.toNat) ∧
    (∀ x, (∀ i, i < 64 → (coreAt s c).enabled f i = true →
        x < coreKey c (elemAddr f.dt.toNat ((coreAt s c).base f f.vb.toNat) i) ∨
          coreKey c (elemAddr f.dt.toNat ((coreAt s c).base f f.vb.toNat) i) + elemBytes f.dt.toNat ≤ x) →
      tget 0 t.coreMem x = tget 0 s.coreMem x)

theorem vst_goesOn (hw : progWord s c (coreAt s c).pc = some (vWord 0x02 f))
    (hf : ∀ i, i < 64 → (coreAt s c).enabled f i = true →
      accessOk (elemAddr f.dt.toNat ((coreAt s c).base f f.vb.toNat) i) (elemBytes f.dt.toNat) = true) :
    GoesOn s c f p (exec (.vst c f) s) (Stores s c f) := by
  have hr := storeLanes_rest (count64 s (pgVec c) 0x4C (vecCycles 0x02)) c f.dt.toNat ((coreAt s c).base f f.vb.toNat)
    (fun i => narrow f.dt.toNat f.sat ((coreAt s c).lane f.va.toNat i)) ((coreAt s c).on f)
  have hk := (coreAt_congr (congrArg State.cores hr) c).trans (coreAt_congr (count64_cores ..) c)
  refine goesOn_of_act h hw (by omega) rfl (act := vstAct) (if_pos (all_on.mpr hf)) ⟨?_, ?_, ?_⟩ ?_ fun t ht => ⟨?_, ?_, ?_, ?_⟩
  · exact congrArg Core.vrun hk
  · exact congrArg Core.loops hk
  · exact congrArg Core.m hk
  · exact rget64_congr (rget_of_regs (congrArg State.regs hr) _ _) (rget_of_regs (congrArg State.regs hr) _ _)
  · rw [ht.core, placed_v]
    exact congrArg Core.v hk
  · rw [ht.core, placed_sc]
    exact congrArg Core.sc hk
  · intro i hi he _
    rw [coreElem_congr ht.coreMem]
    exact (coreElem_storeLanes _ _ _ _ (fun i => narrow f.dt.toNat f.sat ((coreAt s c).lane f.va.toNat i)) _ i).trans
      (if_pos (mem_on.mpr ⟨hi, he⟩))
  · intro x hx
    rw [ht.coreMem]
    refine (tget_storeLanes_other _ _ _ _ _ _ fun i hi => ?_).trans (by rw [count64_coreMem])
    obtain ⟨hi, he⟩ := mem_on.mp hi
    exact hx i hi he

theorem vst_faults (hw : progWord s c (coreAt s c).pc = some (vWord 0x02 f))
    (hf : ¬∀ i, i < 64 → (coreAt s c).enabled f i = true →
      accessOk (elemAddr f.dt.toNat ((coreAt s c).base f f.vb.toNat) i) (elemBytes f.dt.toNat) = true) :
    Faults s c f (exec (.vst c f) s) := by
  refine faults_of_act h hw (by omega) rfl ?_
  unfold vstAct
  exact if_neg fun ha => hf (all_on.mp ha)

/-! ### Scalars (R163, R167) -/

/-- Of the state, an operation sets the scalar of VD. -/
def SetsScalar (s : State) (c : Nat) (f : VF) (w : W32) (t : State) : Prop :=
  t.coreMem = s.coreMem ∧ (coreAt t c).v = (coreAt s c).v ∧
    (∀ j, (coreAt t c).scalar j = if j = f.vd.toNat % 16 ∧ j ≠ 0 then w else (coreAt s c).scalar j)

theorem setScalar_goesOn {op : Nat} {act : VAct} {u : State} {w : W32} {post : State → Prop}
    (hw : progWord s c (coreAt s c).pc = some (vWord op f)) (hop : op < 256) (hc : vecCycles op = if op = 5 then 2 else 1)
    (hu : u.coreMem = s.coreMem ∧ u.regs = (count64 s (pgVec c) 0x4C (vecCycles op)).regs)
    (ha : act f c (coreAt s c) (count64 s (pgVec c) 0x4C (vecCycles op)) =
      some (putCore u c ((coreAt s c).setScalar (f.vd.toNat % 16) w)))
    (hp : ∀ t, SetsScalar s c f w t → t.free = u.free → post t) : GoesOn s c f p (done (issue s c op f act)) post := by
  obtain ⟨sc, hsc⟩ := setScalar_eq (coreAt s c) (f.vd.toNat % 16) w
  have hk := coreAt_putCore_self u c ((coreAt s c).setScalar (f.vd.toNat % 16) w)
  refine goesOn_of_act h hw hop hc ha (by rw [hk, hsc]; exact ⟨rfl, rfl, rfl⟩) ?_ fun t ht => hp t ⟨?_, ?_, ?_⟩ ?_
  · rw [cycles_putCore]
    exact rget64_congr (rget_of_regs hu.2 _ _) (rget_of_regs hu.2 _ _)
  · rw [ht.coreMem, putCore_coreMem, hu.1]
  · rw [ht.core, hk, hsc]
    rfl
  · intro j
    rw [ht.core, hk, placed_scalar, scalar_setScalar]
  · rw [ht.free, putCore_free]

theorem smov_goesOn (hw : progWord s c (coreAt s c).pc = some (vWord 0x50 f)) :
    GoesOn s c f p (exec (.smov c f) s) (SetsScalar s c f f.imm) :=
  setScalar_goesOn h hw (by omega) rfl ⟨count64_coreMem .., rfl⟩ (act := smovAct) rfl fun _ ht _ => ht

theorem sadd_goesOn (hw : progWord s c (coreAt s c).pc = some (vWord 0x51 f)) :
    GoesOn s c f p (exec (.sadd c f) s) (SetsScalar s c f ((coreAt s c).scalar (f.va.toNat % 16) + f.imm)) :=
  setScalar_goesOn h hw (by omega) rfl ⟨count64_coreMem .., rfl⟩ (act := saddAct) rfl fun _ ht _ => ht

end

end Sys2Proof.Laws
end

section
/-! LOOP and END (R167, R169, R191, R192). -/

namespace Sys2Proof.Laws

open Sys2Proof Sys2Proof.Machine

/-! ### LOOP -/

section

variable {s : State} {c : Nat} {f : VF} {p : VRun} (h : CoreRuns s c p)
  (hw : progWord s c (coreAt s c).pc = some (vWord 0x52 f))

include h hw

theorem loopIssue_eq : loopIssue s c f =
    if fld f.imm 15 0 = 0 ∨ fld f.imm 31 16 = 0 then
      vecNext (count64 s (pgVec c) 0x4C 1) c ((coreAt s c).pc + 1 + fld f.imm 31 16)
    else if 4 ≤ (coreAt s c).loops.length then progFault (count64 s (pgVec c) 0x4C 1) c (coreAt s c).pc
    else vecNext (putCore (count64 s (pgVec c) 0x4C 1) c { coreAt s c with
      loops := ⟨(coreAt s c).pc + 1, (coreAt s c).pc + 1 + fld f.imm 31 16, fld f.imm 15 0⟩ :: (coreAt s c).loops }) c
      ((coreAt s c).pc + 1) := by
  unfold loopIssue
  rw [if_pos (vecReady_of_runs h hw)]

theorem vloop_begins (ht : fld f.imm 15 0 ≠ 0) (hn : fld f.imm 31 16 ≠ 0) (hl : (coreAt s c).loops.length < 4)
    (hb : p.first ≤ (coreAt s c).pc + 1 ∧ (coreAt s c).pc + 1 < p.first + p.count) :
    ∃ t, exec (.vloop c f) s = .next t ∧ CyclesCounted s c f t ∧ coreAt t c = { coreAt s c with
      loops := ⟨(coreAt s c).pc + 1, (coreAt s c).pc + 1 + fld f.imm 31 16, fld f.imm 15 0⟩ :: (coreAt s c).loops
      pc := (coreAt s c).pc + 1, step := false } := by
  have he : exec (.vloop c f) s = done (loopIssue s c f) := rfl
  rw [he, loopIssue_eq h hw, if_neg (by simp [ht, hn]), if_neg (Nat.not_le.mpr hl)]
  generalize hk : ({ coreAt s c with
    loops := ⟨(coreAt s c).pc + 1, (coreAt s c).pc + 1 + fld f.imm 31 16, fld f.imm 15 0⟩ :: (coreAt s c).loops } : Core) = k
  have hcore := coreAt_putCore_self (count64 s (pgVec c) 0x4C 1) c k
  have hloop : loopBack (coreAt (putCore (count64 s (pgVec c) 0x4C 1) c k) c).loops ((coreAt s c).pc + 1) =
      (k.loops, (coreAt s c).pc + 1) := by
    rw [hcore, ← hk]
    exact if_neg (by dsimp only; omega)
  have hgo := wentOn_vecNext (by rw [hcore, ← hk]; exact h.vrun) hloop hb
  refine ⟨_, done_eq _, cyclesCounted_of hw (by omega) (n := 1) rfl ?_, ?_⟩
  · rw [hgo.cycles, cycles_putCore, rget64_count64]
  · rw [hgo.core, hcore, ← hk]
    rfl

theorem vloop_skips (ht : fld f.imm 15 0 = 0 ∨ fld f.imm 31 16 = 0) (hl : (coreAt s c).loops = [])
    (hb : p.first ≤ (coreAt s c).pc + 1 + fld f.imm 31 16 ∧ (coreAt s c).pc + 1 + fld f.imm 31 16 < p.first + p.count) :
    ∃ t, exec (.vloop c f) s = .next t ∧ CyclesCounted s c f t ∧
      coreAt t c = { coreAt s c with pc := (coreAt s c).pc + 1 + fld f.imm 31 16, step := false } := by
  have he : exec (.vloop c f) s = done (loopIssue s c f) := rfl
  rw [he, loopIssue_eq h hw, if_pos ht]
  have hcore := coreAt_congr (count64_cores s (pgVec c) 0x4C 1) c
  have hgo := wentOn_unlooped (by rw [hcore]; exact h.vrun) (by rw [hcore]; exact hl) hb
  refine ⟨_, done_eq _, cyclesCounted_of hw (by omega) (n := 1) rfl (by rw [hgo.cycles, rget64_count64]), ?_⟩
  rw [hgo.core, hcore, placed, ← hl]

theorem vloop_faults (ht : fld f.imm 15 0 ≠ 0) (hn : fld f.imm 31 16 ≠ 0) (hl : 4 ≤ (coreAt s c).loops.length) :
    Faults s c f (exec (.vloop c f) s) := by
  intro hr
  have he : exec (.vloop c f) s = done (loopIssue s c f) := rfl
  have hu : pageReach (count64 s (pgVec c) 0x4C 1) (pgVec c) = .ok := by
    rwa [pageReach_congr (count64_part ..) (count64_dies ..)]
  have hf := progFault_faultedAt hu (coreAt s c).pc
  rw [he, loopIssue_eq h hw, if_neg (by simp [ht, hn]), if_pos hl]
  refine ⟨_, done_eq _, hf.vrun, by rw [hf.coreMem, count64_coreMem], cyclesCounted_of hw (by omega) (n := 1) rfl ?_, hf.index,
    hf.sticky⟩
  rw [hf.cycles, rget64_count64]

end

/-! ### END of a row program (R191) -/

/-- A core whose program has ended. -/
def programEnded (k : Core) : Core := { k with vrun := none, loops := [], step := false }

/-- The state at END, its cycle counted and the program ended. -/
def atEnd (s : State) (c : Nat) : State := putCore (count64 s (pgVec c) 0x4C 1) c (programEnded (coreAt s c))

theorem coreAt_atEnd (s : State) (c : Nat) : coreAt (atEnd s c) c = programEnded (coreAt s c) := coreAt_putCore_self ..

theorem runAt_atEnd (s : State) (c r : Nat) : runAt (atEnd s c) r = runAt s r :=
  runAt_congr ((putCore_runs ..).trans (count64_runs ..)) r

theorem slots_atEnd (s : State) (c : Nat) : (atEnd s c).slots = s.slots := (putCore_slots ..).trans (count64_slots ..)

theorem cycles_atEnd (s : State) (c : Nat) : rget64 (atEnd s c) (pgVec c) 0x4C = (rget64 s (pgVec c) 0x4C + 1) % 2 ^ 64 := by
  rw [atEnd, cycles_putCore, rget64_count64]

/-- A register of another page is as before. -/
theorem rget_atEnd (s : State) {c q o : Nat} (hq : q ≠ pgVec c) (ho : o < 4096) : rget (atEnd s c) q o = rget s q o := by
  rw [atEnd, rget_of_regs (putCore_regs ..)]
  exact rget_count64_page s 1 hq (by omega) ho

theorem corePage_ne (c : Nat) : pgAcc c ≠ pgVec c ∧ pgDrain c ≠ pgVec c ∧ pgAcc c ≠ pgDrain c := by
  unfold pgAcc pgDrain pgVec corePage
  omega

/-- A tile whose rows have ended is counted, and so is its edge. -/
def tileCounted (s : State) (c : Nat) (edge : Prop) [Decidable edge] : State :=
  let s := count (count s (pgAcc c) 0x4C 1) (pgDrain c) 0x44 1
  if edge then count s (pgDrain c) 0x50 1 else s

theorem tileCounted_cores (s : State) (c : Nat) (edge : Prop) [Decidable edge] : (tileCounted s c edge).cores = s.cores := by
  unfold tileCounted
  dsimp only
  split <;> rfl

/-- Of the words of the core's pages, three counters change. -/
theorem rget_tileCounted (s : State) (c : Nat) (edge : Prop) [Decidable edge] :
    rget64 (tileCounted s c edge) (pgVec c) 0x4C = rget64 s (pgVec c) 0x4C ∧
      (rget (tileCounted s c edge) (pgAcc c) 0x4C).toNat = min ((rget s (pgAcc c) 0x4C).toNat + 1) 0xFFFFFFFF ∧
      (rget (tileCounted s c edge) (pgDrain c) 0x44).toNat = min ((rget s (pgDrain c) 0x44).toNat + 1) 0xFFFFFFFF := by
  obtain ⟨hav, hdv, had⟩ := corePage_ne c
  have other {u : State} {q r o m : Nat} (ho : o < 4096) (hm : m < 4096) (hq : q ≠ r ∨ o / 4 ≠ m / 4) :
      rget (count u q o 1) r m = rget u r m := rget_count_other u 1 (by rw [Ne, dwAddr_inj ho hm]; omega)
  have vec {u : State} {q o : Nat} (ho : o < 4096) (hq : q ≠ pgVec c) :
      rget64 (count u q o 1) (pgVec c) 0x4C = rget64 u (pgVec c) 0x4C :=
    rget64_congr (other ho (by omega) (.inl hq)) (other ho (by omega) (.inl hq))
  have base : let u := count (count s (pgAcc c) 0x4C 1) (pgDrain c) 0x44 1
      rget64 u (pgVec c) 0x4C = rget64 s (pgVec c) 0x4C ∧
      (rget u (pgAcc c) 0x4C).toNat = min ((rget s (pgAcc c) 0x4C).toNat + 1) 0xFFFFFFFF ∧
      (rget u (pgDrain c) 0x44).toNat = min ((rget s (pgDrain c) 0x44).toNat + 1) 0xFFFFFFFF := by
    refine ⟨?_, ?_, ?_⟩
    · rw [vec (by omega) hdv, vec (by omega) hav]
    · rw [other (by omega) (by omega) (.inl had.symm), rget_count_self]
    · rw [rget_count_self, other (by omega) (by omega) (.inl had)]
  by_cases he : edge
  · have hu : tileCounted s c edge = count (count (count s (pgAcc c) 0x4C 1) (pgDrain c) 0x44 1) (pgDrain c) 0x50 1 := if_pos he
    rw [hu]
    refine ⟨(vec (by omega) hdv).trans base.1, ?_, ?_⟩
    · rw [other (q := pgDrain c) (r := pgAcc c) (o := 0x50) (m := 0x4C) (by omega) (by omega) (.inl had.symm)]
      exact base.2.1
    · rw [other (q := pgDrain c) (r := pgDrain c) (o := 0x50) (m := 0x44) (by omega) (by omega) (.inr (by omega))]
      exact base.2.2
  · have hu : tileCounted s c edge = count (count s (pgAcc c) 0x4C 1) (pgDrain c) 0x44 1 := if_neg he
    rw [hu]
    exact base

/-- The output of a tile that is released waits to be delivered, or is held until its passes have ended. -/
theorem releaseTile_core (s : State) (c : Nat) (x : Tile) (w : Run) :
    (coreAt (releaseTile s c x w) c).vrun = (coreAt s c).vrun ∧ (coreAt (releaseTile s c x w) c).tiles = (coreAt s c).tiles ∧
      ((x.run, x.mb, x.nt) ∈ (coreAt (releaseTile s c x w) c).deliver ∨
        (x.run, x.mb, x.nt) ∈ (coreAt (releaseTile s c x w) c).heldOut) := by
  unfold releaseTile modCore
  rw [coreAt_putCore_self]
  split
  · exact ⟨rfl, rfl, .inr (List.mem_append_right _ (List.mem_singleton_self _))⟩
  · exact ⟨rfl, rfl, .inl (List.mem_append_right _ (List.mem_singleton_self _))⟩

theorem rget_releaseTile (s : State) (c : Nat) (x : Tile) (w : Run) (q o : Nat) : rget (releaseTile s c x w) q o = rget s q o :=
  rget_of_regs rfl q o

section

variable {s : State} {c : Nat} {f : VF} {p : VRun} (h : CoreRuns s c p)
  (hw : progWord s c (coreAt s c).pc = some (vWord 0x5F f))

include h hw

theorem endIssue_row {n : Nat} (hn : p.tile = some n) : endIssue s c f = rowEnded (atEnd s c) c n := by
  unfold endIssue
  rw [if_pos (vecReady_of_runs h hw)]
  dsimp only
  rw [h.vrun]
  dsimp only
  rw [hn]
  rfl

theorem vend_nextRow {n : Nat} {x : Tile} {w : Run} (hn : p.tile = some n) (hx : tget none (coreAt s c).tiles n = some x)
    (hr : runAt s x.run = some w) (hrow : x.row + 1 < blockRows w.rows x.mb) :
    ∃ t, exec (.vend c f) s = .next t ∧ CyclesCounted s c f t ∧ coreAt t c = { coreAt s c with
      vrun := none, loops := [], step := false, tiles := tset none (coreAt s c).tiles n (some { x with row := x.row + 1 }) } := by
  have he : exec (.vend c f) s = done (endIssue s c f) := rfl
  have hrow' : rowEnded (atEnd s c) c n = putCore (atEnd s c) c { programEnded (coreAt s c) with
      tiles := tset none (coreAt s c).tiles n (some { x with row := x.row + 1 }) } := by
    unfold rowEnded
    dsimp only
    rw [coreAt_atEnd, show tget none (programEnded (coreAt s c)).tiles n = some x from hx]
    dsimp only
    rw [runAt_atEnd, hr]
    exact if_pos hrow
  rw [he, endIssue_row h hw hn, hrow']
  refine ⟨_, done_eq _, cyclesCounted_of hw (by omega) (n := 1) rfl ?_, ?_⟩
  · rw [rget64_settle, cycles_putCore, cycles_atEnd]
  · rw [coreAt_congr (settle_cores _), coreAt_putCore_self]
    rfl

theorem vend_freesTile {n : Nat} {x : Tile} {w : Run} (hn : p.tile = some n) (hx : tget none (coreAt s c).tiles n = some x)
    (hr : runAt s x.run = some w) (hrow : blockRows w.rows x.mb ≤ x.row + 1) :
    ∃ t, exec (.vend c f) s = .next t ∧ CyclesCounted s c f t ∧ (coreAt t c).vrun = none ∧
      (coreAt t c).tiles = tdel (coreAt s c).tiles n ∧
      ((x.run, x.mb, x.nt) ∈ (coreAt t c).deliver ∨ (x.run, x.mb, x.nt) ∈ (coreAt t c).heldOut) ∧
      (rget t (pgAcc c) 0x4C).toNat = min ((rget s (pgAcc c) 0x4C).toNat + 1) 0xFFFFFFFF ∧
      (rget t (pgDrain c) 0x44).toNat = min ((rget s (pgDrain c) 0x44).toNat + 1) 0xFFFFFFFF := by
  have he : exec (.vend c f) s = done (endIssue s c f) := rfl
  have hrow' : rowEnded (atEnd s c) c n = releaseTile (tileCounted
      (putCore (atEnd s c) c { programEnded (coreAt s c) with tiles := tdel (coreAt s c).tiles n }) c
      ((w.rc (atEnd s c)).cols x.nt < 64)) c x w := by
    unfold rowEnded
    dsimp only
    rw [coreAt_atEnd, show tget none (programEnded (coreAt s c)).tiles n = some x from hx]
    dsimp only
    rw [runAt_atEnd, hr]
    exact if_neg (Nat.not_lt.mpr hrow)
  rw [he, endIssue_row h hw hn, hrow']
  generalize hv : putCore (atEnd s c) c { programEnded (coreAt s c) with tiles := tdel (coreAt s c).tiles n } = v
  obtain ⟨hvrun, htiles, hout⟩ := releaseTile_core (tileCounted v c ((w.rc (atEnd s c)).cols x.nt < 64)) c x w
  obtain ⟨hvec, hacc, hdrain⟩ := rget_tileCounted v c ((w.rc (atEnd s c)).cols x.nt < 64)
  have hcore : coreAt v c = { programEnded (coreAt s c) with tiles := tdel (coreAt s c).tiles n } := by
    rw [← hv, coreAt_putCore_self]
  have hregs {q o : Nat} (hq : q ≠ pgVec c) (ho : o < 4096) : rget v q o = rget s q o := by
    rw [← hv, rget_of_regs (putCore_regs ..), rget_atEnd s hq ho]
  obtain ⟨hav, hdv, -⟩ := corePage_ne c
  rw [coreAt_congr (tileCounted_cores ..), hcore] at hvrun htiles
  rw [hregs hav (by omega)] at hacc
  rw [hregs hdv (by omega)] at hdrain
  have hsettle {q o : Nat} (u : State) (ho : o < 4096) (h12 : 12 ≤ o / 4) : rget (settle u) q o = rget u q o :=
    rget_settle u ho (by omega) (by omega) (by omega) (by omega) (by omega)
  refine ⟨_, done_eq _, cyclesCounted_of hw (by omega) (n := 1) rfl ?_, ?_⟩
  · rw [rget64_settle, rget64_congr (rget_releaseTile ..) (rget_releaseTile ..), hvec, ← hv, cycles_putCore, cycles_atEnd]
  · rw [coreAt_congr (settle_cores _), hsettle _ (by omega) (by omega), hsettle _ (by omega) (by omega), rget_releaseTile,
      rget_releaseTile]
    exact ⟨hvrun, htiles, hout, hacc, hdrain⟩

/-! ### END of a layer's end program (R192) -/

omit h hw in
theorem runAt_putRun_self (s : State) (r : Nat) (v : Option Run) : runAt (putRun s r v) r = v := tget_tset_self ..

omit h hw in
theorem runAt_putRun_other (s : State) {r q : Nat} (v : Option Run) (h : r ≠ q) : runAt (putRun s r v) q = runAt s q :=
  tget_tset_other _ _ _ _ h

/-- The end program of a layer work has ended on a core. -/
def markEnded (w : Run) (c : Nat) (s : State) (e : Nat × Run) : State :=
  modRun s e.1 fun x => { x with
    ended := if (setCores (w.man s) (w.rc s) x.set).contains (c % 16) then c :: x.ended else x.ended }

omit h hw in
/-- Marking changes the layer works alone. -/
theorem markEnded_rest (w : Run) (c : Nat) (s : State) (e : Nat × Run) : (markEnded w c s e).cores = s.cores ∧
    (markEnded w c s e).regs = s.regs ∧ (markEnded w c s e).slots = s.slots := by
  unfold markEnded modRun
  split <;> exact ⟨rfl, rfl, rfl⟩

omit h hw in
theorem runAt_markEnded (w : Run) (c : Nat) (u : State) (e : Nat × Run) (r : Nat) : runAt (markEnded w c u e) r =
    if e.1 = r then (runAt u r).map fun x => { x with
      ended := if (setCores (w.man u) (w.rc u) x.set).contains (c % 16) then c :: x.ended else x.ended } else runAt u r := by
  unfold markEnded modRun
  by_cases he : e.1 = r
  · subst he
    rw [if_pos rfl]
    split
    · next hx => rw [hx, Option.map_none]
    · next x hx => rw [runAt_putRun_self, hx, Option.map_some]
  · rw [if_neg he]
    split
    · rfl
    · exact runAt_putRun_other _ _ he

omit h hw in
/-- The layer work itself is among its siblings, and once marked it stays so. -/
theorem ended_of_marked {w : Run} {r : Nat} (hr : runAt s r = some w)
    (hc : (setCores (w.man s) (w.rc s) w.set).contains (c % 16) = true) :
    ∃ x, runAt ((siblings (atEnd s c) w).foldl (markEnded w c) (atEnd s c)) r = some x ∧ c ∈ x.ended := by
  have hman {u : State} (hs : u.slots = s.slots) : w.man u = w.man s := by
    rw [Run.man, manOf, slotAt, hs]
    rfl
  have hmem : (r, w) ∈ siblings (atEnd s c) w := by
    have hk : ∃ v, (r, v) ∈ (atEnd s c).runs := by_contra fun hk =>
      nomatch (tget_unlisted hk).symm.trans ((runAt_atEnd s c r).trans hr)
    have hm := mem_tget_of_key none hk.choose_spec
    rw [show tget none (atEnd s c).runs r = some w from (runAt_atEnd s c r).trans hr] at hm
    refine List.mem_filter.mpr ⟨List.mem_filterMap.mpr ⟨_, hm, rfl⟩, by simp⟩
  refine foldl_reaches (I := fun u => u.slots = s.slots ∧ ∃ x, runAt u r = some x ∧ x.set = w.set)
    (Q := fun u => ∃ x, runAt u r = some x ∧ c ∈ x.ended) (a := (r, w)) (fun u e hu => ?_) (fun u hu => ?_)
    (fun u e _ _ hu => ?_) hmem ⟨slots_atEnd s c, w, (runAt_atEnd s c r).trans hr, rfl⟩
  · obtain ⟨hs, x, hx, hset⟩ := hu
    refine ⟨(markEnded_rest w c u e).2.2.trans hs, ?_⟩
    rw [runAt_markEnded, hx]
    split
    · exact ⟨_, rfl, hset⟩
    · exact ⟨x, rfl, hset⟩
  · obtain ⟨hs, x, hx, hset⟩ := hu
    rw [runAt_markEnded, if_pos rfl, hx]
    refine ⟨_, rfl, ?_⟩
    dsimp only
    rw [hset, hman hs, show w.rc u = w.rc s from congrArg (recAt · w.layer) (hman hs), if_pos hc]
    exact List.mem_cons_self
  · obtain ⟨x, hx, hcx⟩ := hu
    rw [runAt_markEnded, hx]
    split
    · refine ⟨_, rfl, ?_⟩
      dsimp only
      split
      · exact .tail _ hcx
      · exact hcx
    · exact ⟨x, rfl, hcx⟩

theorem endIssue_layer {w : Run} (hn : p.tile = none) (hr : runAt s p.run = some w) : endIssue s c f =
    checkDone ((siblings (atEnd s c) w).foldl (markEnded w c) (atEnd s c)) w.req := by
  unfold endIssue
  rw [if_pos (vecReady_of_runs h hw)]
  dsimp only
  rw [h.vrun]
  dsimp only
  rw [hn]
  dsimp only
  rw [← runAt_atEnd s c] at hr
  unfold atEnd programEnded at *
  rw [hr]
  rfl

theorem vend_layer {w : Run} (hn : p.tile = none) (hr : runAt s p.run = some w)
    (hc : (setCores (w.man s) (w.rc s) w.set).contains (c % 16) = true) :
    ∃ t, exec (.vend c f) s = .next t ∧ CyclesCounted s c f t ∧ (coreAt t c).vrun = none ∧
      (∀ v, runAt t p.run = some v → c ∈ v.ended) := by
  have he : exec (.vend c f) s = done (endIssue s c f) := rfl
  rw [he, endIssue_layer h hw hn hr]
  generalize hu : (siblings (atEnd s c) w).foldl (markEnded w c) (atEnd s c) = u
  have hended : ∃ x, runAt u p.run = some x ∧ c ∈ x.ended := hu ▸ ended_of_marked hr hc
  have hw' := endsWork_checkDone u w.req
  have hcores : u.cores = (atEnd s c).cores :=
    hu ▸ foldl_keeps (π := State.cores) _ (fun v e => (markEnded_rest w c v e).1) _
  have hregs : u.regs = (atEnd s c).regs :=
    hu ▸ foldl_keeps (π := State.regs) _ (fun v e => (markEnded_rest w c v e).2.1) _
  have hend : NoProgram (atEnd s c) c := noProgram_putCore _ c rfl
  have hidle : NoProgram u c := hend.congr hcores
  refine ⟨_, done_eq _, cyclesCounted_of hw (by omega) (n := 1) rfl ?_, ?_, fun v hv => ?_⟩
  · rw [rget64_settle, hw'.cycles, ← cycles_atEnd]
    exact rget64_congr (rget_of_regs hregs _ _) (rget_of_regs hregs _ _)
  · rw [coreAt_congr (settle_cores _)]
    exact (hw'.idle c hidle).vrun
  · rw [runAt_congr (settle_runs _)] at hv
    obtain ⟨x, hx, hcx⟩ := hended
    exact Option.some_inj.mp (hx.symm.trans (hw'.runs _ _ hv)) ▸ hcx

end

end Sys2Proof.Laws
end

section
/-! The quantiser: VQNT in a running pass, and VQSCALE (R167, R174, R175, R179). -/

namespace Sys2Proof.Laws

open Sys2Proof Sys2Proof.Machine

/-! ### Slots of the quantiser -/

theorem qslotAt_putQSlot_self (s : State) (key : Nat) (v : Option QSlot) : qslotAt (putQSlot s key v) key = v := tget_tset_self ..

theorem qslotAt_putQSlot_other (s : State) {key k : Nat} (v : Option QSlot) (h : key ≠ k) :
    qslotAt (putQSlot s key v) k = qslotAt s k := tget_tset_other _ _ _ _ h

theorem modQ_eq {s : State} {key : Nat} {q : QSlot} (hq : qslotAt s key = some q) (g : QSlot → QSlot) :
    modQ s key g = putQSlot s key (some (g q)) := by
  unfold modQ
  rw [hq]

theorem modQ_rest (s : State) (key : Nat) (g : QSlot → QSlot) : (modQ s key g).cores = s.cores ∧ (modQ s key g).regs = s.regs ∧
    (modQ s key g).part = s.part ∧ (modQ s key g).dies = s.dies := by
  unfold modQ
  split <;> exact ⟨rfl, rfl, rfl, rfl⟩

/-- The layer work that a core's program serves. -/
theorem progRun_of {s : State} {c : Nat} {p : VRun} (h : CoreRuns s c p) {t : State} (hc : t.cores = s.cores)
    (hr : t.runs = s.runs) : progRun t (coreAt s c) = runAt s p.run ∧ progRun t (coreAt t c) = runAt s p.run := by
  have hk : progRun t (coreAt s c) = runAt s p.run := by
    rw [progRun, h.vrun, Option.bind_some, runAt_congr hr]
  rw [coreAt_congr hc]
  exact ⟨hk, hk⟩

/-! ### VQNT (R174, R175) -/

/-- From `q` to `q'` a pass goes on: its scales stay, and the elements that it has quantised. -/
structure SamePass (q q' : QSlot) : Prop where
  cfg : q'.cfg = q.cfg
  hist : q'.hist = q.hist
  passes : q'.passes = q.passes
  isOpen : q'.isOpen = q.isOpen
  elems : ∀ o, tget false q.elems o = true → tget false q'.elems o = true

theorem SamePass.refl (q : QSlot) : SamePass q q := ⟨rfl, rfl, rfl, rfl, fun _ => id⟩

theorem SamePass.trans {q r u : QSlot} (h : SamePass q r) (k : SamePass r u) : SamePass q u :=
  ⟨k.cfg.trans h.cfg, k.hist.trans h.hist, k.passes.trans h.passes, k.isOpen.trans h.isOpen, fun o ho => k.elems o (h.elems o ho)⟩

theorem passScale_congr {q q' : QSlot} (hc : q'.cfg = q.cfg) (hh : q'.hist = q.hist) (k : Nat) :
    passScale q' k = passScale q k := by
  unfold passScale
  rw [hc, hh]

/-- What VQNT leaves in the lane of an element: its code, or 0 where the pass has no scale for it. -/
def laneCode (q : QSlot) (off : Nat) (x : W32) : W32 :=
  match passScale q (scaleIdx q.cfg off) with
  | none => 0
  | some sc => widen q.cfg.fmt ((quantise q.cfg.fmt (f32v x) (f32v sc)).1 % 2 ^ fmtWidth q.cfg.fmt).toNat

theorem SamePass.laneCode {q q' : QSlot} (h : SamePass q q') (off : Nat) (x : W32) : laneCode q' off x = laneCode q off x := by
  unfold Laws.laneCode
  rw [h.cfg, passScale_congr h.cfg h.hist]

/-- A code written changes the cores' memory alone. -/
theorem putCode_eq (s : State) (c : Nat) (g : QSlotEnt) (tiles : List Nat) (off : Nat) (code : Int) :
    ∃ mem, putCode s c g tiles off code = { s with coreMem := mem } := by
  unfold putCode coreElemPut
  dsimp only
  split <;> exact ⟨_, rfl⟩

/-- A pass with one more element. -/
def withElem (q : QSlot) (off : Nat) (amax : Tab W32) (satN : Tab Nat) : QSlot :=
  { q with amax := amax, elems := tset false q.elems off true, satN := satN }

theorem withElem_elems (q : QSlot) (off : Nat) (amax : Tab W32) (satN : Tab Nat) :
    tget false (withElem q off amax satN).elems off = true := tget_tset_self false q.elems off true

theorem samePass_withElem (q : QSlot) (off : Nat) (amax : Tab W32) (satN : Tab Nat) : SamePass q (withElem q off amax satN) := by
  refine ⟨rfl, rfl, rfl, rfl, fun o ho => ?_⟩
  by_cases h : off = o
  · exact h ▸ withElem_elems ..
  · exact (tget_tset_other false false q.elems true h).trans ho

/-- One element is quantised: of the state, its slot and the cores' memory change. -/
theorem quantOne_eq {s : State} {key : Nat} {q : QSlot} (hq : qslotAt s key = some q) (c : Nat) (tiles : List Nat) (off : Nat)
    (x : W32) : ∃ q' mem, SamePass q q' ∧ tget false q'.elems off = true ∧
      quantOne s c key tiles off x = ({ putQSlot s key (some q') with coreMem := mem }, laneCode q off x) := by
  unfold quantOne
  rw [hq]
  dsimp only
  split
  · next hs =>
    have hcode : laneCode q off x = 0 := by
      unfold laneCode
      rw [show passScale q (scaleIdx q.cfg off) = none from hs]
    rw [hcode]
    exact ⟨withElem q off _ q.satN, _, samePass_withElem .., withElem_elems .., rfl⟩
  · next sc hs =>
    have hcode : laneCode q off x =
        widen q.cfg.fmt ((quantise q.cfg.fmt (f32v x) (f32v sc)).1 % 2 ^ fmtWidth q.cfg.fmt).toNat := by
      unfold laneCode
      rw [show passScale q (scaleIdx q.cfg off) = some sc from hs]
    rw [hcode]
    generalize hq' : (if (quantise q.cfg.fmt (f32v x) (f32v sc)).2 = true then _ else _ : QSlot) = q'
    have hpass : SamePass q q' ∧ tget false q'.elems off = true := by
      rw [← hq']
      split
      · exact ⟨samePass_withElem q off _ _, withElem_elems q off _ _⟩
      · exact ⟨samePass_withElem q off _ q.satN, withElem_elems q off _ q.satN⟩
    obtain ⟨mem, hm⟩ := putCode_eq (putQSlot s key (some q')) c q.cfg tiles off (quantise q.cfg.fmt (f32v x) (f32v sc)).1
    rw [hm]
    split
    · exact ⟨q', _, hpass.1, hpass.2, rfl⟩
    · exact ⟨q', _, hpass.1, hpass.2, rfl⟩

/-- The elements of some lanes quantised in turn, with their codes by lane. -/
def quantLanes (c key : Nat) (tiles : List Nat) (off : Nat → Nat) (x : Nat → W32) (l : List Nat) (a : State × Tab W32) :
    State × Tab W32 :=
  l.foldl (fun a i => ((quantOne a.1 c key tiles (off i) (x i)).1, tset 0 a.2 i (quantOne a.1 c key tiles (off i) (x i)).2)) a

theorem quantLanes_spec {s : State} {key : Nat} {q : QSlot} (hq : qslotAt s key = some q) (c : Nat) (tiles : List Nat)
    (off : Nat → Nat) (x : Nat → W32) (l : List Nat) (codes : Tab W32) :
    (quantLanes c key tiles off x l (s, codes)).1.cores = s.cores ∧ (quantLanes c key tiles off x l (s, codes)).1.regs = s.regs ∧
      (∀ i, tget 0 (quantLanes c key tiles off x l (s, codes)).2 i = if i ∈ l then laneCode q (off i) (x i) else tget 0 codes i) ∧
      ∃ q', qslotAt (quantLanes c key tiles off x l (s, codes)).1 key = some q' ∧ SamePass q q' ∧
        ∀ i ∈ l, tget false q'.elems (off i) = true := by
  induction l generalizing s q codes with
  | nil => exact ⟨rfl, rfl, fun _ => rfl, q, hq, .refl q, fun _ h => nomatch h⟩
  | cons j l ih =>
    obtain ⟨r, mem, hr, hj, he⟩ := quantOne_eq hq c tiles (off j) (x j)
    have hr' : qslotAt { putQSlot s key (some r) with coreMem := mem } key = some r :=
      (qslotAt_congr rfl key).trans (qslotAt_putQSlot_self s key (some r))
    obtain ⟨hcores, hregs, hcodes, q', hq', hpass, helems⟩ := ih hr' (tset 0 codes j (laneCode q (off j) (x j)))
    have hstep : quantLanes c key tiles off x (j :: l) (s, codes) = quantLanes c key tiles off x l
        ({ putQSlot s key (some r) with coreMem := mem }, tset 0 codes j (laneCode q (off j) (x j))) := by
      rw [quantLanes, List.foldl_cons, he]
      rfl
    rw [hstep]
    refine ⟨hcores, hregs, fun i => ?_, q', hq', hr.trans hpass, fun i hi => ?_⟩
    · rw [hcodes, hr.laneCode]
      by_cases hl : i ∈ l
      · simp [hl]
      · by_cases hij : i = j
        · subst hij
          simp [hl, tget_tset_self]
        · rw [if_neg hl, if_neg (by simp [hl, hij]), tget_tset_other 0 0 codes _ (Ne.symm hij)]
    · rcases List.mem_cons.mp hi with rfl | hi
      · exact hpass.elems _ hj
      · exact helems i hi

theorem noteNans_qslots (s : State) (c n code : Nat) : (noteNans s c n code).qslots = s.qslots := by
  unfold noteNans
  split <;> rfl

theorem passStart_open {s : State} {slot c n : Nat} {q : QSlot} (hq : qslotAt s (qKey slot c n) = some q) (ho : q.isOpen = true)
    (req : Nat) : passStart s slot c n req = s := by
  unfold passStart
  dsimp only
  rw [hq]
  exact if_pos ho

/-- The lanes that VQNT quantises. -/
def vqntLanes (f : VF) (c : Nat) (k : Core) (w : Run) (t : State) : State × Tab W32 :=
  quantLanes c (qKey w.slot c (f.imm.toNat % 65536)) (coreTiles (w.man t) (w.rc t) (c % 16))
    (fun i => ((k.scalar (f.vb.toNat % 16)).toNat + i) % 2 ^ 32) (fun i => k.lane f.va.toNat i) (k.on f) (t, [])

theorem vqntAct_open {t : State} {f : VF} {c : Nat} {k : Core} {w : Run} {q : QSlot} (hr : progRun t k = some w)
    (hq : qslotAt t (qKey w.slot c (f.imm.toNat % 65536)) = some q) (ho : q.isOpen = true) :
    vqntAct f c k t = some (noteNans (putCore (vqntLanes f c k w t).1 c ((coreAt (vqntLanes f c k w t).1 c).setLanes f fun i =>
      tget 0 (vqntLanes f c k w t).2 i)) c ((k.on f).filter fun i => f32v (k.lane f.va.toNat i) == .nan).length
      (f.imm.toNat % 65536 % 1024)) := by
  unfold vqntAct
  rw [hr]
  dsimp only
  rw [passStart_open hq ho]
  rfl

section

variable {s : State} {c : Nat} {f : VF} {p : VRun} (h : CoreRuns s c p)

include h

theorem vqnt_goesOn (hw : progWord s c (coreAt s c).pc = some (vWord 0x41 f)) {w : Run} {q : QSlot} (hr : runAt s p.run = some w)
    (hq : qslotAt s (qKey w.slot c (f.imm.toNat % 65536)) = some q) (ho : q.isOpen = true) :
    GoesOn s c f p (exec (.vqnt c f) s) fun t => (coreAt t c).sc = (coreAt s c).sc ∧
      (∀ i, i < 64 → (coreAt t c).lane f.vd.toNat i = if (coreAt s c).enabled f i then
          laneCode q ((((coreAt s c).scalar (f.vb.toNat % 16)).toNat + i) % 2 ^ 32) ((coreAt s c).lane f.va.toNat i)
        else if f.mz then 0 else (coreAt s c).lane f.vd.toNat i) ∧
      (∃ q', qslotAt t (qKey w.slot c (f.imm.toNat % 65536)) = some q' ∧ q'.isOpen = true ∧ q'.hist = q.hist ∧
        q'.passes = q.passes ∧ (∀ i, i < 64 → (coreAt s c).enabled f i = true →
          tget false q'.elems ((((coreAt s c).scalar (f.vb.toNat % 16)).toNat + i) % 2 ^ 32) = true)) := by
  generalize hs' : count64 s (pgVec c) 0x4C (vecCycles 0x41) = s'
  have hcores : s'.cores = s.cores := hs' ▸ count64_cores ..
  have hrun : progRun s' (coreAt s c) = some w := (progRun_of h hcores (hs' ▸ count64_runs ..)).1.trans hr
  have hq' : qslotAt s' (qKey w.slot c (f.imm.toNat % 65536)) = some q :=
    (qslotAt_congr (hs' ▸ count64_qslots ..) _).trans hq
  have hact := vqntAct_open hrun hq' ho
  obtain ⟨hlc, hlr, hcodes, q', hslot, hpass, helems⟩ := quantLanes_spec hq' c (coreTiles (w.man s') (w.rc s') (c % 16))
    (fun i => (((coreAt s c).scalar (f.vb.toNat % 16)).toNat + i) % 2 ^ 32) (fun i => (coreAt s c).lane f.va.toNat i)
    ((coreAt s c).on f) []
  rw [← vqntLanes] at hlc hlr hcodes hslot
  generalize vqntLanes f c (coreAt s c) w s' = r at hlc hlr hcodes hslot hact
  rw [coreAt_congr hlc, coreAt_congr hcores] at hact
  have hu := actsOn_noteNans (actsOn_putCore r.1 c ((coreAt s c).setLanes f fun i => tget 0 r.2 i))
    ((coreAt s c).on f |>.filter fun i => f32v ((coreAt s c).lane f.va.toNat i) == .nan).length (f.imm.toNat % 65536 % 1024)
  refine goesOn_of_act h hw (by omega) rfl (hs'.symm ▸ hact) (by rw [hu.core]; exact ⟨rfl, rfl, rfl⟩) ?_ fun t ht => ?_
  · rw [hu.cycles, hs']
    exact rget64_congr (rget_of_regs hlr _ _) (rget_of_regs hlr _ _)
  · have hcore := ht.core
    rw [hu.core] at hcore
    obtain ⟨-, hsc, hd, -⟩ := lanesSet_setLanes (coreAt s c) f fun i => tget 0 r.2 i
    refine ⟨by rw [hcore, placed_sc, hsc], fun i hi => ?_, q', ?_, hpass.isOpen.trans ho, hpass.hist, hpass.passes,
      fun i hi he => helems i (mem_on.mpr ⟨hi, he⟩)⟩
    · rw [hcore, placed_lane, hd i hi]
      by_cases he : (coreAt s c).enabled f i = true
      · rw [if_pos he, if_pos he]
        exact (hcodes i).trans (if_pos (mem_on.mpr ⟨hi, he⟩))
      · rw [if_neg he, if_neg he]
    · rw [qslotAt_congr ht.qslots, qslotAt_congr (noteNans_qslots ..), qslotAt_congr (putCore_qslots ..), hslot]

/-! ### VQSCALE (R167, R175, R179) -/

omit h in
theorem histFrom_congr {s t : State} (h : t.coreMem = s.coreMem) (c : Nat) (q : QSlot) : histFrom t c q = histFrom s c q := by
  unfold histFrom
  rw [h]

/-- The scale of the running pass, or of the one that would begin. -/
def shownScale (s : State) (c : Nat) (q : QSlot) : Option W32 :=
  if q.clear = true ∧ q.isOpen = false then none
  else passScale (if q.isOpen then q else { q with hist := histFrom s c q }) 0

omit h in
theorem drawFree_rest (t : State) : (drawFree t).2.coreMem = t.coreMem ∧ (drawFree t).2.regs = t.regs ∧
    (drawFree t).2.free = t.free + 1 := ⟨rfl, rfl, rfl⟩

omit h in
/-- Where there is no scale the value is drawn. -/
theorem vqscaleAct_eq {t : State} {w : Run} {q : QSlot} (hr : progRun t (coreAt s c) = some w)
    (hq : qslotAt t (qKey w.slot c (f.imm.toNat % 65536)) = some q) : vqscaleAct f c (coreAt s c) t =
      (shownScale t c q).elim (some (putCore (drawFree t).2 c ((coreAt s c).setScalar (f.vd.toNat % 16) (drawFree t).1)))
        fun sc => some (putCore t c ((coreAt s c).setScalar (f.vd.toNat % 16) sc)) := by
  have hcond : (q.clear && !q.isOpen) = true ↔ q.clear = true ∧ q.isOpen = false := by simp
  unfold vqscaleAct
  rw [hr]
  dsimp only
  rw [hq, Option.bind_some]
  simp only [hcond]
  split
  · next sc hs => rw [show shownScale t c q = some sc from hs, Option.elim_some]
  · next hs => rw [show shownScale t c q = none from hs, Option.elim_none]

theorem vqscale_goesOn (hw : progWord s c (coreAt s c).pc = some (vWord 0x43 f)) {w : Run} {q : QSlot}
    (hr : runAt s p.run = some w) (hq : qslotAt s (qKey w.slot c (f.imm.toNat % 65536)) = some q) :
    (∀ x, shownScale s c q = some x → GoesOn s c f p (exec (.vqscale c f) s) fun t => SetsScalar s c f x t ∧ t.free = s.free) ∧
    (shownScale s c q = none → GoesOn s c f p (exec (.vqscale c f) s) fun t => t.coreMem = s.coreMem ∧
      (coreAt t c).v = (coreAt s c).v ∧ t.free = s.free + 1 ∧
      (∀ j, j ≠ f.vd.toNat % 16 → (coreAt t c).scalar j = (coreAt s c).scalar j)) := by
  have hmem : (count64 s (pgVec c) 0x4C (vecCycles 0x43)).coreMem = s.coreMem := count64_coreMem ..
  have hfree : (count64 s (pgVec c) 0x4C (vecCycles 0x43)).free = s.free := count64_free ..
  have hrun := (progRun_of h (count64_cores s (pgVec c) 0x4C (vecCycles 0x43)) (count64_runs ..)).1.trans hr
  have hact := vqscaleAct_eq (f := f) hrun ((qslotAt_congr (count64_qslots s _ _ _) _).trans hq)
  have hscale : shownScale (count64 s (pgVec c) 0x4C (vecCycles 0x43)) c q = shownScale s c q := by
    unfold shownScale
    rw [histFrom_congr hmem]
  rw [hscale] at hact
  refine ⟨fun x hx => ?_, fun hx => ?_⟩
  · rw [hx] at hact
    exact setScalar_goesOn h hw (by omega) rfl ⟨hmem, rfl⟩ hact fun t ht hf => ⟨ht, hf.trans hfree⟩
  · rw [hx] at hact
    obtain ⟨hdm, hdr, hdf⟩ := drawFree_rest (count64 s (pgVec c) 0x4C (vecCycles 0x43))
    refine setScalar_goesOn h hw (by omega) rfl ⟨hdm.trans hmem, hdr⟩ hact fun t ht hf => ⟨ht.1, ht.2.1, ?_, fun j hj => ?_⟩
    · rw [hf, hdf, hfree]
    · exact (ht.2.2 j).trans (if_neg fun e => hj e.1)

end

end Sys2Proof.Laws
end

section
/-! The quantiser: the end of a pass by VQEND (R175 to R178), and the arrival of posts (R178, R317). -/

namespace Sys2Proof.Laws

open Sys2Proof Sys2Proof.Machine

/-! ### What beginning a pass and posting leave -/

/-- From `s` to `t` posts go out: no core, layer work, session slot, die or link changes, and no register of a vector unit. -/
structure Posting (s t : State) : Prop where
  cores : t.cores = s.cores
  runs : t.runs = s.runs
  slots : t.slots = s.slots
  part : t.part = s.part
  dies : t.dies = s.dies
  links : t.links = s.links
  vec : ∀ c o, o < 4096 → rget t (pgVec c) o = rget s (pgVec c) o

theorem Posting.refl (s : State) : Posting s s := ⟨rfl, rfl, rfl, rfl, rfl, rfl, fun _ _ _ => rfl⟩

theorem Posting.trans {s t u : State} (h : Posting s t) (k : Posting t u) : Posting s u :=
  ⟨k.cores.trans h.cores, k.runs.trans h.runs, k.slots.trans h.slots, k.part.trans h.part, k.dies.trans h.dies,
    k.links.trans h.links, fun c o ho => (k.vec c o ho).trans (h.vec c o ho)⟩

theorem Posting.cycles {s t : State} (h : Posting s t) (c : Nat) : rget64 t (pgVec c) 0x4C = rget64 s (pgVec c) 0x4C :=
  rget64_congr (h.vec c _ (by omega)) (h.vec c _ (by omega))

theorem posting_putQSlot (s : State) (key : Nat) (v : Option QSlot) : Posting s (putQSlot s key v) :=
  ⟨rfl, rfl, rfl, rfl, rfl, rfl, fun _ _ _ => rfl⟩

theorem posting_ev (s : State) (p b code : Nat) : Posting s (ev s p b code) := ⟨rfl, rfl, rfl, rfl, rfl, rfl, fun _ _ _ => rfl⟩

theorem posting_passStart (s : State) (slot c n req : Nat) : Posting s (passStart s slot c n req) := by
  unfold passStart
  dsimp only
  split
  · exact .refl s
  · split
    · exact .refl s
    · split
      · exact (posting_putQSlot ..).trans (posting_ev ..)
      · exact posting_putQSlot ..

/-- Once begun, a pass runs. -/
theorem isOpen_passStart {s : State} {slot c n req : Nat} {q : QSlot}
    (hq : qslotAt (passStart s slot c n req) (qKey slot c n) = some q) : q.isOpen = true := by
  unfold passStart at hq
  dsimp only at hq
  split at hq
  · next hn => rw [hn] at hq; cases hq
  · next r hr =>
    split at hq
    · next ho => rw [hr] at hq; cases hq; exact ho
    · have hput (u : State) (r : QSlot) (ho : r.isOpen = true) (hu : u.qslots = (putQSlot s (qKey slot c n) (some r)).qslots)
          (hq : qslotAt u (qKey slot c n) = some q) : q.isOpen = true := by
        rw [qslotAt_congr hu, qslotAt_putQSlot_self] at hq
        cases hq
        exact ho
      split at hq
      · exact hput _ _ rfl rfl hq
      · exact hput _ _ rfl rfl hq

theorem pgVec_ne_pgTrl (c : Nat) : pgTrl ≠ pgVec c := by
  unfold pgVec pgTrl corePage
  omega

theorem posting_discardPackets (s : State) (dests : List Nat) (flits : Nat) :
    Posting s (discardPackets s dests flits) ∧ (discardPackets s dests flits).qslots = s.qslots := by
  unfold discardPackets
  split
  · exact ⟨.refl s, rfl⟩
  · exact ⟨⟨rfl, rfl, rfl, rfl, rfl, rfl, fun c o ho =>
      rget_count_other s _ fun h => pgVec_ne_pgTrl c ((dwAddr_inj (by omega) ho).mp h).1⟩, rfl⟩

theorem posting_addFlow (s : State) (k : Cls) (src : Nat) (dests : List Nat) (flits : Nat) (x : Option Nat) :
    Posting s (addFlow s k src dests flits x) ∧ (addFlow s k src dests flits x).qslots = s.qslots := by
  unfold addFlow
  dsimp only
  split
  · exact ⟨.refl s, rfl⟩
  · exact ⟨⟨rfl, rfl, rfl, rfl, rfl, rfl, fun _ _ _ => rfl⟩, rfl⟩

theorem posting_sendPackets (s : State) (k : Cls) (src : Nat) (dests : List Nat) (flits : Nat) :
    Posting s (sendPackets s k src dests flits) ∧ (sendPackets s k src dests flits).qslots = s.qslots := by
  obtain ⟨hd, hdq⟩ := posting_discardPackets s (lostDests s src dests) flits
  obtain ⟨ha, haq⟩ := posting_addFlow (discardPackets s (lostDests s src dests) flits) k src
    (dests.filter fun d => !(lostDests s src dests).contains d) flits none
  exact ⟨hd.trans ha, haq.trans hdq⟩

theorem posting_sendAll (s : State) (k : Cls) (src flits : Nat) (far : List Nat) :
    Posting s (far.foldl (fun s d => sendPackets s k src [d] flits) s) ∧
      (far.foldl (fun s d => sendPackets s k src [d] flits) s).qslots = s.qslots := by
  induction far generalizing s with
  | nil => exact ⟨.refl s, rfl⟩
  | cons d far ih =>
    obtain ⟨h, hq⟩ := posting_sendPackets s k src [d] flits
    obtain ⟨ht, htq⟩ := ih (sendPackets s k src [d] flits)
    exact ⟨h.trans ht, htq.trans hq⟩

/-! ### Ways that remain (R318, R319) -/

/-- The ways of packets depend on the part, the dies and the links alone. -/
theorem lostDests_congr {s t : State} (hp : t.part = s.part) (hd : t.dies = s.dies) (hl : t.links = s.links) (src : Nat)
    (dests : List Nat) : lostDests t src dests = lostDests s src dests := by
  have hlink (i : Nat) : linkAt t i = linkAt s i := by rw [linkAt, hl, linkAt]
  have hworks : wayWorks t = wayWorks s := funext fun l => by simp only [wayWorks, hlink]
  have hleg : leg t = leg s := by
    funext a b d e n
    simp only [leg, hp, hworks]
  have htorus : torusWay t = torusWay s := funext fun a => funext fun b => funext fun d => by simp only [torusWay, hp, hleg]
  have hok : linkOk t = linkOk s := funext fun d => funext fun port => by simp only [linkOk, hlink]
  have hhub : hubFor t = hubFor s := funext fun d => by simp only [hubFor, hok, hp]
  have hdown : downWay t = downWay s := funext fun d => by simp only [downWay, hhub, htorus]
  have hlive : dieLive t = dieLive s := funext fun d => by simp only [dieLive, dieAt, hp, hd]
  have hway : wayTo t = wayTo s := by
    funext a b
    simp only [wayTo, hlive, hdown, htorus, hp]
  simp only [lostDests, reaches, hway]

theorem manOf_congr {s t : State} (h : t.slots = s.slots) (slot : Nat) : manOf t slot = manOf s slot := by
  rw [manOf, manOf, slotAt, slotAt, h]

theorem otherMembers_congr {s t : State} (h : t.slots = s.slots) (slot c : Nat) (g : QSlotEnt) :
    otherMembers t slot c g = otherMembers s slot c g := by
  rw [otherMembers, otherMembers, manOf_congr h]

/-- The dies of the other members that a member's posts go to over the fabric. -/
def farMembers (s : State) (slot c : Nat) (g : QSlotEnt) : List Nat :=
  ((otherMembers s slot c g).map fun e => e.1 / 16).filter fun d => d != c / 16

/-- With a way to each of them left, posting marks the slot's posts as sent. -/
theorem postAmax_spec {s : State} {slot c n : Nat} {q : QSlot} (hq : qslotAt s (qKey slot c n) = some q)
    (hl : lostDests s (c / 16) (farMembers s slot c q.cfg) = []) (rows : Nat) : Posting s (postAmax s slot c n rows) ∧
      ∃ sent, qslotAt (postAmax s slot c n rows) (qKey slot c n) = some { q with posted := true, sent := sent } := by
  unfold postAmax
  rw [hq]
  dsimp only
  split
  · next hp =>
    refine ⟨.refl s, q.sent, hq.trans ?_⟩
    rw [← hp]
  · generalize hs : q.sent ++ _ = sent
    have h0 := posting_putQSlot s (qKey slot c n) (some { q with posted := true, sent := sent })
    obtain ⟨h1, h1q⟩ := posting_sendAll (putQSlot s (qKey slot c n) (some { q with posted := true, sent := sent })) .ctrl (c / 16)
      (ceilDiv (amaxList q rows).length 16) (farMembers s slot c q.cfg)
    have h2 := h0.trans h1
    rw [farMembers] at h1 h1q h2 hl
    rw [lostDests_congr h2.part h2.dies h2.links, hl, if_pos List.isEmpty_nil]
    exact ⟨h2, sent, (qslotAt_congr h1q _).trans (qslotAt_putQSlot_self ..)⟩

/-! ### The posts of the other members -/

/-- Whether a member's post for a pass has arrived. -/
def hasPost (q : QSlot) (req : Nat) (e : Nat × Nat) : Bool := q.posts.any fun x => x.core == e.1 && x.pass == req

theorem isSome_find_post (q : QSlot) (req : Nat) (e : Nat × Nat) :
    (q.posts.find? fun x => x.core == e.1 && x.pass == req).isSome = hasPost q req e := by
  rw [hasPost, Bool.eq_iff_iff, List.find?_isSome, List.any_eq_true]

theorem allPosts_eq {s : State} {slot c n req : Nat} {q : QSlot} (hq : qslotAt s (qKey slot c n) = some q) :
    allPosts s slot c n req = if (otherMembers s slot c q.cfg).all (hasPost q req) then
      some (((otherMembers s slot c q.cfg).map fun e => q.posts.find? fun p => p.core == e.1 && p.pass == req).filterMap id)
    else none := by
  unfold allPosts
  rw [hq]
  dsimp only
  rw [List.all_map]
  have hall : (Option.isSome ∘ fun e : Nat × Nat => q.posts.find? fun p => p.core == e.1 && p.pass == req) = hasPost q req :=
    funext fun e => isSome_find_post q req e
  rw [hall]

/-! ### The end of a scale (R176, R177) -/

/-- From `s` to `t` scales of a pass end: no core changes, nor the count of issue cycles, and the slot stands. -/
structure ScalesEnd (c key : Nat) (s t : State) : Prop where
  cores : t.cores = s.cores
  cycles : rget64 t (pgVec c) 0x4C = rget64 s (pgVec c) 0x4C
  slot : ∀ q, qslotAt s key = some q → ∃ q', qslotAt t key = some q' ∧ q'.passes = q.passes

section

variable {c key : Nat} {s₀ s : State}

theorem ScalesEnd.refl (c key : Nat) (s : State) : ScalesEnd c key s s := ⟨rfl, rfl, fun q hq => ⟨q, hq, rfl⟩⟩

theorem ScalesEnd.trans {t : State} (h : ScalesEnd c key s₀ s) (k : ScalesEnd c key s t) : ScalesEnd c key s₀ t := by
  refine ⟨k.cores.trans h.cores, k.cycles.trans h.cycles, fun q hq => ?_⟩
  obtain ⟨r, hr, hrp⟩ := h.slot q hq
  obtain ⟨u, hu, hup⟩ := k.slot r hr
  exact ⟨u, hu, hup.trans hrp⟩

/-- An update of other tables. -/
theorem ScalesEnd.update {t : State} (h : ScalesEnd c key s₀ s) (hc : t.cores = s.cores) (hr : t.regs = s.regs)
    (hq : t.qslots = s.qslots) : ScalesEnd c key s₀ t :=
  h.trans ⟨hc, rget64_congr (rget_of_regs hr _ _) (rget_of_regs hr _ _), fun q h => ⟨q, (qslotAt_congr hq key).trans h, rfl⟩⟩

theorem ScalesEnd.foldl {α : Type} {f : State → α → State} (hf : ∀ u x, ScalesEnd c key u (f u x)) (l : List α)
    (h : ScalesEnd c key s₀ s) : ScalesEnd c key s₀ (l.foldl f s) := by
  induction l generalizing s with
  | nil => exact h
  | cons x l ih => exact ih (h.trans (hf s x))

section

variable (h : ScalesEnd c key s₀ s)

include h

theorem ScalesEnd.count (n : Nat) {o : Nat} (ho : o < 4096) (h1 : o / 4 ≠ 19) (h2 : o / 4 ≠ 20) :
    ScalesEnd c key s₀ (count s (pgVec c) o n) :=
  h.trans ⟨rfl, rget64_count_other s c n ho h1 h2, fun q hq => ⟨q, hq, rfl⟩⟩

theorem ScalesEnd.ev (p b code : Nat) : ScalesEnd c key s₀ (ev s p b code) := h.update rfl rfl rfl

theorem ScalesEnd.setQual (id b : Nat) : ScalesEnd c key s₀ (setQual s id b) := by
  unfold Machine.setQual modReq
  split
  · exact h
  · exact h.update rfl rfl rfl

theorem ScalesEnd.corePut (d a : Nat) (l : List Byte) : ScalesEnd c key s₀ (corePut s d a l) := h.update rfl rfl rfl

theorem ScalesEnd.putCode (d : Nat) (g : QSlotEnt) (tiles : List Nat) (off : Nat) (code : Int) :
    ScalesEnd c key s₀ (putCode s d g tiles off code) := by
  obtain ⟨mem, hm⟩ := putCode_eq s d g tiles off code
  rw [hm]
  exact h.update rfl rfl rfl

theorem ScalesEnd.putScale (d : Nat) (g : QSlotEnt) (k : Nat) (v : W32) : ScalesEnd c key s₀ (putScale s d g k v) := h.corePut ..

theorem ScalesEnd.requantise (d : Nat) (q : QSlot) (tiles : List Nat) (k : Nat) (sc : W32) :
    ScalesEnd c key s₀ (requantise s d q tiles k sc) :=
  .foldl (fun u _ => (ScalesEnd.refl c key u).putCode ..) _ h

theorem ScalesEnd.modQ {g : QSlot → QSlot} (hg : ∀ q, (g q).passes = q.passes) : ScalesEnd c key s₀ (modQ s key g) := by
  refine h.trans ⟨(modQ_rest s key g).1, ?_, fun q hq => ?_⟩
  · exact rget64_congr (rget_of_regs (modQ_rest s key g).2.1 _ _) (rget_of_regs (modQ_rest s key g).2.1 _ _)
  · rw [modQ_eq hq]
    exact ⟨_, qslotAt_putQSlot_self .., hg q⟩

/-- A history is written, to the slot and to the SRAM. -/
theorem ScalesEnd.push (d : Nat) (g : QSlotEnt) (k : Nat) (l : List W32) : ScalesEnd c key s₀ (if g.gran = 2 then s
    else Machine.modQ (putHist s d g k l) key fun q => { q with hist := tset [] q.hist k l }) := by
  split
  · exact h
  · exact (ScalesEnd.foldl (fun u _ => (ScalesEnd.refl c key u).corePut ..) _ h).modQ fun _ => rfl

end

theorem scalesEnd_endScale (s : State) (n req : Nat) (tiles : List Nat) (k : Nat) (a : W32) (empty : Bool) :
    ScalesEnd c key s (endScale s c key n req tiles k a empty).1 := by
  have h0 := ScalesEnd.refl c key s
  unfold endScale
  split
  · exact h0
  · next q _ =>
    dsimp only
    split
    · have h1 : ScalesEnd c key s ((scaleElems q k).foldl (fun s o => Machine.putCode s c q.cfg tiles o 0) s) :=
        .foldl (fun u _ => (ScalesEnd.refl c key u).putCode ..) _ h0
      exact (((h1.putScale ..).count 1 (by omega) (by omega) (by omega)).setQual ..).push ..
    · split
      · exact ((h0.requantise ..).putScale ..).push ..
      · next sc _ =>
        split
        · have hj : ScalesEnd c key s (if decide (0 < cmpScaled a (-(q.cfg.qsTol : Int)) sc (qMax q.cfg.fmt)) = true then
              Machine.ev (Machine.count s (pgVec c) 0x60 1) (pgVec c) 3 (n % 1024) else s) := by
            split
            · exact (h0.count 1 (by omega) (by omega) (by omega)).ev ..
            · exact h0
          split
          · exact ((hj.requantise ..).putScale ..).push ..
          · exact (((hj.count _ (by omega) (by omega) (by omega)).setQual ..).putScale ..).push ..
        · have hp := h0.putScale c q.cfg k sc
          have hu : ScalesEnd c key s (if decide (cmpScaled a 4 sc (qMax q.cfg.fmt) < 0) = true then
              Machine.setQual (Machine.count (Machine.putScale s c q.cfg k sc) (pgVec c) 0x5C 1) req qUnder
              else Machine.putScale s c q.cfg k sc) := by
            split
            · exact (hp.count 1 (by omega) (by omega) (by omega)).setQual ..
            · exact hp
          exact hu.push ..

end

end Sys2Proof.Laws
end

section
/-! The quantiser: VQEND (R175 to R178), the arrival of posts (R178, R317), and the settling of O60. -/

namespace Sys2Proof.Laws

open Sys2Proof Sys2Proof.Machine

/-! ### A pass ends (R176 to R178) -/

/-- The scales that a pass ends. -/
def endedScales (q : QSlot) (rows : Nat) (posts : List Post) : List Nat :=
  (List.range (q.scaleCount rows)).filter fun i =>
    q.cfg.gran == 0 || !(scaleElems q i).isEmpty || posts.any fun p => p.has.getD i false

/-- Whether the group's history was emptied, here or at another member. -/
def groupEmptied (q : QSlot) (posts : List Post) : Bool := q.lost || posts.any fun p => p.reset

/-- The scales of a pass ended one after another, and whether one was quantised again. -/
def scalesEnded (s : State) (c key n : Nat) (w : Run) (q : QSlot) (posts : List Post) : State × Bool :=
  (endedScales q w.rows posts).foldl (fun (x : State × Bool) i =>
    let a := posts.foldl (fun a p => maxWord a (p.amax.getD i 0)) (tget 0 q.amax i)
    let r := endScale x.1 c key n w.req (coreTiles (w.man s) (w.rc s) (c % 16)) i a (groupEmptied q posts)
    (r.1, x.2 || r.2)) (s, false)

/-- A slot whose pass has ended. -/
def slotEnded (req : Nat) (empty : Bool) (q : QSlot) : QSlot :=
  { q with
    isOpen := false, lost := false, passes := if empty then 1 else q.passes + 1
    posts := q.posts.filter fun p => p.pass != req }

/-- The state at the end of a pass, before the outputs that it held are released. -/
def passEnded (s : State) (c key n : Nat) (w : Run) (q : QSlot) (posts : List Post) : State :=
  let r := scalesEnded s c key n w q posts
  let s := if r.2 then count r.1 (pgVec c) 0x64 1 else r.1
  modQ (count64 s (pgVec c) 0x4C (vqendCycles q (endedScales q w.rows posts) r.2)) key (slotEnded w.req (groupEmptied q posts))

theorem scalesEnd_scalesEnded (s : State) (c key n : Nat) (w : Run) (q : QSlot) (posts : List Post) :
    ScalesEnd c key s (scalesEnded s c key n w q posts).1 := by
  unfold scalesEnded
  generalize endedScales q w.rows posts = l
  have h (x : State × Bool) (hx : ScalesEnd c key s x.1) : ScalesEnd c key s (l.foldl (fun (x : State × Bool) i =>
      let a := posts.foldl (fun a p => maxWord a (p.amax.getD i 0)) (tget 0 q.amax i)
      let r := endScale x.1 c key n w.req (coreTiles (w.man s) (w.rc s) (c % 16)) i a (groupEmptied q posts)
      (r.1, x.2 || r.2)) x).1 := by
    induction l generalizing x with
    | nil => exact hx
    | cons i l ih => exact ih _ (hx.trans (scalesEnd_endScale ..))
  exact h _ (.refl c key s)

/-- The cycles of VQEND are one, or one for each 64 elements. -/
theorem vqendCycles_cases (q : QSlot) (scales : List Nat) (again : Bool) :
    vqendCycles q scales again = 1 ∨ vqendCycles q scales again = max 1 (ceilDiv q.elems.length 64) := by
  unfold vqendCycles
  split
  · exact .inr rfl
  · exact .inl rfl

theorem passEnded_spec {s : State} {c key : Nat} {q : QSlot} (hq : qslotAt s key = some q) (n : Nat) (w : Run)
    (posts : List Post) : (passEnded s c key n w q posts).cores = s.cores ∧
      (∃ m, (m = 1 ∨ m = max 1 (ceilDiv q.elems.length 64)) ∧
        rget64 (passEnded s c key n w q posts) (pgVec c) 0x4C = (rget64 s (pgVec c) 0x4C + m) % 2 ^ 64) ∧
      ∃ q', qslotAt (passEnded s c key n w q posts) key = some q' ∧ q'.isOpen = false ∧
        q'.passes = if groupEmptied q posts then 1 else q.passes + 1 := by
  have hr := scalesEnd_scalesEnded s c key n w q posts
  unfold passEnded
  dsimp only
  generalize scalesEnded s c key n w q posts = r at hr
  have hu : ScalesEnd c key s (if r.2 then count r.1 (pgVec c) 0x64 1 else r.1) := by
    split
    · exact hr.count 1 (by omega) (by omega) (by omega)
    · exact hr
  generalize (if r.2 then count r.1 (pgVec c) 0x64 1 else r.1 : State) = u at hu
  obtain ⟨q', hq', hp⟩ := hu.slot q hq
  obtain ⟨hc, hg, -⟩ := modQ_rest (count64 u (pgVec c) 0x4C (vqendCycles q (endedScales q w.rows posts) r.2)) key
    (slotEnded w.req (groupEmptied q posts))
  refine ⟨?_, ⟨_, vqendCycles_cases q (endedScales q w.rows posts) r.2, ?_⟩, slotEnded w.req (groupEmptied q posts) q', ?_,
    rfl, ?_⟩
  · rw [hc, count64_cores, hu.cores]
  · rw [rget64_congr (rget_of_regs hg _ _) (rget_of_regs hg _ _), rget64_count64, hu.cycles]
  · rw [modQ_eq ((qslotAt_congr (count64_qslots ..) key).trans hq'), qslotAt_putQSlot_self]
  · rw [slotEnded, hp]

/-! ### VQEND -/

/-- The state of VQEND once its pass has begun and its posts have gone out. -/
def vqendPosted (s : State) (c n : Nat) (w : Run) : State := postAmax (passStart s w.slot c n w.req) w.slot c n w.rows

section

variable {s : State} {c : Nat} {f : VF} {p : VRun} (h : CoreRuns s c p)
  (hw : progWord s c (coreAt s c).pc = some (vWord 0x42 f)) {w : Run} (hr : runAt s p.run = some w)

/-- What its posts have left of the state, and of the slot. -/
theorem vqendPosted_spec {n : Nat} {q : QSlot} (hq : qslotAt (passStart s w.slot c n w.req) (qKey w.slot c n) = some q)
    (hl : lostDests s (c / 16) (farMembers s w.slot c q.cfg) = []) : Posting s (vqendPosted s c n w) ∧
      ∃ sent, qslotAt (vqendPosted s c n w) (qKey w.slot c n) = some { q with posted := true, sent := sent } := by
  have hs := posting_passStart s w.slot c n w.req
  have hfar : farMembers (passStart s w.slot c n w.req) w.slot c q.cfg = farMembers s w.slot c q.cfg := by
    rw [farMembers, farMembers, otherMembers_congr hs.slots]
  obtain ⟨hp, sent, hsent⟩ := postAmax_spec hq (by rw [hfar, lostDests_congr hs.part hs.dies hs.links, hl]) w.rows
  exact ⟨hs.trans hp, sent, hsent⟩

include h hw hr

/-- Where a post is missing the program waits. -/
theorem vqendIssue_waits {q : QSlot} (hp : Posting s (vqendPosted s c (f.imm.toNat % 65536) w))
    (ha : allPosts (vqendPosted s c (f.imm.toNat % 65536) w) w.slot c (f.imm.toNat % 65536) w.req = none)
    (hq : qslotAt (vqendPosted s c (f.imm.toNat % 65536) w) (qKey w.slot c (f.imm.toNat % 65536)) = some q) :
    vqendIssue s c f = if q.waited then vqendPosted s c (f.imm.toNat % 65536) w
      else count (putQSlot (vqendPosted s c (f.imm.toNat % 65536) w) (qKey w.slot c (f.imm.toNat % 65536))
        (some { q with waited := true })) (pgVec c) 0x70 1 := by
  have hrun := (progRun_of h hp.cores hp.runs).2.trans hr
  have hrun0 := (progRun_of h rfl rfl).1.trans hr
  unfold vqendPosted at *
  unfold vqendIssue
  rw [if_pos (vecReady_of_runs h hw)]
  dsimp only
  rw [hrun0]
  dsimp only
  rw [hrun, if_neg (by simp), ha]
  dsimp only
  rw [hq]

/-- Where none is missing the pass ends, and the program goes on. -/
theorem vqendIssue_ends {q : QSlot} {posts : List Post} (hp : Posting s (vqendPosted s c (f.imm.toNat % 65536) w))
    (ha : allPosts (vqendPosted s c (f.imm.toNat % 65536) w) w.slot c (f.imm.toNat % 65536) w.req = some posts)
    (hq : qslotAt (vqendPosted s c (f.imm.toNat % 65536) w) (qKey w.slot c (f.imm.toNat % 65536)) = some q) :
    vqendIssue s c f = vecNext (releaseHeld (passEnded (vqendPosted s c (f.imm.toNat % 65536) w) c
      (qKey w.slot c (f.imm.toNat % 65536)) (f.imm.toNat % 65536) w q posts) c) c ((coreAt s c).pc + 1) := by
  have hrun := (progRun_of h hp.cores hp.runs).2.trans hr
  have hrun0 := (progRun_of h rfl rfl).1.trans hr
  unfold vqendPosted at *
  unfold vqendIssue
  rw [if_pos (vecReady_of_runs h hw)]
  dsimp only
  rw [hrun0]
  dsimp only
  rw [hrun, if_neg (by simp), ha]
  dsimp only
  rw [hq]
  rfl

omit h hw hr in
/-- Releasing outputs leaves the program of the core, and everything but that core. -/
theorem releaseHeld_rest (s : State) (c : Nat) : (coreAt (releaseHeld s c) c).vrun = (coreAt s c).vrun ∧
    (coreAt (releaseHeld s c) c).loops = (coreAt s c).loops ∧ (releaseHeld s c).regs = s.regs ∧
    (releaseHeld s c).qslots = s.qslots := by
  unfold releaseHeld modCore
  rw [coreAt_putCore_self]
  exact ⟨rfl, rfl, rfl, rfl⟩

theorem vqend_ends {q : QSlot} (hq : qslotAt (passStart s w.slot c (f.imm.toNat % 65536) w.req)
      (qKey w.slot c (f.imm.toNat % 65536)) = some q) (hl : lostDests s (c / 16) (farMembers s w.slot c q.cfg) = [])
    (hall : (otherMembers s w.slot c q.cfg).all (hasPost q w.req) = true) (hloops : (coreAt s c).loops = [])
    (hb : p.first ≤ (coreAt s c).pc + 1 ∧ (coreAt s c).pc + 1 < p.first + p.count) :
    ∃ t q' posts, exec (.vqend c f) s = .next t ∧ (coreAt t c).pc = (coreAt s c).pc + 1 ∧
      (∃ m, (m = 1 ∨ m = max 1 (ceilDiv q.elems.length 64)) ∧
        rget64 t (pgVec c) 0x4C = (rget64 s (pgVec c) 0x4C + m) % 2 ^ 64) ∧
      qslotAt t (qKey w.slot c (f.imm.toNat % 65536)) = some q' ∧ q'.isOpen = false ∧
      q'.passes = (if groupEmptied q posts then 1 else q.passes + 1) ∧ (otherMembers s w.slot c q.cfg = [] → posts = []) := by
  obtain ⟨hp, sent, hsent⟩ := vqendPosted_spec hq hl
  have ha := allPosts_eq (req := w.req) hsent
  rw [otherMembers_congr hp.slots] at ha
  change _ = if (otherMembers s w.slot c q.cfg).all (hasPost q w.req) = true then _ else _ at ha
  rw [if_pos hall] at ha
  generalize hposts : List.filterMap id _ = posts at ha
  obtain ⟨hcores, ⟨m, hm, hcyc⟩, q', hq', ho, hpasses⟩ := passEnded_spec hsent (f.imm.toNat % 65536) w posts
  have hi := vqendIssue_ends h hw hr hp ha hsent
  generalize passEnded (vqendPosted s c (f.imm.toNat % 65536) w) c (qKey w.slot c (f.imm.toNat % 65536)) (f.imm.toNat % 65536) w
    { q with posted := true, sent := sent } posts = u at hi hcores hcyc hq'
  obtain ⟨hvrun, hlo, hregs, hslots⟩ := releaseHeld_rest u c
  rw [coreAt_congr (hcores.trans hp.cores)] at hvrun hlo
  have ht := wentOn_unlooped (hvrun.trans h.vrun) (hlo.trans hloops) hb
  rw [← hi] at ht
  refine ⟨_, q', posts, done_eq (vqendIssue s c f), by rw [ht.core, placed_pc], ⟨m, hm, ?_⟩, ?_, ho, hpasses, fun hn => ?_⟩
  · rw [ht.cycles, rget64_congr (rget_of_regs hregs _ _) (rget_of_regs hregs _ _), hcyc, hp.cycles]
  · rw [qslotAt_congr ht.qslots, qslotAt_congr hslots, hq']
  · rw [← hposts, hn]
    rfl

theorem vqend_waits {q : QSlot} (hq : qslotAt (passStart s w.slot c (f.imm.toNat % 65536) w.req)
      (qKey w.slot c (f.imm.toNat % 65536)) = some q) (hl : lostDests s (c / 16) (farMembers s w.slot c q.cfg) = [])
    (hall : (otherMembers s w.slot c q.cfg).all (hasPost q w.req) = false) :
    ∃ t q', exec (.vqend c f) s = .next t ∧ (coreAt t c).pc = (coreAt s c).pc ∧ (coreAt t c).vrun = (coreAt s c).vrun ∧
      qslotAt t (qKey w.slot c (f.imm.toNat % 65536)) = some q' ∧ q'.posted = true ∧ q'.isOpen = true ∧
      (rget t (pgVec c) 0x70).toNat = if q.waited then (rget s (pgVec c) 0x70).toNat
        else min ((rget s (pgVec c) 0x70).toNat + 1) 0xFFFFFFFF := by
  have ho := isOpen_passStart hq
  obtain ⟨hp, sent, hsent⟩ := vqendPosted_spec hq hl
  have ha := allPosts_eq (req := w.req) hsent
  rw [otherMembers_congr hp.slots] at ha
  change _ = if (otherMembers s w.slot c q.cfg).all (hasPost q w.req) = true then _ else _ at ha
  rw [if_neg (Bool.not_eq_true _ ▸ hall)] at ha
  have hi := vqendIssue_waits h hw hr hp ha hsent
  have he : exec (.vqend c f) s = done (vqendIssue s c f) := rfl
  have hreg (u : State) : rget (settle u) (pgVec c) 0x70 = rget u (pgVec c) 0x70 :=
    rget_settle u (by omega) (by omega) (by omega) (by omega) (by omega) (by omega)
  have hcore {u : State} (hu : u.cores = s.cores) : coreAt (settle u) c = coreAt s c := coreAt_congr ((settle_cores u).trans hu) c
  rw [he, hi]
  generalize vqendPosted s c (f.imm.toNat % 65536) w = u at hp hsent
  dsimp only
  by_cases hwt : q.waited = true
  · rw [if_pos hwt, if_pos hwt]
    refine ⟨_, _, done_eq _, by rw [hcore hp.cores], by rw [hcore hp.cores], (qslotAt_congr (settle_qslots u) _).trans hsent, rfl,
      ho, by rw [hreg, hp.vec c _ (by omega)]⟩
  · rw [if_neg hwt, if_neg hwt]
    refine ⟨_, _, done_eq _, by rw [hcore]; exact hp.cores, by rw [hcore]; exact hp.cores,
      (qslotAt_congr ((settle_qslots _).trans (count_qslots ..)) _).trans (qslotAt_putQSlot_self ..), rfl, ho, ?_⟩
    rw [hreg, rget_count_self]
    exact congrArg (fun x : W32 => min (x.toNat + 1) 0xFFFFFFFF) (hp.vec c 0x70 (by omega))

end

/-! ### A post arrives (R178, R317) -/

section

variable {s : State} {c n src pass key : Nat} {amaxes : List W32} {reset : Bool} {q r : QSlot} {post : Post}

/-- The post that an arrival brings. -/
def broughtBy (c pass : Nat) (amaxes : List W32) (reset : Bool) (p : Post) : Bool :=
  p.core == c && p.pass == pass && p.amax == amaxes && p.reset == reset

/-- Whether a slot of a core has a post to bring to a slot of its group. -/
def bringsPost (s : State) (c n src pass : Nat) (amaxes : List W32) (reset : Bool) (e : Nat × Option QSlot) : Bool :=
  e.1 / 1024 % 256 == src && (match e.2 with
    | some q => q.sent.any (broughtBy c pass amaxes reset) && (match qslotAt s (qKey (e.1 / 262144) c n) with
        | some r => r.cfg.group == q.cfg.group
        | none => false)
    | none => false)

variable (hf : s.qslots.find? (bringsPost s c n src pass amaxes reset) = some (key, some q))
  (hp : q.sent.find? (broughtBy c pass amaxes reset) = some post)

include hf hp

theorem quantPostOp_eq : quantPostOp s c n src amaxes pass reset =
    if src / 16 = c / 16 ∨ (reaches s (src / 16) (c / 16) ∧ wayOpen s .ctrl (src / 16) [c / 16]) then
      modQ (modQ s key fun q => { q with sent := q.sent.erase post }) (qKey (key / 262144) c n) fun q =>
        { q with posts := q.posts ++ [{ post with core := src }] }
    else if reaches s (src / 16) (c / 16) then s
    else failReq (discardPackets (modQ s key fun q => { q with sent := q.sent.erase post }) [c / 16]
      (ceilDiv amaxes.length 16)) pass 0x7F := by
  unfold quantPostOp
  dsimp only
  split
  · next he => cases hf.symm.trans he
  · next k v he =>
    cases hf.symm.trans he
    unfold broughtBy at hp
    rw [Option.bind_some, hp]

theorem quantPost_arrives (hq : qslotAt s key = some q) (hr : qslotAt s (qKey (key / 262144) c n) = some r)
    (hne : key ≠ qKey (key / 262144) c n)
    (hway : src / 16 = c / 16 ∨ reaches s (src / 16) (c / 16) = true ∧ wayOpen s .ctrl (src / 16) [c / 16] = true) :
    ∃ t r' q', exec (.quantPostArrival c n src amaxes pass reset) s = .next t ∧
      qslotAt t (qKey (key / 262144) c n) = some r' ∧ r'.posts = r.posts ++ [{ post with core := src }] ∧
      qslotAt t key = some q' ∧ q'.sent = q.sent.erase post ∧ t.cores = s.cores := by
  have he : exec (.quantPostArrival c n src amaxes pass reset) s = done (quantPostOp s c n src amaxes pass reset) := rfl
  have hr' : qslotAt (putQSlot s key (some { q with sent := q.sent.erase post })) (qKey (key / 262144) c n) = some r :=
    (qslotAt_putQSlot_other _ _ hne).trans hr
  rw [he, quantPostOp_eq hf hp, if_pos hway, modQ_eq hq, modQ_eq hr']
  refine ⟨_, _, _, done_eq _, (qslotAt_congr (settle_qslots _) _).trans (qslotAt_putQSlot_self ..), rfl,
    (qslotAt_congr (settle_qslots _) _).trans ((qslotAt_putQSlot_other _ _ hne.symm).trans (qslotAt_putQSlot_self ..)), rfl, ?_⟩
  rw [settle_cores]
  rfl

theorem quantPost_waits (hs : s.evq = []) (hsrc : src / 16 ≠ c / 16) (hreach : reaches s (src / 16) (c / 16) = true)
    (hway : wayOpen s .ctrl (src / 16) [c / 16] = false) :
    exec (.quantPostArrival c n src amaxes pass reset) s = .next s := by
  have he : exec (.quantPostArrival c n src amaxes pass reset) s = done (quantPostOp s c n src amaxes pass reset) := rfl
  have hn : ¬(src / 16 = c / 16 ∨ (reaches s (src / 16) (c / 16) ∧ wayOpen s .ctrl (src / 16) [c / 16])) := by
    simp [hsrc, hway]
  rw [he, quantPostOp_eq hf hp, if_neg hn, if_pos hreach, done_eq, settle_of_nil hs]

end

/-- Settles O60, one instruction at a time, and the arrival of posts. -/
theorem vectorMemQuant : Obligations.VectorMemQuant := by
  intro s c f p hs hclk hv hgo k more dt counted is goesOn faults fills scalarIs at_ lut
  have h : CoreRuns s c p := ⟨hclk, hv, hgo⟩
  refine ⟨fun hw => ⟨vld_goesOn h hw, vld_faults h hw⟩, fun hw => ⟨vst_goesOn h hw, vst_faults h hw⟩,
    fun hw => ⟨vldb_goesOn h hw, vldb_faults h hw⟩, fun hw => ⟨vlut_goesOn h hw, vlut_faults h hw⟩, smov_goesOn h, sadd_goesOn h,
    fun hw => ⟨vloop_begins h hw, fun ht hl h1 h2 => vloop_skips h hw ht hl ⟨h1, h2⟩, vloop_faults h hw⟩,
    fun hw w hr => ⟨fun n x hn hx hxr => ?_, fun hn => vend_layer h hw hn hr⟩,
    fun w q hr => ⟨fun hw => vqnt_goesOn h hw hr, fun hw => ?_, fun hw => vqscale_goesOn h hw hr⟩, ?_⟩
  · rw [← hxr] at hr
    exact ⟨vend_nextRow h hw hn hx hr, vend_freesTile h hw hn hx hr⟩
  · intro u others ended here hq hl
    refine ⟨fun hno hloops hb => ?_, fun hall hloops hb => ?_, vqend_waits h hw hr hq hl⟩
    · have hall : (otherMembers s w.slot c q.cfg).all (hasPost q w.req) = true := by
        rw [show otherMembers s w.slot c q.cfg = [] from hno, List.all_nil]
      obtain ⟨t, q', posts, ht, hpc, hend, hq', ho, hpasses, hposts⟩ := vqend_ends h hw hr hq hl hall hloops hb
      refine ⟨t, q', ht, hpc, hend, hq', ho, ?_⟩
      rw [hpasses, hposts hno, groupEmptied, List.any_nil, Bool.or_false]
    · obtain ⟨t, q', posts, ht, hpc, hend, hq', ho, -⟩ := vqend_ends h hw hr hq hl hall hloops hb
      exact ⟨t, ht, hpc, hend, fun x hx => Option.some_inj.mp (hq'.symm.trans hx) ▸ ho⟩
  · intro n src pass key amaxes reset q r post isIt target from_ hf hp hq hr hne
    exact ⟨quantPost_arrives hf hp hq hr hne, quantPost_waits hf hp hs⟩

end Sys2Proof.Laws
end
